-- ==== Sys2Proof/Word.lean ====
section
/-!
DEFINITION. The plain words of the model: bytes, 32-bit words, the sparse map that every store of the model is
(a list of key and value pairs with strictly rising keys), and the plainest arithmetic on naturals read as bits.
-/

namespace Sys2Proof

/-- One byte. -/
abbrev Byte := BitVec 8
/-- A string of bytes as held in a frame, a memory or a record. -/
abbrev Bytes := List (BitVec 8)
/-- A 32-bit register or memory word. -/
abbrev Word := BitVec 32

/-- A sparse store: key and value pairs, keys strictly rising. A key that is not listed holds its default, which
the reader of the store supplies. -/
abbrev SMap (α : Type) := List (Nat × α)

namespace SMap
variable {α : Type}

/-- The value listed at a key. -/
def get? : SMap α → Nat → Option α
  | [], _ => none
  | (k, v) :: r, x => if k = x then some v else get? r x

/-- The value at a key, or the default where the key is not listed. -/
def getD (m : SMap α) (x : Nat) (d : α) : α := (get? m x).getD d

/-- Puts a value at a key, in key order. -/
def set : SMap α → Nat → α → SMap α
  | [], x, w => [(x, w)]
  | (k, v) :: r, x, w =>
    if x < k then (x, w) :: (k, v) :: r
    else if x = k then (x, w) :: r
    else (k, v) :: set r x w

/-- Takes a key out of the list. -/
def erase : SMap α → Nat → SMap α
  | [], _ => []
  | (k, v) :: r, x => if k = x then r else (k, v) :: erase r x

/-- The form every store keeps: strictly rising keys. -/
def rising : SMap α → Bool
  | [] => true
  | [_] => true
  | (k, _) :: (l, w) :: r => decide (k < l) && rising ((l, w) :: r)

end SMap

/-- Bits `lsb` to `lsb + n - 1` of a natural. -/
def bitsOf (w lsb n : Nat) : Nat := (w / 2 ^ lsb) % 2 ^ n

/-- Bit `b` of a natural. -/
def bitOf (w b : Nat) : Bool := (w / 2 ^ b) % 2 == 1

/-- 1 for true. -/
def b2n (b : Bool) : Nat := if b then 1 else 0

/-- A natural's low `n` bits read as two's complement. -/
def signedOf (w n : Nat) : Int :=
  let u := w % 2 ^ n
  if 2 * u < 2 ^ n then (u : Int) else (u : Int) - (2 ^ n : Nat)

/-- An integer's two's complement pattern of `n` bits. -/
def unsignedOf (x : Int) (n : Nat) : Nat := (x % ((2 ^ n : Nat) : Int)).toNat

/-- The bytes of a natural, least significant first (the order of R13). -/
def leBytes : Nat → Nat → Bytes
  | 0, _ => []
  | k + 1, w => BitVec.ofNat 8 w :: leBytes k (w / 256)

/-- The bytes of a natural, most significant first (network order, R13). -/
def beBytes (k w : Nat) : Bytes := (leBytes k w).reverse

/-- The natural that bytes spell, least significant first. -/
def ofLe : Bytes → Nat
  | [] => 0
  | b :: r => b.toNat + 256 * ofLe r

/-- The natural that bytes spell, most significant first. -/
def ofBe (b : Bytes) : Nat := b.foldl (fun a x => a * 256 + x.toNat) 0

/-- The bytes `off` to `off + n - 1` of a string; bytes past its end read as 0. -/
def slice (b : Bytes) (off n : Nat) : Bytes :=
  let s := (b.drop off).take n
  s ++ List.replicate (n - s.length) 0

/-- Little-endian natural at an offset of a string. -/
def leAt (b : Bytes) (off n : Nat) : Nat := ofLe (slice b off n)

/-- Big-endian natural at an offset of a string. -/
def beAt (b : Bytes) (off n : Nat) : Nat := ofBe (slice b off n)

/-- The quotient rounded up. -/
def ceilDiv (a b : Nat) : Nat := (a + b - 1) / b

/-- The quotient of integers rounded to nearest, a tie to the even one; `b` is positive. -/
def divRne (a : Int) (b : Nat) : Int :=
  let q := a / (b : Int)
  let r := a % (b : Int)
  if 2 * r < b then q else if 2 * r > b then q + 1 else if q % 2 = 0 then q else q + 1

/-- The largest natural whose square is at most the argument. -/
def isqrtLoop : Nat → Nat → Nat → Nat
  | 0, _, r => r
  | k + 1, n, r =>
    let t := r + 2 ^ k
    isqrtLoop k n (if t * t ≤ n then t else r)

/-- The integer square root, bit by bit. -/
def isqrt (n : Nat) : Nat := isqrtLoop (n.log2 / 2 + 1) n 0

end Sys2Proof
end

