-- ==== Sys2Proof/Machine/EngineState.lean ====
section
/-!
DEFINITION. The state of the Block Engines (Block Engines: Programming Model): the registers and the context area of
a hardware context, the entries it stages, the requests it waits for, and the state of an engine. Also the words of
a Kiljo instruction (Table 11.1).
-/

namespace Sys2Proof

/-- The fields of a Kiljo instruction word besides its opcode (Table 11.1, R266). -/
structure Kw where
  a : BitVec 6
  b : BitVec 6
  c : BitVec 6
  qp : BitVec 3
  qn : Bool
  sz : BitVec 2
  imm : BitVec 32
  deriving DecidableEq, Repr

/-- What the decoder found in the codewords that an access reads (Table 20.3): nothing, a corrected symbol (the
codeword's offset in its memory, the symbol, the syndrome), or an uncorrectable error. -/
inductive ReadErr where
  | clean
  | ce (addr symbol syndrome : Nat)
  | ue (addr syndrome : Nat)
  deriving DecidableEq, Repr

def ReadErr.isUe : ReadErr → Bool
  | .ue _ _ => true
  | _ => false

namespace Machine

/-- A commit record entry (Table 2.3). Only the TYPE values of that table can be staged by the instructions. -/
inductive Entry where
  /-- OUT_WRITE at a byte offset of the task's output image. -/
  | outWrite (off : Nat) (data : Bytes)
  /-- INST_WRITE at a byte offset of the instance data. -/
  | instWrite (off : Nat) (data : Bytes)
  /-- VAR_PUB: variable, quality word, value, and its width in bytes (4 or 8). -/
  | varPub (var : Nat) (q : Word) (value : BitVec 64) (width : Nat)
  /-- FRAME of kind 0 or 1: a GOOSE publication or an LST connection. -/
  | frame (kind idx : Nat)
  /-- FRAME of kind 2: the first data word's byte 0 and the frame bytes. -/
  | frameRaw (pc : Byte) (bytes : Bytes)
  /-- EVENT_MARK: code and 0 to 8 bytes of data. -/
  | eventMark (code : Nat) (data : Bytes)
  /-- REC_MARK: the session mask and the mark code. -/
  | recMark (target : Word)
  /-- Of a safe-value record (R53, R305): a task's output image. -/
  | safeOut (task : Nat) (data : Bytes)
  /-- Of the record of an instance reset (R337): the instance data rewritten from the initial data records. -/
  | instInit (inst : Nat)
  deriving DecidableEq, Repr

def pad8 (n : Nat) : Nat := (n + 7) / 8 * 8

/-- The bytes an entry takes in a record. -/
def Entry.size : Entry → Nat
  | .outWrite _ d => 8 + pad8 d.length
  | .instWrite _ d => 8 + pad8 d.length
  | .varPub _ _ _ w => 8 + pad8 (4 + w)
  | .frame _ _ => 8
  | .frameRaw _ b => 8 + pad8 (4 + b.length)
  | .eventMark _ d => 8 + pad8 d.length
  | .recMark _ => 8
  | .safeOut _ d => 8 + pad8 d.length
  | .instInit _ => 8

def entriesSize (l : List Entry) : Nat := l.foldl (fun a e => a + e.size) 0

/-- A frame of the call stack (R255). -/
structure CallFrame where
  retPc : BitVec 18
  ib : BitVec 18
  ii : BitVec 16
  oi : BitVec 16
  preds : BitVec 8
  deriving DecidableEq, Repr

/-- What a context waits for (R240, R276, R286 and the constant reads of R274). -/
inductive GReq where
  /-- RDCLK: destination and selector. -/
  | clock (a : BitVec 6) (sel : Nat)
  /-- CRDV (`quality = false`) or CRDQ: destination, SEQ, first channel, vat rate. -/
  | curd (quality : Bool) (a : BitVec 6) (seq first : Nat) (rate : Nat)
  /-- CRDH: destination, SEQ, vat rate, header word. -/
  | curdHdr (a : BitVec 6) (seq rate j : Nat)
  /-- LD from CONST: destination, offset, bytes, sign extension. -/
  | constLd (a : BitVec 6) (off n : Nat) (sext : Bool)
  /-- VLD from CONST. -/
  | constVld (a : BitVec 6) (off : Nat)
  /-- A check-value request: destination, unit, and the answer the unit computes (R286). -/
  | crc (a : BitVec 6) (u : Nat) (result : BitVec 64)
  deriving DecidableEq, Repr

/-- What a record is: a cycle's; safe values (R53); the rewrite of an instance reset (R337); the state that a transfer
applies, or a record that the active forwards (R408). -/
inductive RecKind where
  | cycle | safe | rewrite | transfer | forwarded
  deriving DecidableEq, Repr

/-- A commit record (Table 2.2) with the engine and context that hand it off. `epoch` is the epoch its cycle was captured
from (R309); `handed` the elapsed time of its completed hand-off. -/
structure CRec where
  inst : Nat
  gen : Nat
  group : Option Nat
  task : Nat
  ct : Nat
  length : Nat
  entries : List Entry
  engine : Nat
  ctx : Nat
  epoch : Nat
  handed : Nat
  kind : RecKind
  deriving DecidableEq, Repr

/-- Where a context stands between dispatch and the end of its cycle (R240). -/
inductive CtxPhase where
  /-- Its capture is in progress. -/
  | capturing
  | running
  | waiting (r : GReq)
  /-- COMMIT has formed the record; the hand-off is in progress (R285). -/
  | handing (r : CRec)
  deriving DecidableEq, Repr

/-- The sizes that bound a context's spaces (Table 10.3, R248). -/
structure Layout where
  inLen : Nat
  outLen : Nat
  winOff : Nat
  winLen : Nat
  locLen : Nat
  instSize : Nat
  constLen : Nat
  deriving DecidableEq, Repr

/-- A hardware context that holds a cycle: the cycle, its registers (Table 10.2) and its context area (R248).
INST bytes are keyed by their offset in the instance data area. `locBase` names the free value that unwritten LOC
bytes read as (R246), none where the module filled LOC with zeros. -/
structure Ctx where
  task : Nat
  inst : Nat
  gen : Nat
  ct : Nat
  level : Nat
  group : Option Nat
  order : Nat
  retries : Nat
  present : Nat
  protectionClass : Bool
  epoch : Nat
  lay : Layout
  phase : CtxPhase
  firstAt : Option Nat
  missed : Bool
  g : SMap (BitVec 64)
  v : SMap Word
  p : BitVec 8
  ib : BitVec 18
  ii : BitVec 16
  oi : BitVec 16
  pc : BitVec 18
  cs : Word
  stack : List CallFrame
  inImg : SMap Byte
  outImg : SMap Byte
  instImg : SMap Byte
  loc : SMap Byte
  locBase : Option Nat
  dirtyOut : List Nat
  dirtyInst : List Nat
  staged : List Entry
  deriving DecidableEq, Repr

/-- The states of Table 10.8. -/
inductive EngState where
  | inService | selfTest | failed | hostFenced | draining
  deriving DecidableEq, Repr

/-- The number that BEN_ENG_STAT.STATE shows. -/
def EngState.code : EngState → Nat
  | .inService => 0 | .selfTest => 1 | .failed => 2 | .hostFenced => 3 | .draining => 4

/-- One engine. `retest` marks a self-test that RETEST of a FAILED engine started; `mism` are the elapsed times of
its mismatches within 24 h; `lastInst` is the instance of each context's previous cycle (R246); `prevMissed` says
whether the latest protection-class cycle that ended on it missed its progress mark (R298). -/
structure Engine where
  state : EngState
  retest : Bool
  mism : List Nat
  ctxs : SMap Ctx
  lastInst : SMap Nat
  prevMissed : Bool
  deriving DecidableEq, Repr

/-- An engine as module reset leaves it: in SELF_TEST (BEN_ENG_STAT), holding nothing. -/
def Engine.init : Engine := ⟨.selfTest, false, [], [], [], false⟩

end Machine
end Sys2Proof
end

