-- ==== Sys2Proof/Machine/LinkState.lean ====
section
/-!
DEFINITION. The state of Linoa Safe Transport and of pair redundancy.
-/

namespace Sys2Proof.Machine

/-! ### Linoa Safe Transport -/

/-- A connection: the fields of Table 17.8 that no register holds, and its running state. Receiving: the latest
accepted DATA, FLAGS, SEQ, SEND_TS and ARRIVAL (ns), the start of the watchdog window (ns) and its length, a latched
ACK. Sending: whether a frame was ever built, SAFE, the latest build (ns). -/
structure Conn where
  en : Bool
  dst : Nat
  vid : Nat
  task : Nat
  pub : Nat
  dataOff : Nat
  safeOff : Option Nat
  data : Bytes
  flags : Nat
  seq : Option Nat
  sendTs : Nat
  arrival : Nat
  wdogFrom : Nat
  wdogNs : Nat
  ack : Bool
  built : Bool
  safe : Bool
  lastBuild : Nat
  deriving DecidableEq, Repr

/-- The LST engine: its connections, SRC_MAC, the fail-safe contents, the second of the latest event 3. -/
structure Lst where
  conns : SMap Conn
  srcMac : Nat
  blob : Bytes
  noMatchAt : Option Nat
  deriving DecidableEq, Repr

/-- DESIGN CHOICE, assumption 11. -/
def Lst.init : Lst := ⟨[], 0, [], none⟩

/-! ### Pair redundancy -/

/-- The PAIR section (Table 16.9), less REVERT, which RED_CTRL holds; `pens` are the seven penalties in order, the
dual sets the bytes of PUB_DUAL and LST_DUAL as numbers. -/
structure PairCfg where
  pairMode : Bool
  pairId : Nat
  prefPos : Nat
  stEn : Bool
  hbPort : Nat
  hbClass : Nat
  hbVid : Nat
  hbDst : Nat
  peerWaitMs : Nat
  revertMs : Nat
  yieldMs : Nat
  yieldMargin : Nat
  xferMax : Nat
  slackUs : Nat
  xferTmoMs : Nat
  pens : List Nat
  watch : Nat
  joinLeadUs : Nat
  pubDual : Nat
  lstDual : Nat
  deriving DecidableEq, Repr

/-- The defaults of Table 16.9. -/
def PairCfg.init : PairCfg :=
  ⟨false, 1, 0, false, 0, 6, 1, 0x035A54000000, 500, 2000, 100, 32, 4, 200, 50, [4, 8, 32, 64, 16, 8, 1], 0, 5000, 0, 0⟩

/-- ROLE of RED_STATUS. -/
inductive Role where
  | undecided | active | standby | standalone
  deriving DecidableEq, Repr

def Role.code : Role → Nat
  | .undecided => 0 | .active => 1 | .standby => 2 | .standalone => 3

/-- The latest valid heartbeat, and the elapsed time at which it was heard. -/
structure Peer where
  flags : Nat
  mode : Nat
  claim : Nat
  bootId : Nat
  at_ : Nat
  deriving DecidableEq, Repr

/-- A digest entry (R406). -/
structure DigEntry where
  inst : Nat
  task : Nat
  ct : Nat
  digest : Nat
  deriving DecidableEq, Repr

/-- A piece of an instance's state as a transfer carries it (R408; the parts of Table 16.6): instance data, a task's
output image with STOPPED and its last committed ct, a variable, a publication (stNum, sqNum, contents), a
connection (SEQ). -/
inductive XPart where
  | idata (off : Nat) (data : Bytes)
  | out (task : Nat) (stopped : Bool) (lastCt : Nat) (image : Bytes)
  | var (v quality value : Nat)
  | pub (p stNum sqNum : Nat) (data : Bytes)
  | conn (c seq : Nat)
  deriving DecidableEq, Repr

/-- A pair message (Tables 16.3 and 16.6): the bytes of a heartbeat's payload; the entries of a digest frame; a request; a
fragment of state with T_JOIN, none for the end; a forwarded record; a marker. -/
inductive PairMsg where
  | heartbeat (payload : Bytes)
  | digests (l : List DigEntry)
  | request (inst : Nat)
  | state (inst tJoin : Nat) (part : Option XPart)
  | record (inst ct : Nat) (rec : CRec)
  | marker (inst ct task : Nat)
  deriving DecidableEq, Repr

/-- A transfer that a standby runs: its start (elapsed time), T_join (ns) once known, the pieces received, whether the state
is applied, and the tasks that have not yet run a local cycle at or after T_join. -/
structure Xfer where
  start : Nat
  tJoin : Option Nat
  parts : List XPart
  applied : Bool
  waiting : List Nat
  deriving DecidableEq, Repr

/-- The redundancy block: its configuration and role; SERV and EPOCH of its claim; BOOT_ID; the peer; by path (0 PL,
1 station) the BOOT_ID and SEQ last heard, the ingress of the latest valid heartbeat (ns) and the next SEQ to send;
the start of the decision; the starts of the health and revert windows; SWITCH_REQ; the times of protection-class
overruns; whether each path is up for events; own digest entries to send and those that wait for their counterpart
(with the end of their window, ns); the peer's entries that none of the own has met; the transfers of a standby; on
the active, T_join (ns) of the instances it forwards. -/
structure Red where
  cfg : PairCfg
  role : Role
  serv : Bool
  epoch : Nat
  bootId : Nat
  peer : Option Peer
  heard : SMap (Nat × Nat)
  tLast : SMap Nat
  sendSeq : SMap Nat
  decideFrom : Option Nat
  healthFrom : Option Nat
  revertFrom : Option Nat
  switchReq : Bool
  overruns : List Nat
  pathUp : SMap Bool
  digQ : List DigEntry
  digFrom : Option Nat
  own : List (DigEntry × Nat)
  theirs : List DigEntry
  xfers : SMap Xfer
  forward : SMap Nat
  deriving DecidableEq, Repr

/-- DESIGN CHOICE, assumption 11. -/
def Red.init : Red :=
  ⟨PairCfg.init, .undecided, false, 0, 0, none, [], [], [], none, none, none, false, [], [], [], none, [], [], [], []⟩

end Sys2Proof.Machine
end

