-- ==== Sys2Proof/Machine/Payload.lean ====
section
/-!
DEFINITION. The operands of the commands that are more than a number.
-/

namespace Sys2Proof.Machine

/-- What MACsec found of a received frame (check 5 of Table 5.2): sound, an integrity failure, or no SA, a replay or
a bad SecTAG. -/
inductive SecCheck where
  | ok | icv | noSa
  deriving DecidableEq, Repr

/-- A frame at a port's receive interface: its bytes after MACsec is removed and without the FCS, and what the PCS,
the FCS and MACsec say of it. PRESUMED, assumption 59; DEDUCED, assumption 60. -/
structure RxFrame where
  bytes : Bytes
  codeError : Bool
  fcsOk : Bool
  sec : SecCheck
  deriving DecidableEq, Repr

/-- A time offset of a source (1 PTP, 2 Haulato, 3 IRIG-B) as it is handed to the servo (R181, R183, R185): θ in 2^-16 ns, τ in
ns, and the TAI - UTC, LEAP61 and LEAP59 that the source supplies. -/
structure TimeOffset where
  src : Nat
  theta : Int
  tau : Nat
  utc : Option (Nat × Bool × Bool)
  deriving DecidableEq, Repr

/-- A PTP message as the Steward's IEEE 1588 stack takes it (R178 to R181): the port it came in at, its domain, whether it
is sound and on profile, the states of the PTP ports after it, the offset it yields, the offset and rate it yields
for a bound virtual clock, and the messages the stack sends in answer. PRESUMED, assumption 59. -/
structure PtpMsg where
  port : Nat
  domain : Nat
  sound : Bool
  states : Nat
  offset : Option TimeOffset
  vc : Option (Nat × Int × Int)
  replies : List (Nat × Bytes)
  deriving DecidableEq, Repr

/-- An ASDU of a sampled-value frame: svID, confRev, the dataset's length in bytes, smpRate where present, smpCnt, smpSynch,
and the value and quality of each channel. -/
structure Asdu where
  svId : Bytes
  confRev : Nat
  dataLen : Nat
  smpRate : Option Nat
  smpCnt : Nat
  smpSynch : Nat
  data : List (Nat × Nat)
  deriving DecidableEq, Repr

/-- The IEC 62351-6 authentication extension of a received frame (R448): its algorithm (Table 18.3), Key ID, the IV of a GMAC,
the bytes that it covers and its tag. -/
structure AuthExt where
  alg : Nat
  keyId : Nat
  iv : Bytes
  covered : Bytes
  tag : Bytes
  deriving DecidableEq, Repr

/-- A decoded sampled-value frame as it reaches the Vat through EP (R200): the frame's bytes from its destination
address, destination, VID after classification, input port, APPID, whether check 2 of Table 8.1 holds, noASDU, the
simulation bit, the authentication extension, the ingress time in ns, the ASDUs. -/
structure SvFrame where
  raw : Bytes
  dst : Nat
  vid : Nat
  port : Nat
  appid : Nat
  sound : Bool
  noAsdu : Nat
  sim : Bool
  auth : Option AuthExt
  ingress : Nat
  asdus : List Asdu
  deriving DecidableEq, Repr

/-- A decoded GOOSE frame as it reaches a subscription through EP (R314): the frame's bytes, destination, VID after
classification, input port, APPID, whether check 2 of Table 12.6 holds, the fields of the goosePdu, the contents
octets of each element of allData, the simulation bit, the authentication extension, the claim trailer (claim,
PAIR_ID), the ingress time in ns. DEDUCED, assumption 115. -/
structure GooseFrame where
  raw : Bytes
  dst : Nat
  vid : Nat
  port : Nat
  appid : Nat
  sound : Bool
  gocbRef : Bytes
  datSet : Bytes
  confRev : Nat
  ndsCom : Bool
  numEnt : Nat
  allData : Bytes
  members : List Bytes
  ttlMs : Nat
  test : Bool
  stNum : Nat
  sqNum : Nat
  sim : Bool
  auth : Option AuthExt
  trailer : Option (Nat × Nat)
  ingress : Nat
  deriving DecidableEq, Repr

end Sys2Proof.Machine
end

