-- ==== Sys2Proof/Syntax.lean ====
section
/-!
DEFINITION. The commands of the module: one constructor per row of spec/opcode_table.json, in the table's order. The
operands carry what comes from outside the module: addresses and values a function writes, instants (total ns of the
primary clock), received frames, measured quantities, and what the environment answers.
-/

namespace Sys2Proof

open Sys2Proof.Machine in
/-- A command: an operation on the module or an event that reaches it. -/
inductive Instr where
  /-- REG_WRITE (R15). -/
  | regWrite (fn : Nat) (off : Nat) (v : Nat)
  /-- NARROW_WRITE (R18). -/
  | narrowWrite (fn : Nat)
  /-- RC_READ (R22). -/
  | rcRead (fn : Nat) (off : Nat)
  /-- LOW_WORD_READ (R19). -/
  | lowWordRead (fn : Nat) (off : Nat)
  /-- VIOLATION_WINDOW_EXPIRY (R342). -/
  | violationWindowExpiry (key : Nat)
  /-- POWER_ON (R85). -/
  | powerOn (rested : Bool)
  /-- RESET_EXIT (R78). -/
  | resetExit (sw : Nat) (bankMv : Nat) (slotMv : Nat) (auxMv : Nat)
  /-- POWER_FAIL (R79). -/
  | powerFail
  /-- FLUSH_DONE (R82). -/
  | flushDone (power : Bool)
  /-- HOLDUP_LOW (R81). -/
  | holdupLow (bankMv : Nat)
  /-- THERMAL_WARNING (R90). -/
  | thermalWarning (die : Int) (inlet : Int)
  /-- THERMAL_CRITICAL (R90). -/
  | thermalCritical (die : Int) (inlet : Int)
  /-- THERMAL_TRIP (R90). -/
  | thermalTrip (die : Int) (inlet : Int)
  /-- CLOCK_CHECK (R84). -/
  | clockCheck (osc : Bool) (lock : Bool)
  /-- SYS_RESET (R87). -/
  | sysReset (v : Nat)
  /-- MODULE_RESET (R85). -/
  | moduleReset (causes : Nat)
  /-- PCIE_RESET (R86). -/
  | pcieReset
  /-- PF_FUNCTION_LEVEL_RESET (R340). -/
  | pfFunctionLevelReset
  /-- VF_FUNCTION_LEVEL_RESET (R340). -/
  | vfFunctionLevelReset (fn : Nat)
  /-- STEWARD_WATCHDOG_EXPIRY (R88). -/
  | stewardWatchdogExpiry
  /-- SEAL_REREAD (R431). -/
  | sealReread (sw : Nat)
  /-- LOAD_COMPLETE (R118). -/
  | loadComplete
  /-- READINESS_SET (R113). -/
  | readinessSet (bit : Nat)
  /-- TIME_WAIT_END (R114). -/
  | timeWaitEnd
  /-- RIPEN_TIMEOUT (R116). -/
  | ripenTimeout
  /-- ENTER_TEST (R120). -/
  | enterTest
  /-- LEAVE_TEST (R120). -/
  | leaveTest
  /-- STAGE_GO (R123). -/
  | stageGo (target : Nat) (inst : Nat)
  /-- STAGE_DONE (R123). -/
  | stageDone (image : Option Bytes) (ok : Bool) (left : Bytes)
  /-- LINK_UP (R127). -/
  | linkUp (p : Nat)
  /-- LINK_DOWN (R127). -/
  | linkDown (p : Nat)
  /-- CAGE_SIGNAL_CHANGE (R128). -/
  | cageSignalChange (p : Nat) (absent : Bool) (fault : Bool) (los : Bool) (copper : Bool) (rates : Nat)
  /-- SFP_DIAG_READ (R128). -/
  | sfpDiagRead (p : Nat) (temp : Nat) (rxPwr : Nat) (alarm : Bool)
  /-- MAC_CTRL_WRITE (R127). -/
  | macCtrlWrite (p : Nat) (v : Nat)
  /-- FRAME_RECEIVE (R129). -/
  | frameReceive (p : Nat) (f : RxFrame) (t : Nat)
  /-- DUPLICATE_ENTRY_EXPIRY (R142). -/
  | duplicateEntryExpiry (p : Nat)
  /-- SUPERVISION_SEND (R142). -/
  | supervisionSend (p : Nat)
  /-- PAUSE_FRAME (R134). -/
  | pauseFrame (p : Nat) (pfc : Bool) (enable : Nat) (times : List Nat) (t : Nat)
  /-- PAUSE_EXPIRY (R134). -/
  | pauseExpiry (p : Nat) (q : Nat)
  /-- FRAME_START (R160). -/
  | frameStart (p : Nat)
  /-- HOLD_END (R137). -/
  | holdEnd (p : Nat)
  /-- TSQ_POP (R140). -/
  | tsqPop (p : Nat)
  /-- EAPOL_FRAME (R145). -/
  | eapolFrame (p : Nat) (an : Option Nat) (server : Bool) (t : Nat)
  /-- LEARN_AGE_OUT (R153). -/
  | learnAgeOut (mac : Nat) (vid : Nat)
  /-- FLUSH_LEARNED (R153). -/
  | flushLearned
  /-- TBL_READ (R155). -/
  | tblRead (table : Nat) (index : Nat)
  /-- TBL_WRITE (R155). -/
  | tblWrite (table : Nat) (index : Nat)
  /-- TBL_DELETE (R155). -/
  | tblDelete
  /-- MIN_CELLS_WRITE (R165). -/
  | minCellsWrite (p : Nat) (q : Nat) (cells : Nat)
  /-- NOW_READ (R171). -/
  | nowRead (fn : Nat)
  /-- VC_NOW_READ (R177). -/
  | vcNowRead (fn : Nat) (v : Nat)
  /-- VC_RATE_WRITE (R177). -/
  | vcRateWrite (v : Nat) (rate : Nat)
  /-- VC_OFF_WRITE (R177). -/
  | vcOffWrite (fn : Nat) (v : Nat) (hi : Nat)
  /-- PTP_MESSAGE (R181). -/
  | ptpMessage (x : PtpMsg) (t : Nat)
  /-- SYNC_SEND (R179). -/
  | syncSend (p : Nat)
  /-- SERVO_OFFSET (R187). -/
  | servoOffset
  /-- SOURCE_LOST (R186). -/
  | sourceLost (src : Nat)
  /-- HAULATO_EDGE (R183). -/
  | haulatoEdge (t : Nat)
  /-- HAULATO_TIME_FRAME (R183). -/
  | haulatoTimeFrame (b : Bytes) (t : Nat)
  /-- HAULATO_ORIGIN_EDGE (R183). -/
  | haulatoOriginEdge
  /-- ECHO_REQUEST (R184). -/
  | echoRequest (token : Nat)
  /-- ECHO_ANSWER (R184). -/
  | echoAnswer (b : Bytes) (t : Nat)
  /-- ECHO_REQUEST_RECEIVE (R184). -/
  | echoRequestReceive (b : Bytes) (t : Nat)
  /-- ECHO_TIMEOUT (R184). -/
  | echoTimeout
  /-- IRIGB_FRAME (R185). -/
  | irigbFrame (utcSec : Option Nat) (t : Nat)
  /-- SV_FRAME (R200). -/
  | svFrame (x : SvFrame) (t : Nat)
  /-- INSTANT_OPEN (R208). -/
  | instantOpen (v : Nat)
  /-- WINDOW_END (R209). -/
  | windowEnd (v : Nat)
  /-- CURD_FRAME_CLOSE (R208). -/
  | curdFrameClose (v : Nat)
  /-- CHAIN_OUTPUT (R228). -/
  | chainOutput (c : Nat)
  /-- CURD_FRAME_VISIBLE (R25). -/
  | curdFrameVisible (v : Nat) (drained : List (Nat × Nat)) (err : ReadErr) (poison : List Nat)
  /-- DELTA_UPDATE (R204). -/
  | deltaUpdate
  /-- SIGMA_UPDATE (R225). -/
  | sigmaUpdate
  /-- WINDOW_WRITE (R209). -/
  | windowWrite (v : Nat) (w : Nat)
  /-- CHAIN_SWITCH (R232). -/
  | chainSwitch (fn : Nat) (c : Nat) (stage : Nat) (set : Nat) (k : Nat)
  /-- CHAIN_RESET (R230). -/
  | chainReset (fn : Nat) (c : Nat)
  /-- FADE_START (R233). -/
  | fadeStart
  /-- CMEM_WRITE (R235). -/
  | cmemWrite (fn : Nat) (v : Nat)
  /-- SET_WRITE (R235). -/
  | setWrite (fn : Nat) (set : Nat) (v : Nat)
  /-- OPERAND_ARRIVAL (R291). -/
  | operandArrival
  /-- TICK (R290). -/
  | tick (task : Nat) (slot : Nat)
  /-- DISPATCH (R295). -/
  | dispatch
  /-- CAPTURE_DONE (R249). -/
  | captureDone (e : Nat) (c : Nat) (dram : ReadErr) (curd : ReadErr) (poison : List (Nat × Nat))
  /-- BUDGET_OVERRUN (R303). -/
  | budgetOverrun (e : Nat) (c : Nat)
  /-- DEADLINE_EXPIRY (R303). -/
  | deadlineExpiry (task : Nat) (ct : Nat)
  /-- PROGRESS_MARK (R298). -/
  | progressMark (e : Nat) (c : Nat)
  /-- TASK_ENABLE (R306). -/
  | taskEnable (task : Nat)
  /-- TASK_DISABLE (R306). -/
  | taskDisable (task : Nat)
  /-- TASK_CANCEL (R306). -/
  | taskCancel (task : Nat)
  /-- SLOW_CLR (R298). -/
  | slowClr (mask : Nat)
  /-- TRACE_POP (R315). -/
  | tracePop
  /-- OLC_WINDOW_WRITE (R308). -/
  | olcWindowWrite (w : Nat) (x : Nat) (v : Nat)
  /-- FORCE_ENABLE (R310). -/
  | forceEnable (f : Nat) (v : Nat)
  /-- FORCE_DISABLE (R310). -/
  | forceDisable (f : Nat) (v : Nat)
  /-- GOOSE_FRAME (R314). -/
  | gooseFrame (x : GooseFrame) (t : Nat)
  /-- GOOSE_TAL_EXPIRY (R314). -/
  | gooseTalExpiry (j : Nat)
  /-- GOOSE_REPEAT (R312). -/
  | gooseRepeat (p : Nat)
  /-- HAND_OFF (R41). -/
  | handOff (e : Nat) (c : Nat)
  /-- ADMISSION (R42). -/
  | admission (errs : List (Nat × ReadErr))
  /-- VISIBILITY_POINT (R43). -/
  | visibilityPoint (err : ReadErr)
  /-- GROUP_WINDOW_END (R52). -/
  | groupWindowEnd (g : Nat)
  /-- TXN_BEGIN (R56). -/
  | txnBegin (n : Nat)
  /-- TXN_DATA_WRITE (R56). -/
  | txnDataWrite (n : Nat) (v : Nat)
  /-- TXN_COMMIT (R58). -/
  | txnCommit (n : Nat)
  /-- TXN_COMMIT_AT (R60). -/
  | txnCommitAt (n : Nat)
  /-- TXN_AT_REACHED (R60). -/
  | txnAtReached (n : Nat)
  /-- TXN_ABORT (R63). -/
  | txnAbort (n : Nat)
  /-- TXN_TIMEOUT (R62). -/
  | txnTimeout (n : Nat)
  /-- SNAPSHOT_GO (R64). -/
  | snapshotGo (fn : Nat)
  /-- SNAPSHOT_SERVE (R65). -/
  | snapshotServe (desc : Option Bytes)
  /-- SELF_TEST_END (R261). -/
  | selfTestEnd (e : Nat) (pass : Bool)
  /-- LOCKSTEP_MISMATCH (R259). -/
  | lockstepMismatch (e : Nat)
  /-- MISMATCH_AGE_OUT (R262). -/
  | mismatchAgeOut (e : Nat)
  /-- FENCE (R262). -/
  | fence (e : Nat)
  /-- UNFENCE (R262). -/
  | unfence (e : Nat)
  /-- RETEST (R262). -/
  | retest (e : Nat)
  /-- DRAIN_DONE (R262). -/
  | drainDone (e : Nat)
  /-- ADD (R270). -/
  | add (e : Nat) (c : Nat) (w : Kw)
  /-- SUB (R270). -/
  | sub (e : Nat) (c : Nat) (w : Kw)
  /-- MUL (R270). -/
  | mul (e : Nat) (c : Nat) (w : Kw)
  /-- MULH (R270). -/
  | mulh (e : Nat) (c : Nat) (w : Kw)
  /-- DIV (R270). -/
  | div (e : Nat) (c : Nat) (w : Kw)
  /-- REM (R270). -/
  | rem (e : Nat) (c : Nat) (w : Kw)
  /-- AND (R270). -/
  | and (e : Nat) (c : Nat) (w : Kw)
  /-- OR (R270). -/
  | or (e : Nat) (c : Nat) (w : Kw)
  /-- XOR (R270). -/
  | xor (e : Nat) (c : Nat) (w : Kw)
  /-- SHL (R270). -/
  | shl (e : Nat) (c : Nat) (w : Kw)
  /-- SHR (R270). -/
  | shr (e : Nat) (c : Nat) (w : Kw)
  /-- SAR (R270). -/
  | sar (e : Nat) (c : Nat) (w : Kw)
  /-- MIN (R270). -/
  | min (e : Nat) (c : Nat) (w : Kw)
  /-- MAX (R270). -/
  | max (e : Nat) (c : Nat) (w : Kw)
  /-- ADDS (R270). -/
  | adds (e : Nat) (c : Nat) (w : Kw)
  /-- ADDI (R270). -/
  | addi (e : Nat) (c : Nat) (w : Kw)
  /-- ANDI (R270). -/
  | andi (e : Nat) (c : Nat) (w : Kw)
  /-- ORI (R270). -/
  | ori (e : Nat) (c : Nat) (w : Kw)
  /-- XORI (R270). -/
  | xori (e : Nat) (c : Nat) (w : Kw)
  /-- SHLI (R270). -/
  | shli (e : Nat) (c : Nat) (w : Kw)
  /-- SHRI (R270). -/
  | shri (e : Nat) (c : Nat) (w : Kw)
  /-- SARI (R270). -/
  | sari (e : Nat) (c : Nat) (w : Kw)
  /-- MOVI (R270). -/
  | movi (e : Nat) (c : Nat) (w : Kw)
  /-- MOVH (R270). -/
  | movh (e : Nat) (c : Nat) (w : Kw)
  /-- CMP (R270). -/
  | cmp (e : Nat) (c : Nat) (w : Kw)
  /-- CMPI (R270). -/
  | cmpi (e : Nat) (c : Nat) (w : Kw)
  /-- PLOG (R270). -/
  | plog (e : Nat) (c : Nat) (w : Kw)
  /-- PGET (R270). -/
  | pget (e : Nat) (c : Nat) (w : Kw)
  /-- PSET (R270). -/
  | pset (e : Nat) (c : Nat) (w : Kw)
  /-- FADD (R271). -/
  | fadd (e : Nat) (c : Nat) (w : Kw)
  /-- FSUB (R271). -/
  | fsub (e : Nat) (c : Nat) (w : Kw)
  /-- FMUL (R271). -/
  | fmul (e : Nat) (c : Nat) (w : Kw)
  /-- FMA (R271). -/
  | fma (e : Nat) (c : Nat) (w : Kw)
  /-- FDIV (R271). -/
  | fdiv (e : Nat) (c : Nat) (w : Kw)
  /-- FSQRT (R271). -/
  | fsqrt (e : Nat) (c : Nat) (w : Kw)
  /-- FMIN (R271). -/
  | fmin (e : Nat) (c : Nat) (w : Kw)
  /-- FMAX (R271). -/
  | fmax (e : Nat) (c : Nat) (w : Kw)
  /-- FSGN (R271). -/
  | fsgn (e : Nat) (c : Nat) (w : Kw)
  /-- FCMP (R271). -/
  | fcmp (e : Nat) (c : Nat) (w : Kw)
  /-- ITOF (R271). -/
  | itof (e : Nat) (c : Nat) (w : Kw)
  /-- FTOI (R271). -/
  | ftoi (e : Nat) (c : Nat) (w : Kw)
  /-- VADD (R272). -/
  | vadd (e : Nat) (c : Nat) (w : Kw)
  /-- VSUB (R272). -/
  | vsub (e : Nat) (c : Nat) (w : Kw)
  /-- VMUL (R272). -/
  | vmul (e : Nat) (c : Nat) (w : Kw)
  /-- VFMA (R272). -/
  | vfma (e : Nat) (c : Nat) (w : Kw)
  /-- VMIN (R272). -/
  | vmin (e : Nat) (c : Nat) (w : Kw)
  /-- VMAX (R272). -/
  | vmax (e : Nat) (c : Nat) (w : Kw)
  /-- VBC (R272). -/
  | vbc (e : Nat) (c : Nat) (w : Kw)
  /-- VEXT (R272). -/
  | vext (e : Nat) (c : Nat) (w : Kw)
  /-- VINS (R272). -/
  | vins (e : Nat) (c : Nat) (w : Kw)
  /-- VSUM (R272). -/
  | vsum (e : Nat) (c : Nat) (w : Kw)
  /-- VDOT (R272). -/
  | vdot (e : Nat) (c : Nat) (w : Kw)
  /-- VSCL (R272). -/
  | vscl (e : Nat) (c : Nat) (w : Kw)
  /-- CMUL (R273). -/
  | cmul (e : Nat) (c : Nat) (w : Kw)
  /-- CMAC (R273). -/
  | cmac (e : Nat) (c : Nat) (w : Kw)
  /-- CMULC (R273). -/
  | cmulc (e : Nat) (c : Nat) (w : Kw)
  /-- CMAG2 (R273). -/
  | cmag2 (e : Nat) (c : Nat) (w : Kw)
  /-- CEXP (R273). -/
  | cexp (e : Nat) (c : Nat) (w : Kw)
  /-- CPOL (R273). -/
  | cpol (e : Nat) (c : Nat) (w : Kw)
  /-- CSEQ (R273). -/
  | cseq (e : Nat) (c : Nat) (w : Kw)
  /-- LD (R274). -/
  | ld (e : Nat) (c : Nat) (w : Kw) (err : ReadErr)
  /-- ST (R274). -/
  | st (e : Nat) (c : Nat) (w : Kw)
  /-- VLD (R274). -/
  | vld (e : Nat) (c : Nat) (w : Kw) (err : ReadErr)
  /-- VST (R274). -/
  | vst (e : Nat) (c : Nat) (w : Kw)
  /-- SETB (R275). -/
  | setb (e : Nat) (c : Nat) (w : Kw)
  /-- RDSR (R275). -/
  | rdsr (e : Nat) (c : Nat) (w : Kw)
  /-- WRSR (R275). -/
  | wrsr (e : Nat) (c : Nat) (w : Kw)
  /-- RDCLK (R276). -/
  | rdclk (e : Nat) (c : Nat) (w : Kw)
  /-- CRDV (R276). -/
  | crdv (e : Nat) (c : Nat) (w : Kw)
  /-- CRDQ (R276). -/
  | crdq (e : Nat) (c : Nat) (w : Kw)
  /-- CRDH (R276). -/
  | crdh (e : Nat) (c : Nat) (w : Kw)
  /-- GLOBAL_READ_ANSWER (R276). -/
  | globalReadAnswer (e : Nat) (c : Nat) (err : ReadErr)
  /-- TON (R278). -/
  | ton (e : Nat) (c : Nat) (w : Kw) (err : ReadErr)
  /-- TOF (R278). -/
  | tof (e : Nat) (c : Nat) (w : Kw) (err : ReadErr)
  /-- TP (R278). -/
  | tp (e : Nat) (c : Nat) (w : Kw) (err : ReadErr)
  /-- EDGE (R281). -/
  | edge (e : Nat) (c : Nat) (w : Kw) (err : ReadErr)
  /-- BR (R282). -/
  | br (e : Nat) (c : Nat) (w : Kw)
  /-- BRR (R282). -/
  | brr (e : Nat) (c : Nat) (w : Kw)
  /-- CALL (R283). -/
  | call (e : Nat) (c : Nat) (w : Kw)
  /-- CALLR (R283). -/
  | callr (e : Nat) (c : Nat) (w : Kw)
  /-- RET (R255). -/
  | ret (e : Nat) (c : Nat) (w : Kw)
  /-- TRAP (R282). -/
  | trap (e : Nat) (c : Nat) (w : Kw)
  /-- NOP (R282). -/
  | nop (e : Nat) (c : Nat) (w : Kw)
  /-- PUBV (R284). -/
  | pubv (e : Nat) (c : Nat) (w : Kw)
  /-- FRM (R284). -/
  | frm (e : Nat) (c : Nat) (w : Kw)
  /-- FRMR (R284). -/
  | frmr (e : Nat) (c : Nat) (w : Kw) (err : ReadErr)
  /-- EVM (R284). -/
  | evm (e : Nat) (c : Nat) (w : Kw)
  /-- RECM (R284). -/
  | recm (e : Nat) (c : Nat) (w : Kw)
  /-- COMMIT (R285). -/
  | commit (e : Nat) (c : Nat) (w : Kw)
  /-- DROP (R285). -/
  | drop (e : Nat) (c : Nat) (w : Kw)
  /-- CRCI (R286). -/
  | crci (e : Nat) (c : Nat) (w : Kw)
  /-- CRCF (R286). -/
  | crcf (e : Nat) (c : Nat) (w : Kw)
  /-- CRCB (R286). -/
  | crcb (e : Nat) (c : Nat) (w : Kw) (err : ReadErr)
  /-- CRCT (R286). -/
  | crct (e : Nat) (c : Nat) (w : Kw)
  /-- CRCX (R286). -/
  | crcx (e : Nat) (c : Nat) (w : Kw)
  /-- TRC (R287). -/
  | trc (e : Nat) (c : Nat) (w : Kw)
  /-- DB_COMMAND_TAIL (R324). -/
  | dbCommandTail (fn : Nat) (i : Nat) (idx : Nat)
  /-- DB_COMPLETION_HEAD (R324). -/
  | dbCompletionHead (fn : Nat) (i : Nat) (idx : Nat)
  /-- DB_RECEIVE_TAIL (R324). -/
  | dbReceiveTail (fn : Nat) (i : Nat) (idx : Nat)
  /-- DB_EXPORT_CONSUMER (R324). -/
  | dbExportConsumer (fn : Nat) (i : Nat) (v : Nat) (idx : Nat)
  /-- CMD_NOP (R326). -/
  | cmdNop (i : Nat)
  /-- CMD_SEND (R326). -/
  | cmdSend (i : Nat)
  /-- CMD_TIME (R326). -/
  | cmdTime (i : Nat)
  /-- RECEIVE_DELIVERY (R327). -/
  | receiveDelivery (i : Nat)
  /-- EXPORT_FRAME_WRITE (R328). -/
  | exportFrameWrite (i : Nat) (v : Nat) (err : ReadErr) (poison : List Nat)
  /-- COMPLETION_INTERRUPT (R327). -/
  | completionInterrupt (i : Nat)
  /-- QCFG_WRITE (R325). -/
  | qcfgWrite (fn : Nat) (w : Nat) (v : Nat)
  /-- SHARE_WRITE (R333). -/
  | shareWrite (i : Nat) (part : Nat) (v : Nat)
  /-- XLT_WRITE (R335). -/
  | xltWrite
  /-- INVAL_ALL (R335). -/
  | invalAll
  /-- XLT_DRAIN_DONE (R335). -/
  | xltDrainDone
  /-- INSTANCE_RESET (R337). -/
  | instanceReset (i : Nat)
  /-- ASSIGN (R322). -/
  | assign (i : Nat) (owner : Nat)
  /-- REMOVE (R322). -/
  | remove (i : Nat)
  /-- UNISOLATE (R342). -/
  | unisolate (i : Nat)
  /-- ICMD_RESET (R337). -/
  | icmdReset (fn : Nat) (i : Nat)
  /-- HOST_READ_COMPLETION (R338). -/
  | hostReadCompletion (k : Nat) (data : Bytes)
  /-- HOST_ACCESS_TIMEOUT (R338). -/
  | hostAccessTimeout (k : Nat)
  /-- DRAINED (R338). -/
  | drained (i : Nat)
  /-- ARM (R350). -/
  | arm (k : Nat)
  /-- DISARM (R351). -/
  | disarm (k : Nat)
  /-- TRIGGER (R354). -/
  | trigger (k : Nat)
  /-- RELEASE (R355). -/
  | release (k : Nat) (e : Nat)
  /-- HAULATO_MESSAGE (R365). -/
  | haulatoMessage (onIn : Bool) (b : Bytes) (t : Nat)
  /-- HAULATO_SEND (R364). -/
  | haulatoSend (toIn : Bool) (collides : Bool) (t : Nat)
  /-- RECORD_READ (R368). -/
  | recordRead (session : Nat) (entry : Nat) (region : Nat) (inst : Nat)
  /-- READ_DONE (R368). -/
  | readDone (err : ReadErr) (poison : List (Nat × Nat))
  /-- RECORD_WRITE (R379). -/
  | recordWrite
  /-- FREEZE (R380). -/
  | freeze
  /-- THAW (R380). -/
  | thaw
  /-- EVR_FLUSH (R378). -/
  | evrFlush
  /-- AUTOMATIC_THAW (R380). -/
  | automaticThaw
  /-- BUFFER_MOVE (R378). -/
  | bufferMove
  /-- CAVE_DATA_READ (R388). -/
  | caveDataRead
  /-- HEARTBEAT_SEND (R395). -/
  | heartbeatSend (path : Nat)
  /-- HEARTBEAT (R397). -/
  | heartbeat (path : Nat) (b : Bytes) (t : Nat)
  /-- PEER_LOST (R398). -/
  | peerLost
  /-- ROLE_DECISION (R399). -/
  | roleDecision
  /-- PEER_WAIT_END (R399). -/
  | peerWaitEnd
  /-- HEALTH_WINDOW_END (R400). -/
  | healthWindowEnd (cause : Nat)
  /-- HEALTH_UPDATE (R404). -/
  | healthUpdate
  /-- DIGEST_SEND (R406). -/
  | digestSend
  /-- DIGEST_MESSAGE (R407). -/
  | digestMessage (l : List DigEntry)
  /-- DIGEST_UNMATCHED (R407). -/
  | digestUnmatched
  /-- XFER_START (R408). -/
  | xferStart
  /-- REQUEST_MESSAGE (R408). -/
  | requestMessage (i : Nat)
  /-- STATE_MESSAGE (R408). -/
  | stateMessage (i : Nat) (tJoin : Nat) (part : Option XPart)
  /-- RECORD_MESSAGE (R408). -/
  | recordMessage (i : Nat) (r : CRec)
  /-- MARKER_MESSAGE (R408). -/
  | markerMessage (i : Nat) (ct : Nat) (task : Nat)
  /-- XFER_TIMEOUT (R408). -/
  | xferTimeout (i : Nat)
  /-- RED_SWITCH (R410). -/
  | redSwitch
  /-- RESYNC (R409). -/
  | resync
  /-- LST_REFRESH (R417). -/
  | lstRefresh (c : Nat)
  /-- LST_FRAME (R421). -/
  | lstFrame (b : Bytes) (p : Nat) (ingress : Nat) (t : Nat)
  /-- LST_WATCHDOG (R424). -/
  | lstWatchdog (c : Nat)
  /-- CONN_ENABLE (R425). -/
  | connEnable (c : Nat)
  /-- CONN_DISABLE (R425). -/
  | connDisable (c : Nat)
  /-- ACK (R425). -/
  | ack (c : Nat)
  /-- DERIVE (R440). -/
  | derive (slot : Nat) (inst : Nat) (block : Option Bytes)
  /-- IMPORT (R446). -/
  | importKey (slot : Nat) (inst : Nat) (block : Option Bytes)
  /-- CLEAR (R459). -/
  | clear (slot : Nat) (inst : Nat) (block : Option Bytes)
  /-- KEY_SWITCH (R449). -/
  | keySwitch (slot : Nat) (inst : Nat) (block : Option Bytes)
  /-- SEND_HALF_SWITCH (R449). -/
  | sendHalfSwitch (slot : Nat)
  /-- ATTEST (R452). -/
  | attest (slot : Nat) (dev : Bool) (inst : Nat) (block : Option Bytes)
  /-- PROGRAM (R457). -/
  | program (inst : Nat) (block : Option Bytes)
  /-- REVOKE (R457). -/
  | revoke (inst : Nat) (block : Option Bytes)
  /-- KEY_COMMAND_DONE (R460). -/
  | keyCommandDone (t : Nat)
  /-- RNG_FAIL (R437). -/
  | rngFail
  /-- START (R468). -/
  | start (fn : Nat) (u : Nat)
  /-- COMPARE (R467). -/
  | compare (fn : Nat) (u : Nat)
  /-- CRC_FEED (R466). -/
  | crcFeed (fn : Nat) (u : Nat) (n : Nat) (v : Nat)
  /-- CRC_TAG_HI_WRITE (R463). -/
  | crcTagHiWrite (fn : Nat) (u : Nat) (hi : Nat)
  /-- CRC_VALUE_HI_WRITE (R468). -/
  | crcValueHiWrite (fn : Nat) (u : Nat) (hi : Nat)
  /-- CRC_OWNER_WRITE (R464). -/
  | crcOwnerWrite (u : Nat) (v : Nat)
  /-- SCRUB_VISIT (R477). -/
  | scrubVisit (mem : Nat) (err : ReadErr) (slot : Nat) (a : Nat) (b : Nat)
  /-- SHADOW_REPAIR (R481). -/
  | shadowRepair (kind : Nat) (i : Nat) (word : Nat)
  /-- ERROR_INTERRUPT (R484). -/
  | errorInterrupt
  /-- INJECTION_TAKEN (R486). -/
  | injectionTaken (addr : Nat)
  /-- DEBUG_READ (R490). -/
  | debugRead (addr : Nat) (err : ReadErr)
  /-- CUT_THROUGH_LOOKUP (R157). -/
  | cutThroughLookup (p : Nat) (head : Bytes) (t : Nat)
  /-- UNDEFINED_ENCODING (R268). -/
  | undefinedEncoding (e : Nat) (c : Nat) (word : BitVec 64)
  /-- PCIE_LINK_TRAINED (R320). -/
  | pcieLinkTrained (width : Nat) (rate : Nat) (mps : Nat) (vfs : Nat)
  /-- HOLDUP_EXHAUSTED (R80). -/
  | holdupExhausted
  /-- HOLDUP_RECHARGED (R81). -/
  | holdupRecharged (bankMv : Nat)
  /-- THERMAL_WARNING_CLEARED (R90). -/
  | thermalWarningCleared (die : Int) (inlet : Int)
  /-- HEARTBEAT_PATH_LOST (R409). -/
  | heartbeatPathLost (path : Nat)
  /-- OUT_LINK_EXPIRY (R184). -/
  | outLinkExpiry
  deriving DecidableEq, Repr

end Sys2Proof
end

