-- ==== Sys2Proof/Decode.lean ====
section
/-!
DEFINITION. The commands that a word spells: none, since the command table gives no row any bits. The codewords of a Kiljo
instruction are the operands of the Kiljo rows (`kFields` reads an instruction word, Table 11.1).
-/

namespace Sys2Proof

/-- The command that a word of the table's bits spells; the table gives no row bits. DESIGN CHOICE, assumption 1. -/
def decodeTableWord (_nbits _w : Nat) : Option Instr := none

end Sys2Proof
end

