-- ==== Sys2Proof/Config.lean ====
section
/-!
DEFINITION. What the spec leaves open: each constant here has no body, so a claim holds whatever it is.
-/

namespace Sys2Proof

/-- Whether a fused multiply-add of 0 × ∞ and a quiet NaN sets invalid (IEEE 754-2019 leaves it to the
implementation; R244). DESIGN CHOICE, assumption 14. -/
opaque Config.fmaQuietInvalid : Bool

/-- The angle that CPOL yields where a component is infinite: R273 states none. DESIGN CHOICE, assumption 15. -/
opaque Config.cpolInfAngle : Word → Word → Word

/-- What a LOC byte that the cycle has not written reads as where LOC starts undefined (R246): one choice per
dispatch and address. DESIGN CHOICE, assumption 16. -/
opaque Config.freeLoc : Nat → Nat → Byte

/-- SOURCE, CODE and DLEN of the recorder's own LOST, START and FORMAT records in native layout, by TYPE: Table 15.1
gives none. DESIGN CHOICE, assumption 17. -/
opaque Config.recorderOwn : Nat → Nat × Nat × Nat

/-- A word that the spec leaves open (its use names it), a fresh one for each index. DESIGN CHOICE, assumptions 3, 18 and 19. -/
opaque Config.freeWord : Nat → Word

/-- The issue load of an engine at an elapsed time (BEN_ENG_UTIL): the model has no engine cycles. DESIGN CHOICE, assumption 20. -/
opaque Config.issueLoad : Nat → Nat → Word

/-- SYS_ID.GRADE, fixed at manufacture: whether the part is a ZT6432-CX. DESIGN CHOICE, assumption 21. -/
opaque Config.gradeCx : Bool

/-- The source MAC address of the frames that the module originates: the spec gives none. DESIGN CHOICE, assumption 22. -/
opaque Config.stationMac : Nat

/-- How far the loader has come in its report when a module-wide fault ends LOAD: 0 before any header check, else 1 more
than the cases found (R112 leaves the time of each case open). DESIGN CHOICE, assumption 23. -/
opaque Config.loadReached : Nat → Nat

end Sys2Proof
end

