-- ==== Sys2Proof/Machine/AcqState.lean ====
section
/-!
DEFINITION. The state of the acquisition engine (Acquisition, Triggers and Disturbance Recording).
-/

namespace Sys2Proof.Machine

/-- A channel entry (Table 14.9): KIND, BIT, SOURCE, BYTE, A, B. -/
structure AcqChan where
  kind : Nat
  bit : Nat
  source : Nat
  byte : Nat
  a : Word
  b : Word
  deriving DecidableEq, Repr

/-- A condition record (Table 14.9): TYPE, OP, CH, bytes 4 to 7, bytes 8 to 11, L or P, VALUE, MASK. -/
structure AcqCond where
  typ : Nat
  op : Nat
  ch : Nat
  th : Nat
  hyst : Nat
  lp : Nat
  value : Nat
  mask : Nat
  deriving DecidableEq, Repr

/-- What a condition remembers: whether it is armed, the column's values of the latest frames (newest first), the
binary value or field of the previous frame, the rows since the last mask violation. -/
structure CondSt where
  armed : Bool
  hist : List Word
  prev : Option Nat
  clear : Nat
  deriving DecidableEq, Repr

/-- A row of a ring: its number since ACQ readiness, the grid index and INSTANT (ns) of its curd frame, QSUM, its data,
whether its frame carries STEP or TIME_UNLOCKED, and whether it copied a poisoned channel (R476). -/
structure AcqRow where
  idx : Nat
  g : Nat
  instant : Nat
  qsum : Nat
  data : Bytes
  flagged : Bool
  gap : Bool
  deriving DecidableEq, Repr

/-- A trend row: its number, the INSTANT (ns) of its window's first frame, its bytes (Table 14.2's tag included). -/
structure TrendRow where
  idx : Nat
  instant : Nat
  bytes : Bytes
  deriving DecidableEq, Repr

/-- A binary64 accumulator: an integer times a power of two, or an infinity or NaN. -/
inductive F64 where
  | fin (m : Int) (e : Int)
  | inf (neg : Bool)
  | nan
  deriving DecidableEq, Repr

/-- A trend channel's running window: the sum, MIN and MAX, and the values taken. -/
structure TrendAcc where
  sum : F64
  lo : Word
  hi : Word
  n : Nat
  deriving DecidableEq, Repr

/-- A directory entry and its record (Table 14.4): FLAGS, the trigger row's grid index and instant (ns), BITMAP, SRC, the
trigger list (condition, TS32 of the row), the rate list (number of the first row, log2 of RD), ORIGIN, the span (ns),
the first row number it may hold, once closed the first that it may not, whether a mask STOP ends the session at its close, and whether a RELEASE waits for a read. -/
structure AcqRec where
  recno : Nat
  flags : Nat
  trigG : Nat
  trig : Nat
  bitmap : Nat
  src : Nat
  list : List (Nat × Nat)
  rates : List (Nat × Nat)
  origin : Nat
  start : Nat
  fin : Nat
  firstIdx : Nat
  endIdx : Option Nat
  stop : Bool
  releasing : Bool
  deriving DecidableEq, Repr

/-- The states of Table 14.3. -/
inductive SessState where
  | idle | armed | recording | halted
  deriving DecidableEq, Repr

def SessState.code : SessState → Nat
  | .idle => 0 | .armed => 1 | .recording => 2 | .halted => 3

/-- A trigger that maps to a row at or after the end of the open record's span, and so belongs to the next record:
condition, instant (ns), origin of a remote trigger. -/
structure LateTrig where
  cond : Nat
  t : Nat
  origin : Nat
  deriving DecidableEq, Repr

/-- An admitted session: its record (Table 14.9), its columns and conditions, and its running state. `armIdx` and
`armRow` are the number and grid index of the first row written since ARM; `lastG` is the grid index of the latest
frame seen; `open_` the directory entry of the open record; `disarm` a DISARM that waits for its close; `rdAt` the
elapsed time of the latest change of RD; `chg` the changes of RD on the open record; `buf` the write buffer's fill;
`tfrom`, `tcount`, `tq`, `tacc` the running trend window. -/
structure Session where
  flags : Nat
  vrate : Nat
  group : Nat
  inst : Nat
  gmaster : Bool
  trendK : Nat
  preNs : Nat
  postNs : Nat
  maxNs : Nat
  slots : Nat
  trendSlots : Nat
  chans : List AcqChan
  conds : List (AcqCond × CondSt)
  state : SessState
  armPending : Bool
  disarm : Bool
  haltCause : Nat
  rows : List AcqRow
  nextIdx : Nat
  armIdx : Nat
  armRow : Option Nat
  lastG : Nat
  recs : SMap AcqRec
  open_ : Option Nat
  late : List LateTrig
  recno : Nat
  rdLog : Nat
  rdAt : Nat
  chg : Nat
  buf : Nat
  trend : List TrendRow
  trendIdx : Nat
  tfrom : Nat
  tcount : Nat
  tq : Nat
  tacc : List TrendAcc
  deriving DecidableEq, Repr

/-- A Haulato trigger message that waits for a segment: its bytes as far as they are fixed (Table 14.7), the trigger
instant (origin; none for ARM and DISARM) or the arrival (relay), whether it is the origin's, its copy, the earliest
start, all in ns of the primary clock. -/
structure HaulMsg where
  bytes : Bytes
  own : Bool
  at_ : Option Nat
  copy : Nat
  notBefore : Nat
  deriving DecidableEq, Repr

/-- A record read in progress (R368). -/
structure AcqRead where
  session : Nat
  entry : Nat
  region : Nat
  inst : Nat
  gen : Nat
  addr : Nat
  off : Nat
  len : Nat
  deriving DecidableEq, Repr

/-- The acquisition engine: its sessions, mask points (LO, HI), the queues of pair B towards OUT and IN, the messages
seen within 10 ms (ORIGIN, SEQ, ns), the SEQ of the next message, the read in progress. -/
structure Acq where
  sessions : SMap Session
  masks : List (Word × Word)
  outQ : List HaulMsg
  inQ : List HaulMsg
  seen : List (Nat × Nat × Nat)
  seq : Nat
  read : Option AcqRead
  deriving DecidableEq, Repr

/-- DESIGN CHOICE, assumption 11. -/
def Acq.init : Acq := ⟨[], [], [], [], [], 0, none⟩

end Sys2Proof.Machine
end

