-- ==== Sys2Proof/Machine/CultureState.lean ====
section
/-!
DEFINITION. The objects of a culture image as the loader applies them: one structure per record of the sections of
Table 4.5, with the fields of that record's table, each after its clamping (R106).
-/

namespace Sys2Proof.Machine

/-- An operand slot of a task (Tables 12.1 and 12.9): KIND 0 unused, 1 curd, 2 GOOSE, 3 LST, 4 tick, 5 commit;
MODE 0 TRIGGER, 1 SYNC, 2 LATEST. -/
structure Operand where
  kind : Nat
  mode : Nat
  source : Nat
  p1 : Nat
  p2 : Nat
  deriving DecidableEq, Repr

/-- A task record (Table 12.9). `entry` is the entry point number. -/
structure TaskRec where
  inst : Nat
  entry : Nat
  level : Nat
  en : Bool
  pclass : Bool
  groupEn : Bool
  faultStop : Bool
  group : Nat
  maxOpen : Nat
  deadlineNs : Nat
  budgetNs : Nat
  engines : Nat
  inLen : Nat
  outLen : Nat
  winOff : Nat
  winLen : Nat
  ovrLimit : Nat
  retry : Nat
  locLen : Nat
  mapFirst : Nat
  mapCount : Nat
  safeOff : Nat
  ops : List Operand
  deriving DecidableEq, Repr

/-- An image map entry (Table 12.3). -/
structure MapEntry where
  kind : Nat
  source : Nat
  first : Nat
  len : Nat
  at_ : Nat
  deriving DecidableEq, Repr

/-- A variable record (Table 12.9). -/
structure VarRec where
  inst : Nat
  width : Nat
  safeQ : Nat
  safeValue : Nat
  deriving DecidableEq, Repr

/-- An online region or initial data record (Table 12.9). -/
structure RegionRec where
  inst : Nat
  off : Nat
  len : Nat
  dataOff : Nat
  deriving DecidableEq, Repr

/-- A GOOSE publication record (Table 12.10). -/
structure PubRec where
  dst : Nat
  vid : Nat
  appid : Nat
  cls : Nat
  en : Bool
  auth : Bool
  task : Nat
  dsOff : Nat
  dsLen : Nat
  keySlot : Nat
  confRev : Nat
  minMs : Nat
  maxMs : Nat
  numEnt : Nat
  gocbRef : Bytes
  datSet : Bytes
  goId : Bytes
  deriving DecidableEq, Repr

/-- A GOOSE subscription record (Table 12.10). -/
structure GSubRec where
  dst : Nat
  vid : Nat
  appid : Nat
  en : Bool
  auth : Bool
  simAccept : Bool
  trigAll : Bool
  subst : Bool
  lst : Bool
  dsLen : Nat
  keySlot : Nat
  confRev : Nat
  safeOff : Nat
  lstConn : Nat
  numEnt : Nat
  gocbRef : Bytes
  datSet : Bytes
  deriving DecidableEq, Repr

/-- A snapshot list item (R389): KIND 1 register, 2 variable. -/
structure SnapItem where
  kind : Nat
  ref : Nat
  deriving DecidableEq, Repr

/-- An event rule (R389). `list` is none for 0xFF. -/
structure EvRule where
  source : Nat
  record : Bool
  codeLo : Nat
  codeHi : Nat
  list : Option Nat
  deriving DecidableEq, Repr

end Sys2Proof.Machine
end

