-- ==== Sys2Proof/Machine/CoreState.lean ====
section
/-!
DEFINITION. The state of the Ladle, the Press, GOOSE publication and subscription, and the event recorder.
-/

namespace Sys2Proof.Machine

/-! ### The Ladle (Tasks, the Ladle and Cyclic Execution) -/

/-- An open cycle of the matching store (R291): its instant, the TRIGGER and SYNC operands that have arrived,
whether it is ready, and what a re-dispatch keeps (R304): the re-dispatches used, the engine that aborted it, PRESENT. -/
structure OpenCycle where
  ct : Nat
  bits : Nat
  ready : Bool
  retries : Nat
  avoid : Option Nat
  present : Option Nat
  deriving DecidableEq, Repr

/-- SCH_TASK_STAT.STATE. -/
inductive TState where
  | disabled | enabled | disabling | stopped
  deriving DecidableEq, Repr

def TState.code : TState → Nat
  | .disabled => 0 | .enabled => 1 | .disabling => 2 | .stopped => 3

/-- A task in the Ladle: its open cycles in ascending instant, the engine and context of its dispatched cycle, the
instant of a handed-off cycle whose epoch is not yet visible (R292), the instant of its latest dispatch, and the
LATEST operands that have arrived since. -/
structure TaskSt where
  state : TState
  enablePending : Bool
  opens : List OpenCycle
  running : Option (Nat × Nat)
  handed : Option Nat
  lastDispatched : Option Nat
  consecOvr : Nat
  latest : Nat
  deriving DecidableEq, Repr

/-- A task that nothing has happened to. -/
def TaskSt.init (en : Bool) : TaskSt :=
  ⟨if en then .enabled else .disabled, false, [], none, none, none, 0, 0⟩

/-- The Ladle: its tasks, the dispatch counter that orders contexts of equal level, the unread trace records
(Table 12.7, oldest first), the operand arrivals on their way to the matching store (task, slot, instant; in the
order of R294), the latest tick instant delivered per task, and the instances whose tasks wait for the epoch of
their reset (R337). -/
structure Ladle where
  tasks : SMap TaskSt
  order : Nat
  trace : List (List Word)
  arrivals : List (Nat × Nat × Nat)
  lastTick : SMap Nat
  holdInst : SMap Nat
  deriving DecidableEq, Repr

/-! ### GOOSE -/

/-- A publication's running state: the dataset contents, the UTC time and quality of its state, the elapsed time of
its next repetition, the interval, and the frame's fixed marks. -/
structure PubSt where
  data : Bytes
  utcNs : Nat
  quality : Nat
  nextAt : Nat
  intervalMs : Nat
  deriving DecidableEq, Repr

/-- A subscription's receive state: the status block's FLAGS, the dataset, the close of the time-allowed-to-live
window (primary clock ns), the latch of the simulation rule. -/
structure GSubSt where
  flags : Nat
  data : Bytes
  close : Nat
  deriving DecidableEq, Repr

/-! ### The Press (Press, Epochs and the Consistency Model) -/

/-- The forced value or shadow that a force epoch applies (R310). -/
structure ForceApply where
  entry : Nat
  rising : Bool
  deriving DecidableEq, Repr

/-- An apply step between admission and visibility: its number, its records, the transaction writes it carries, the
force changes, and the elapsed time at which its writes end (R43, R59). -/
structure Epoch where
  num : Nat
  recs : List CRec
  txn : Option (Nat × List (Nat × Nat))
  forces : List ForceApply
  ends : Nat
  deriving DecidableEq, Repr

/-- A configuration transaction (R56 to R63): the staged writes in order, the time of COMMIT_AT, the elapsed time of
its latest access, whether a direct write has met a staged one (R61), whether its epoch has been admitted. -/
structure Txn where
  staged : List (Nat × Nat)
  commitAt : Option Nat
  lastAccess : Nat
  conflict : Bool
  admitted : Bool
  deriving DecidableEq, Repr

/-- A commit group that collects a cycle (R51): its CYCLE_TS, the records that have arrived, the elapsed time of
the latest hand-off. `deadline` is the DEADLINE in force for the cycle. -/
structure GroupColl where
  ct : Nat
  recs : List CRec
  deadlineUs : Nat
  deriving DecidableEq, Repr

/-- A snapshot item (Table 2.5). -/
structure SnapReq where
  kind : Nat
  inst : Nat
  len : Nat
  addr : Nat
  deriving DecidableEq, Repr

/-- The Press: the latest visible epoch and its commit instant, the number of the latest epoch admitted, the records
handed off and waiting, the complete groups that wait, the epochs in apply (ascending), the groups, the open transactions, pending snapshot
requests (function, instance, descriptor and result address), the bytes that online changes wrote with their epoch
(R309), the elapsed time of the latest transaction epoch's admission (R59), and for each force entry on a variable the
quality word last written, for each force entry in force its target: KIND, owner, TARGET (R310, R311), and the epoch after
which the latest snapshot was served (R65). -/
structure Press where
  visible : Nat
  visibleTs : Nat
  admitted : Nat
  pending : List CRec
  complete : List (List CRec)
  applying : List Epoch
  groups : SMap GroupColl
  lastFailed : SMap Nat
  txns : SMap Txn
  snaps : List (Nat × Nat × Nat)
  olc : List (Nat × Nat × Nat)
  lastTxn : Option Nat
  forceQ : SMap Nat
  forces : SMap (Nat × Nat × Nat)
  snapAt : Option Nat
  deriving DecidableEq, Repr

/-! ### The event recorder (Event Recorder and the Cave) -/

/-- A record in the queue (Table 15.2): DATA as a little-endian number, the snapshot values, and whether the
snapshot list dropped or cut items (R377). -/
structure EvRec where
  typ : Nat
  seq : Nat
  time : Nat
  code : Nat
  source : Nat
  flags : Nat
  inst : Nat
  task : Nat
  dlen : Nat
  data : Nat
  vals : List Nat
  deriving DecidableEq, Repr

/-- The recorder: the queue (oldest first), the ZT2200 buffer, the Cave's bytes (unlisted bytes are 0), the fields of
the latest header copy, the freeze, the events lost since the last LOST record, whether FLUSH has
begun, and whether the log region is full (HEAD = TAIL with records in it). -/
structure Evr where
  queue : List EvRec
  buf : List Bytes
  cave : SMap Byte
  layout : Nat
  count : Nat
  nextSeq : Nat
  head : Nat
  tail : Nat
  wraps : Nat
  loadNext : Nat
  trip : Bool
  loads : Nat
  frozen : Bool
  freezeReq : Bool
  thawAt : Nat
  lost : Nat
  flushing : Bool
  full : Bool
  deriving DecidableEq, Repr

/-! ### The error tree (Memory, Error Correction and the Error Tree) -/

/-- A codeword that was corrected: memory, offset, elapsed time of the latest correction and of the latest event 4
(R482). -/
structure Corrected where
  mem : Nat
  addr : Nat
  at_ : Nat
  eventAt : Option Nat
  deriving DecidableEq, Repr

/-- The error tree: the latest 64 corrected codewords (oldest first), the corrected errors of each memory in the
current hour (hour, count, whether event 1 was raised), the elapsed time of the latest interrupt and whether one is due, the next codeword
of each scrubber and the elapsed time of its pass's start, the injections taken (memory, codeword, symbol, whether two), the
configuration shadow words marked bad, and the
configuration table entries (kind, index) that are damaged and not yet repaired (R481). -/
structure ErrSt where
  corrected : List Corrected
  hour : SMap (Nat × Nat × Bool)
  lastIrq : Option Nat
  irqDue : Bool
  scrub : SMap Nat
  passStart : SMap Nat
  injected : List (Nat × Nat × Nat × Bool)
  badShadow : List Nat
  absent : List (Nat × Nat)
  deriving DecidableEq, Repr

end Sys2Proof.Machine
end

