-- ==== Sys2Proof/Machine/HostState.lean ====
section
/-!
DEFINITION. The state of the host interface (Host Interface and Instances), of the key store, and of what survives a
module reset.
-/

namespace Sys2Proof.Machine

/-! ### Host interface -/

/-- A host queue or ring (INS_QCFG): its configuration, CAUSE, the module's head or producer and the host's tail or
consumer (free-running 16-bit counts); of a completion queue the latest interrupt (elapsed time) and whether one is
due; of an export ring the frames written and the grid indexes (with SEQ) that wait to be written. -/
structure HQueue where
  base : Nat
  en : Bool
  log2 : Nat
  vector : Nat
  modUs : Nat
  aux : Nat
  cause : Nat
  head : Nat
  tail : Nat
  lastIrq : Option Nat
  irqDue : Bool
  written : Nat
  pend : List Nat
  deriving DecidableEq, Repr

def HQueue.init : HQueue := ⟨0, false, 0, 0, 0, 0, 0, 0, 0, none, false, 0, []⟩

/-- A fetched command entry (Table 13.3). OPCODE 256 stands for an entry whose fetch met a translation fault (R336). -/
structure CmdEntry where
  opcode : Nat
  flags : Nat
  cid : Nat
  addr : Nat
  len : Nat
  reserved : Bool
  deriving DecidableEq, Repr

/-- What a host read in flight is for: a command entry, a receive descriptor (ring index), the frame of a SEND. -/
inductive ReadFor where
  | command
  | descriptor (i : Nat)
  | frame (c : CmdEntry)
  deriving DecidableEq, Repr

/-- A host read in flight: instance, generation, the pages it uses, whether an entry that it used has been replaced since
(R335), what it is for. -/
structure HRead where
  inst : Nat
  gen : Nat
  pages : List Nat
  old : Bool
  use_ : ReadFor
  deriving DecidableEq, Repr

/-- The host interface: queues by instance × 8 + queue code; fetched commands and receive buffers (ring index, address) by
instance; the reads in flight; translation entries by instance × 2^20 + page (unlisted 0); the times of charged
violations by instance, or 0x1000 + function; the pending reset of an instance (OP, OWNER); the max payload size. -/
structure HostSt where
  queues : SMap HQueue
  cmds : SMap (List CmdEntry)
  bufs : SMap (List (Nat × Nat))
  reads : List HRead
  xlt : SMap Nat
  viol : SMap (List Nat)
  pendOp : SMap (Nat × Nat)
  mps : Nat
  deriving DecidableEq, Repr

/-- DESIGN CHOICE, assumption 11. -/
def HostSt.init : HostSt := ⟨[], [], [], [], [], [], [], 256⟩

/-! ### Key store -/

/-- The states of Table 18.2. -/
inductive SlotState where
  | empty | ready | await | failed | busy
  deriving DecidableEq, Repr

def SlotState.code : SlotState → Nat
  | .empty => 0 | .ready => 1 | .await => 2 | .failed => 3 | .busy => 4

/-- A key slot: its state, attribute, where it is defined, SEND_HALF and a pending SWITCH (TS32, half), its material and
KEY_ID by half, ALG, depth, parent and label, the hash of its wrapped bytes where it was imported, and the TAI
seconds of each half's latest switch. -/
structure KeySlot where
  state : SlotState
  attr : Nat
  section_ : Bool
  import_ : Bool
  sendHalf : Nat
  pending : Option (Nat × Nat)
  keys : SMap Bytes
  keyIds : SMap Nat
  alg : Nat
  depth : Nat
  parent : Nat
  label : Bytes
  wrapped : Option Bytes
  switched : SMap Nat
  deriving DecidableEq, Repr

def KeySlot.init : KeySlot := ⟨.empty, 0, false, false, 0, none, [], [], 0, 0, 0xFFFF, [], none, []⟩

/-- A key command in progress (R458): OP, SLOT, SLOT_DEV, INST and its generation, the block as read (none where the
access failed), and the state of the slot before. -/
structure KeyCmd where
  op : Nat
  slot : Nat
  dev : Bool
  inst : Nat
  gen : Nat
  block : Option Bytes
  before : SlotState
  deriving DecidableEq, Repr

/-- A port record of the KEYS section. -/
structure PortKey where
  cak : Option Nat
  prio : Nat
  ckn : Bytes
  deriving DecidableEq, Repr

/-- The key store: slots, IMG_SLOT, port records, the command in progress, the second of each publication's latest
event 5. -/
structure Keys where
  slots : SMap KeySlot
  imgSlot : Option Nat
  ports : SMap PortKey
  cmd : Option KeyCmd
  withheld : SMap Nat
  deriving DecidableEq, Repr

/-- DESIGN CHOICE, assumption 11. -/
def Keys.init : Keys := ⟨[], none, [], none, []⟩

/-! ### What survives a module reset -/

/-- A bank of the root secret (R438): its root bits and SEALED. -/
structure RootBank where
  bits : Nat
  sealed_ : Bool
  deriving DecidableEq, Repr

/-- An owner slot of the OTP (R456). -/
structure OwnerSlot where
  hash : Bytes
  programmed : Bool
  revoked : Bool
  deriving DecidableEq, Repr

/-- The culture flash, the root banks and the owner slots (unlisted ones are blank). -/
structure Persist where
  flashA : Bytes
  flashB : Bytes
  banks : SMap RootBank
  owners : SMap OwnerSlot
  deriving DecidableEq, Repr

/-- Staging in progress (R123): the target copy, INST and its generation. -/
structure Staging where
  target : Nat
  inst : Nat
  gen : Nat
  deriving DecidableEq, Repr

/-- Power, clocks and start-up: the clock monitor's hold and its consecutive failed checks (R84), whether the present
FLUSH follows a thermal trip, whether its flush has ended, whether the regulators are off, whether they stay off after a trip (R90), the elapsed
time of the first word of SYS_RESET (R87), the standing thermal warning, the elapsed time of entry to RIPEN or to a
SAFE-HOLD from LOAD, whether the wait of R114 has ended, staging, TIME_WAIT_MS and RIPEN_TMO_MS, STATION, whether time stands
while a step of the primary clock ends its windows (R189; false between commands). -/
structure SysSt where
  held : Bool
  failedChecks : Nat
  trip : Bool
  flushed : Bool
  off : Bool
  latched : Bool
  resetWord : Option Nat
  warn : Bool
  upAt : Nat
  waitEnded : Bool
  staging : Option Staging
  timeWaitMs : Nat
  ripenTmoMs : Nat
  station : Bytes
  still : Bool
  deriving DecidableEq, Repr

/-- DESIGN CHOICE, assumption 11. -/
def SysSt.init : SysSt := ⟨false, 0, false, false, false, false, none, false, 0, false, none, 5000, 30000, [], false⟩

end Sys2Proof.Machine
end

