-- ==== Sys2Proof/Machine/RegMap.lean ====
section
/-!
DEFINITION. The register map: every register of the register chapters of spec/ (Address Map, R488) with its BAR0
address, its indexes and its fields (bits, access type of R15, reset value of R16), and one named constant per field.
The addresses of the VF windows (R489) are placed in a space of their own, `vfBase`, above BAR0.
-/

namespace Sys2Proof.Machine

/-- The access types of Table 0.4 (R15). `rws k` is RWS on Seal Bank switch k. -/
inductive Acc where
  | rw | ro | wo | w1c | w1s | rc
  | rws (sw : Nat)
  deriving DecidableEq, Repr

/-- One field of the register file: the address of its word, its bits, and the value it holds at module reset. -/
structure Fld where
  addr : Nat
  lsb : Nat
  width : Nat
  dflt : Nat
  deriving DecidableEq, Repr

/-- A field within a register description: bits, access, reset value, and whether its Reset column is "C". -/
structure FDesc where
  lsb : Nat
  width : Nat
  acc : Acc
  dflt : Nat
  culture : Bool
  deriving DecidableEq, Repr

/-- A register description: base address, the stride and count of each index, the fields. -/
structure RDesc where
  base : Nat
  dims : List (Nat × Nat)
  fields : List FDesc
  deriving DecidableEq, Repr

/-- Where the window of function f begins in the model's address space: `vfBase + f * 0x10000`. -/
def vfBase : Nat := 0x100000000

/-- Reset values that depend on the index (the descriptions of SWC_Q_CFG, MAC_AGE, MAC_HOLD, MAC_CTRL, CRC_OWNER);
every other field has the value its description gives. The key is the word's address and the field's lowest bit. -/
def indexedDefault (addr lsb d : Nat) : Nat :=
  if 0x401000 ≤ addr ∧ addr < 0x401c00 ∧ addr % 32 = 0 ∧ lsb = 0 then
    let p := (addr - 0x401000) / 256
    let q := (addr % 256) / 32
    if p = 11 then 512 else if q = 7 then 128 else 32
  else if 0x300000 ≤ addr ∧ addr < 0x3b0000 ∧ 0x20 ≤ addr % 0x10000 ∧ addr % 0x10000 < 0x40 then
    if (addr % 0x10000 - 0x20) / 4 < 4 then 0 else 1000
  else if addr = 0x3a0014 then 0
  else if addr = 0x3a0000 ∧ lsb = 1 then 3
  else if 0xf01010 ≤ addr ∧ addr < 0xf01020 then 0x100
  else d

namespace R

def SYS_ID_PART : Fld := ⟨0x0, 0, 16, 25650⟩
def SYS_ID_STEP : Fld := ⟨0x0, 16, 8, 16⟩
def SYS_ID_GRADE : Fld := ⟨0x0, 24, 1, 0⟩
def SYS_MODE_MODE : Fld := ⟨0x4, 0, 3, 0⟩
def SYS_MODE_TEST_FROM : Fld := ⟨0x4, 3, 3, 0⟩
def SYS_MODE_MINIMAL : Fld := ⟨0x4, 6, 1, 0⟩
def SYS_READY_READY : Fld := ⟨0x8, 0, 16, 0⟩
def SYS_RESET_CAUSE_POWER_ON_STK : Fld := ⟨0xc, 0, 1, 1⟩
def SYS_RESET_CAUSE_SW_STK : Fld := ⟨0xc, 1, 1, 0⟩
def SYS_RESET_CAUSE_PLL_STK : Fld := ⟨0xc, 2, 1, 0⟩
def SYS_RESET_CAUSE_THERMAL_STK : Fld := ⟨0xc, 3, 1, 0⟩
def SYS_RESET_CAUSE_FLUSH_STK : Fld := ⟨0xc, 4, 1, 0⟩
def SYS_RESET_CAUSE_STEWARD_STK : Fld := ⟨0xc, 5, 1, 0⟩
def SYS_RESET_KEY : Fld := ⟨0x10, 0, 32, 0⟩
def SYS_PWR_IN_SLOT_MV : Fld := ⟨0x14, 0, 16, 0⟩
def SYS_PWR_IN_AUX_MV : Fld := ⟨0x14, 16, 16, 0⟩
def SYS_HOLDUP_BANK_MV : Fld := ⟨0x18, 0, 16, 0⟩
def SYS_HOLDUP_OK : Fld := ⟨0x18, 16, 1, 0⟩
def SYS_HOLDUP_LOW_STK : Fld := ⟨0x18, 17, 1, 0⟩
def SYS_TEMP_DIE_MAX : Fld := ⟨0x1c, 0, 8, 0⟩
def SYS_TEMP_INLET : Fld := ⟨0x1c, 8, 8, 0⟩
def SYS_TEMP_WARN_STK : Fld := ⟨0x1c, 16, 1, 0⟩
def SYS_TEMP_CRIT_STK : Fld := ⟨0x1c, 17, 1, 0⟩
def SYS_SEAL_AT_RESET : Fld := ⟨0x24, 0, 8, 0⟩
def SYS_SEAL_NOW : Fld := ⟨0x24, 8, 8, 0⟩
def SYS_SEAL_CHANGE_STK : Fld := ⟨0x24, 16, 1, 0⟩
def SYS_CLK_STAT_PLL_LOCK : Fld := ⟨0x28, 0, 1, 0⟩
def SYS_CLK_STAT_OSC_OK : Fld := ⟨0x28, 1, 1, 0⟩
def SYS_CLK_STAT_REFCLK_OK : Fld := ⟨0x28, 2, 1, 0⟩
def SYS_CLK_STAT_GLITCH_STK : Fld := ⟨0x28, 3, 1, 0⟩
def SYS_CLK_STAT_STEWARD_RST_CNT : Fld := ⟨0x28, 16, 16, 0⟩
def SYS_HAUL_IN_DLY_NS : Fld := ⟨0x2c, 0, 16, 0⟩
def SYS_HAUL_IN_LINK : Fld := ⟨0x2c, 16, 1, 0⟩
def SYS_HAUL_OUT_LINK : Fld := ⟨0x2c, 17, 1, 0⟩
def SYS_HAUL_IRIGB_PRESENT : Fld := ⟨0x2c, 18, 1, 0⟩
def SYS_LED_LOCATE : Fld := ⟨0x30, 0, 1, 0⟩
def SYS_DBG_PAGE_VAT_PAGE : Fld := ⟨0x40, 0, 2, 0⟩
def CFG_STATUS_LOADED_COPY : Fld := ⟨0x100000, 0, 2, 3⟩
def CFG_STATUS_A_HDR : Fld := ⟨0x100000, 2, 2, 0⟩
def CFG_STATUS_B_HDR : Fld := ⟨0x100000, 4, 2, 0⟩
def CFG_STATUS_A_CHECK : Fld := ⟨0x100000, 6, 4, 0⟩
def CFG_STATUS_B_CHECK : Fld := ⟨0x100000, 10, 4, 0⟩
def CFG_STATUS_UNOWNED : Fld := ⟨0x100000, 14, 1, 0⟩
def CFG_STATUS_UNUSABLE : Fld := ⟨0x100000, 15, 1, 0⟩
def CFG_STATUS_REPORT_CNT : Fld := ⟨0x100000, 16, 11, 0⟩
def CFG_LOST_CNT_CNT : Fld := ⟨0x100004, 0, 32, 0⟩
def CFG_SERIAL_LO_SERIAL : Fld := ⟨0x100008, 0, 32, 0⟩
def CFG_SERIAL_HI_SERIAL : Fld := ⟨0x10000c, 0, 32, 0⟩
def CFG_LOAD_MS_MS : Fld := ⟨0x100010, 0, 16, 0⟩
def CFG_RIPEN_STAT_ELAPSED_MS : Fld := ⟨0x100014, 0, 20, 0⟩
def CFG_RIPEN_STAT_TIMEOUT_STK : Fld := ⟨0x100014, 20, 1, 0⟩
def CFG_RIPEN_MISSING_MISSING : Fld := ⟨0x100018, 0, 16, 0⟩
def CFG_MODE_CMD_CMD : Fld := ⟨0x100020, 0, 2, 0⟩
def CFG_MODE_STAT_RESULT : Fld := ⟨0x100024, 0, 3, 0⟩
def CFG_MODE_STAT_SAFEHOLD_CAUSE : Fld := ⟨0x100024, 8, 4, 0⟩
def CFG_STAGE_ADDR_LO_ADDR : Fld := ⟨0x100040, 0, 32, 0⟩
def CFG_STAGE_ADDR_HI_ADDR : Fld := ⟨0x100044, 0, 32, 0⟩
def CFG_STAGE_LEN_LEN : Fld := ⟨0x100048, 0, 27, 0⟩
def CFG_STAGE_CMD_GO : Fld := ⟨0x10004c, 0, 1, 0⟩
def CFG_STAGE_CMD_TARGET : Fld := ⟨0x10004c, 1, 1, 0⟩
def CFG_STAGE_CMD_INST : Fld := ⟨0x10004c, 16, 12, 0⟩
def CFG_STAGE_STAT_STATE : Fld := ⟨0x100050, 0, 3, 0⟩
def CFG_STAGE_STAT_CAUSE : Fld := ⟨0x100050, 3, 4, 0⟩
def CFG_STAGE_STAT_CHECK : Fld := ⟨0x100050, 7, 4, 0⟩
def CFG_STAGE_STAT_PROGRESS : Fld := ⟨0x100050, 11, 7, 0⟩
def CFG_STAGE_STAT_DONE_FLG : Fld := ⟨0x100050, 18, 1, 0⟩
def CFG_COPY_SERIAL_LO_SERIAL (n : Nat) : Fld := ⟨0x100060 + 0x8 * n, 0, 32, 0⟩
def CFG_COPY_SERIAL_HI_SERIAL (n : Nat) : Fld := ⟨0x100064 + 0x8 * n, 0, 32, 0⟩
def CFG_REPORT_ENTRY (i k : Nat) : Fld := ⟨0x110000 + 0x10 * i + 0x4 * k, 0, 32, 0⟩
def TIM_STATUS_SRC : Fld := ⟨0x200000, 0, 2, 0⟩
def TIM_STATUS_LOCKED : Fld := ⟨0x200000, 2, 1, 0⟩
def TIM_STATUS_HOLDOVER : Fld := ⟨0x200000, 3, 1, 0⟩
def TIM_STATUS_SLEWING : Fld := ⟨0x200000, 4, 1, 0⟩
def TIM_STATUS_STEP_STK : Fld := ⟨0x200000, 5, 1, 0⟩
def TIM_STATUS_HOLDOVER_STK : Fld := ⟨0x200000, 6, 1, 0⟩
def TIM_STATUS_SRC_CHG_STK : Fld := ⟨0x200000, 7, 1, 0⟩
def TIM_STATUS_FREERUN : Fld := ⟨0x200000, 8, 1, 0⟩
def TIM_NOW_NS_NS : Fld := ⟨0x200004, 0, 30, 0⟩
def TIM_NOW_SEC_LO_SEC : Fld := ⟨0x200008, 0, 32, 0⟩
def TIM_NOW_SEC_HI_SEC : Fld := ⟨0x20000c, 0, 32, 0⟩
def TIM_NOW_FRAC_FRAC : Fld := ⟨0x200010, 0, 32, 0⟩
def TIM_NOW_TS32_TS32 : Fld := ⟨0x200014, 0, 32, 0⟩
def TIM_TS32_TS32 : Fld := ⟨0x200018, 0, 32, 0⟩
def TIM_INCR_LO_INCR : Fld := ⟨0x20001c, 0, 32, 0⟩
def TIM_INCR_HI_INCR : Fld := ⟨0x200020, 0, 32, 0⟩
def TIM_FREQ_Y : Fld := ⟨0x200024, 0, 32, 0⟩
def TIM_OFFSET_THETA : Fld := ⟨0x200028, 0, 32, 0⟩
def TIM_SERVO_KP : Fld := ⟨0x20002c, 0, 16, 45875⟩
def TIM_SERVO_KI : Fld := ⟨0x20002c, 16, 16, 19661⟩
def TIM_LIMITS_MAX_PPB : Fld := ⟨0x200030, 0, 19, 100000⟩
def TIM_LIMITS_STEP_RUN_EN : Fld := ⟨0x200030, 19, 1, 0⟩
def TIM_STEP_NS_STEP_NS : Fld := ⟨0x200034, 0, 20, 1000⟩
def TIM_LOCK_LOCK_NS : Fld := ⟨0x200038, 0, 14, 100⟩
def TIM_LOCK_LOCK_N : Fld := ⟨0x200038, 14, 4, 4⟩
def TIM_LOCK_SRC_EN : Fld := ⟨0x200038, 18, 3, 7⟩
def TIM_LOCK_QUAL_S : Fld := ⟨0x200038, 21, 8, 10⟩
def TIM_HOLD_HOLD_TMO_MS : Fld := ⟨0x20003c, 0, 16, 3000⟩
def TIM_HOLD_HAUL_ORIG : Fld := ⟨0x20003c, 16, 1, 0⟩
def TIM_UTC_UTC_OFFSET : Fld := ⟨0x200040, 0, 8, 37⟩
def TIM_UTC_LEAP61 : Fld := ⟨0x200040, 8, 1, 0⟩
def TIM_UTC_LEAP59 : Fld := ⟨0x200040, 9, 1, 0⟩
def TIM_UTC_VALID : Fld := ⟨0x200040, 10, 1, 0⟩
def TIM_STEP_LAST_LO_STEP : Fld := ⟨0x200044, 0, 32, 0⟩
def TIM_STEP_LAST_HI_STEP : Fld := ⟨0x200048, 0, 32, 0⟩
def TIM_STEP_AT_TS32 : Fld := ⟨0x20004c, 0, 32, 0⟩
def TIM_PTP_PORTS_STATE : Fld := ⟨0x200050, 0, 20, 0⟩
def TIM_VC_CFG_EN (v : Nat) : Fld := ⟨0x200100 + 0x20 * v, 0, 1, 0⟩
def TIM_VC_CFG_BIND (v : Nat) : Fld := ⟨0x200100 + 0x20 * v, 1, 1, 0⟩
def TIM_VC_CFG_DOMAIN (v : Nat) : Fld := ⟨0x200100 + 0x20 * v, 8, 8, 0⟩
def TIM_VC_OFF_LO_OFF (v : Nat) : Fld := ⟨0x200104 + 0x20 * v, 0, 32, 0⟩
def TIM_VC_OFF_HI_OFF (v : Nat) : Fld := ⟨0x200108 + 0x20 * v, 0, 32, 0⟩
def TIM_VC_RATE_RATE (v : Nat) : Fld := ⟨0x20010c + 0x20 * v, 0, 32, 0⟩
def TIM_VC_NOW_NS_NS (v : Nat) : Fld := ⟨0x200110 + 0x20 * v, 0, 30, 0⟩
def TIM_VC_SEC_LO_SEC (v : Nat) : Fld := ⟨0x200114 + 0x20 * v, 0, 32, 0⟩
def TIM_VC_SEC_HI_SEC (v : Nat) : Fld := ⟨0x200118 + 0x20 * v, 0, 32, 0⟩
def TIM_CNT_CNT (k : Nat) : Fld := ⟨0x200200 + 0x4 * k, 0, 32, 0⟩
def MAC_CTRL_EN (n : Nat) : Fld := ⟨0x300000 + 0x10000 * n, 0, 1, 1⟩
def MAC_CTRL_SPEED (n : Nat) : Fld := ⟨0x300000 + 0x10000 * n, 1, 2, indexedDefault (0x300000 + 0x10000 * n) 1 0⟩
def MAC_CTRL_FEC (n : Nat) : Fld := ⟨0x300000 + 0x10000 * n, 3, 2, 0⟩
def MAC_CTRL_REDUND (n : Nat) : Fld := ⟨0x300000 + 0x10000 * n, 5, 2, 0⟩
def MAC_CTRL_MACSEC_EN (n : Nat) : Fld := ⟨0x300000 + 0x10000 * n, 7, 1, 0⟩
def MAC_CTRL_MAX_LEN (n : Nat) : Fld := ⟨0x300000 + 0x10000 * n, 8, 14, 1536⟩
def MAC_STATUS_LINK (n : Nat) : Fld := ⟨0x300004 + 0x10000 * n, 0, 1, 0⟩
def MAC_STATUS_RATE (n : Nat) : Fld := ⟨0x300004 + 0x10000 * n, 1, 2, 0⟩
def MAC_STATUS_COPPER (n : Nat) : Fld := ⟨0x300004 + 0x10000 * n, 3, 1, 0⟩
def MAC_STATUS_MOD_PRESENT (n : Nat) : Fld := ⟨0x300004 + 0x10000 * n, 4, 1, 0⟩
def MAC_STATUS_TX_FAULT (n : Nat) : Fld := ⟨0x300004 + 0x10000 * n, 5, 1, 0⟩
def MAC_STATUS_RX_LOS (n : Nat) : Fld := ⟨0x300004 + 0x10000 * n, 6, 1, 0⟩
def MAC_STATUS_HOLDING (n : Nat) : Fld := ⟨0x300004 + 0x10000 * n, 7, 1, 0⟩
def MAC_STATUS_LINK_DOWN_STK (n : Nat) : Fld := ⟨0x300004 + 0x10000 * n, 8, 1, 0⟩
def MAC_STATUS_TEMP_ALARM_STK (n : Nat) : Fld := ⟨0x300004 + 0x10000 * n, 9, 1, 0⟩
def MAC_STATUS_TSQ_OVF_STK (n : Nat) : Fld := ⟨0x300004 + 0x10000 * n, 10, 1, 0⟩
def MAC_STATUS_RATE_MISMATCH (n : Nat) : Fld := ⟨0x300004 + 0x10000 * n, 11, 1, 0⟩
def MAC_SFP_DIAG_TEMP (n : Nat) : Fld := ⟨0x300008 + 0x10000 * n, 0, 16, 0⟩
def MAC_SFP_DIAG_RX_PWR (n : Nat) : Fld := ⟨0x300008 + 0x10000 * n, 16, 16, 0⟩
def MAC_PAUSE_CFG_RX_PAUSE_EN (n : Nat) : Fld := ⟨0x30000c + 0x10000 * n, 0, 1, 0⟩
def MAC_PAUSE_CFG_RX_PFC_EN (n : Nat) : Fld := ⟨0x30000c + 0x10000 * n, 1, 1, 0⟩
def MAC_PAUSE_CFG_IGN_PAUSE (n : Nat) : Fld := ⟨0x30000c + 0x10000 * n, 8, 8, 240⟩
def MAC_PAUSE_STAT_PAUSED (n : Nat) : Fld := ⟨0x300010 + 0x10000 * n, 0, 8, 0⟩
def MAC_HOLD_HOLD_US (n : Nat) : Fld := ⟨0x300014 + 0x10000 * n, 0, 14, indexedDefault (0x300014 + 0x10000 * n) 0 2000⟩
def MAC_AGE_AGE_US (n q : Nat) : Fld := ⟨0x300020 + 0x10000 * n + 0x4 * q, 0, 14, indexedDefault (0x300020 + 0x10000 * n + 0x4 * q) 0 0⟩
def MAC_SEC_STAT_SECURE (n : Nat) : Fld := ⟨0x300040 + 0x10000 * n, 0, 1, 0⟩
def MAC_SEC_STAT_TX_AN (n : Nat) : Fld := ⟨0x300040 + 0x10000 * n, 1, 1, 0⟩
def MAC_CNT_CNT (n k : Nat) : Fld := ⟨0x300100 + 0x10000 * n + 0x4 * k, 0, 32, 0⟩
def MAC_TSQ_HEAD_ENTRY (n w : Nat) : Fld := ⟨0x300200 + 0x10000 * n + 0x4 * w, 0, 32, 0⟩
def MAC_TSQ_POP_POP (n : Nat) : Fld := ⟨0x300210 + 0x10000 * n, 0, 1, 0⟩
def MAC_TSQ_LEVEL_LEVEL (n : Nat) : Fld := ⟨0x300214 + 0x10000 * n, 0, 10, 0⟩
def SWC_CTRL_LEARN_AGE_S : Fld := ⟨0x400000, 0, 16, 300⟩
def SWC_CTRL_FLUSH_LEARNED : Fld := ⟨0x400000, 16, 1, 0⟩
def SWC_STATUS_FDB_USED : Fld := ⟨0x400004, 0, 17, 0⟩
def SWC_STATUS_MIN_REFUSED_STK : Fld := ⟨0x400004, 17, 1, 0⟩
def SWC_BUF_FREE_FREE : Fld := ⟨0x400008, 0, 17, 0⟩
def SWC_BUF_SHARED_F : Fld := ⟨0x40000c, 0, 17, 0⟩
def SWC_BUF_POOL_S : Fld := ⟨0x400018, 0, 17, 0⟩
def SWC_TBL_CMD_TABLE : Fld := ⟨0x400010, 0, 2, 0⟩
def SWC_TBL_CMD_OP : Fld := ⟨0x400010, 2, 3, 0⟩
def SWC_TBL_CMD_INDEX : Fld := ⟨0x400010, 5, 17, 0⟩
def SWC_TBL_STAT_BUSY : Fld := ⟨0x400014, 0, 1, 0⟩
def SWC_TBL_STAT_RESULT : Fld := ⟨0x400014, 1, 3, 0⟩
def SWC_TBL_DATA_DATA (w : Nat) : Fld := ⟨0x400020 + 0x4 * w, 0, 32, 0⟩
def SWC_MIR0_EN (s : Nat) : Fld := ⟨0x400100 + 0x10 * s, 0, 1, 0⟩
def SWC_MIR0_DEST (s : Nat) : Fld := ⟨0x400100 + 0x10 * s, 1, 4, 0⟩
def SWC_MIR0_MIR_CLASS (s : Nat) : Fld := ⟨0x400100 + 0x10 * s, 5, 3, 0⟩
def SWC_MIR0_DEST_INST (s : Nat) : Fld := ⟨0x400100 + 0x10 * s, 8, 12, 0⟩
def SWC_MIR1_ING (s : Nat) : Fld := ⟨0x400104 + 0x10 * s, 0, 12, 0⟩
def SWC_MIR1_EGR (s : Nat) : Fld := ⟨0x400104 + 0x10 * s, 12, 12, 0⟩
def SWC_PORT_CFG_PVID (p : Nat) : Fld := ⟨0x400400 + 0x20 * p, 0, 12, 1⟩
def SWC_PORT_CFG_DEF_PCP (p : Nat) : Fld := ⟨0x400400 + 0x20 * p, 12, 3, 0⟩
def SWC_PORT_CFG_LEARN (p : Nat) : Fld := ⟨0x400400 + 0x20 * p, 15, 1, 0⟩
def SWC_PORT_CFG_CUT_THRU (p : Nat) : Fld := ⟨0x400400 + 0x20 * p, 16, 1, 0⟩
def SWC_PORT_CFG_ING_FILTER (p : Nat) : Fld := ⟨0x400400 + 0x20 * p, 17, 1, 1⟩
def SWC_PCP_MAP_MAP (p : Nat) : Fld := ⟨0x400404 + 0x20 * p, 0, 24, 16434824⟩
def SWC_PORT_STAT_BOUND_LOST (p : Nat) : Fld := ⟨0x400408 + 0x20 * p, 0, 1, 0⟩
def SWC_PORT_STAT_BOUND_LOST_STK (p : Nat) : Fld := ⟨0x400408 + 0x20 * p, 1, 1, 0⟩
def SWC_PORT_STAT_SLOPE_CUT_STK (p : Nat) : Fld := ⟨0x400408 + 0x20 * p, 2, 1, 0⟩
def SWC_Q_CFG_MIN_CELLS (p q : Nat) : Fld := ⟨0x401000 + 0x100 * p + 0x20 * q, 0, 16, indexedDefault (0x401000 + 0x100 * p + 0x20 * q) 0 32⟩
def SWC_Q_CFG_ALPHA (p q : Nat) : Fld := ⟨0x401000 + 0x100 * p + 0x20 * q, 16, 8, 64⟩
def SWC_Q_CFG_WRR (p q : Nat) : Fld := ⟨0x401000 + 0x100 * p + 0x20 * q, 24, 8, 1⟩
def SWC_Q_SHAPE_IDLE_SLOPE (p q : Nat) : Fld := ⟨0x401004 + 0x100 * p + 0x20 * q, 0, 16, 0⟩
def SWC_Q_HICREDIT_HI_CREDIT (p q : Nat) : Fld := ⟨0x401008 + 0x100 * p + 0x20 * q, 0, 32, 16384⟩
def SWC_Q_STAT_USED (p q : Nat) : Fld := ⟨0x40100c + 0x100 * p + 0x20 * q, 0, 17, 0⟩
def SWC_Q_CREDIT_CREDIT (p q : Nat) : Fld := ⟨0x401010 + 0x100 * p + 0x20 * q, 0, 32, 0⟩
def SWC_CNT_CNT (p k : Nat) : Fld := ⟨0x404000 + 0x40 * p + 0x4 * k, 0, 32, 0⟩
def SWC_HPQ_USED (i : Nat) : Fld := ⟨0x408000 + 0x4 * i, 0, 17, 0⟩
def SWC_HPQ_DROP_CNT_CNT (i : Nat) : Fld := ⟨0x40c000 + 0x4 * i, 0, 32, 0⟩
def VAT_CTRL_LOG_EN : Fld := ⟨0x500000, 0, 1, 1⟩
def VAT_STATUS_RUNNING : Fld := ⟨0x500004, 0, 4, 0⟩
def VAT_STATUS_STEP_STK : Fld := ⟨0x500004, 4, 1, 0⟩
def VAT_BUDGET_USED : Fld := ⟨0x500008, 0, 27, 0⟩
def VAT_SRAM_USED_BYTES : Fld := ⟨0x50000c, 0, 27, 0⟩
def VAT_NOMATCH_CNT_CNT : Fld := ⟨0x500010, 0, 32, 0⟩
def VAT_RATE_CFG_EN (v : Nat) : Fld := ⟨0x500100 + 0x20 * v, 0, 1, 0⟩
def VAT_RATE_CFG_RATE_CODE (v : Nat) : Fld := ⟨0x500100 + 0x20 * v, 1, 3, 1⟩
def VAT_RATE_CFG_DECIM (v : Nat) : Fld := ⟨0x500100 + 0x20 * v, 4, 16, 1⟩
def VAT_WINDOW_W_NS (v : Nat) : Fld := ⟨0x500104 + 0x20 * v, 0, 21, 200000⟩
def VAT_WINDOW_W_REFUSED_STK (v : Nat) : Fld := ⟨0x500104 + 0x20 * v, 21, 1, 0⟩
def VAT_RATE_DEPTH_CURD_DEPTH (v : Nat) : Fld := ⟨0x500108 + 0x20 * v, 0, 11, 256⟩
def VAT_RATE_LAST_INSTANT (v : Nat) : Fld := ⟨0x50010c + 0x20 * v, 0, 32, 0⟩
def VAT_RATE_SEQ_LO_SEQ (v : Nat) : Fld := ⟨0x500110 + 0x20 * v, 0, 32, 0⟩
def VAT_RATE_SEQ_HI_SEQ (v : Nat) : Fld := ⟨0x500114 + 0x20 * v, 0, 32, 0⟩
def VAT_RATE_CNT_CNT (v k : Nat) : Fld := ⟨0x500200 + 0x20 * v + 0x4 * k, 0, 32, 0⟩
def VAT_STRM_CFG_EN (s : Nat) : Fld := ⟨0x510000 + 0x80 * s, 0, 1, 1⟩
def VAT_STRM_CFG_RATE_CODE (s : Nat) : Fld := ⟨0x510000 + 0x80 * s, 1, 3, 1⟩
def VAT_STRM_CFG_NOASDU (s : Nat) : Fld := ⟨0x510000 + 0x80 * s, 4, 4, 1⟩
def VAT_STRM_CFG_NCHAN (s : Nat) : Fld := ⟨0x510000 + 0x80 * s, 8, 6, 8⟩
def VAT_STRM_CFG_SUBST (s : Nat) : Fld := ⟨0x510000 + 0x80 * s, 14, 2, 0⟩
def VAT_STRM_CFG_SYNC_POLICY (s : Nat) : Fld := ⟨0x510000 + 0x80 * s, 16, 2, 0⟩
def VAT_STRM_CFG_REQ_GLOBAL (s : Nat) : Fld := ⟨0x510000 + 0x80 * s, 18, 1, 0⟩
def VAT_STRM_CFG_SIM_ACCEPT (s : Nat) : Fld := ⟨0x510000 + 0x80 * s, 19, 1, 0⟩
def VAT_STRM_CFG_AUTH (s : Nat) : Fld := ⟨0x510000 + 0x80 * s, 20, 1, 0⟩
def VAT_STRM_CFG_PROFILE (s : Nat) : Fld := ⟨0x510000 + 0x80 * s, 21, 1, 0⟩
def VAT_STRM_SUB_APPID (s : Nat) : Fld := ⟨0x510004 + 0x80 * s, 0, 16, 16384⟩
def VAT_STRM_SUB_VID (s : Nat) : Fld := ⟨0x510004 + 0x80 * s, 16, 12, 0⟩
def VAT_STRM_LIM_MAX_SUBST (s : Nat) : Fld := ⟨0x510008 + 0x80 * s, 0, 16, 4⟩
def VAT_STRM_LIM_LOSS_N (s : Nat) : Fld := ⟨0x510008 + 0x80 * s, 16, 8, 8⟩
def VAT_STRM_LIM_RECOVER_N (s : Nat) : Fld := ⟨0x510008 + 0x80 * s, 24, 8, 16⟩
def VAT_STRM_STAT_STATE (s : Nat) : Fld := ⟨0x51000c + 0x80 * s, 0, 2, 0⟩
def VAT_STRM_STAT_SIM_LATCHED (s : Nat) : Fld := ⟨0x51000c + 0x80 * s, 2, 1, 0⟩
def VAT_STRM_STAT_UNSYNC (s : Nat) : Fld := ⟨0x51000c + 0x80 * s, 3, 1, 0⟩
def VAT_STRM_STAT_LAST_CAUSE (s : Nat) : Fld := ⟨0x51000c + 0x80 * s, 4, 4, 0⟩
def VAT_STRM_STAT_LAST_SMPSYNCH (s : Nat) : Fld := ⟨0x51000c + 0x80 * s, 8, 8, 0⟩
def VAT_STRM_STAT_CAUSE_STK (s : Nat) : Fld := ⟨0x51000c + 0x80 * s, 16, 1, 0⟩
def VAT_STRM_LAST_TW (s : Nat) : Fld := ⟨0x510010 + 0x80 * s, 0, 32, 0⟩
def VAT_STRM_DELTA_DELTA (s : Nat) : Fld := ⟨0x510014 + 0x80 * s, 0, 32, 0⟩
def VAT_STRM_CNT_CNT (s k : Nat) : Fld := ⟨0x510040 + 0x80 * s + 0x4 * k, 0, 32, 0⟩
def VAT_SKEW_SIGMA_NS (c : Nat) : Fld := ⟨0x580000 + 0x4 * c, 0, 21, 0⟩
def FLT_CTRL_LOG_EN : Fld := ⟨0x600000, 0, 1, 1⟩
def FLT_STATUS_FADING : Fld := ⟨0x600004, 0, 17, 0⟩
def FLT_LOAD_MMACS : Fld := ⟨0x600008, 0, 16, 0⟩
def FLT_CLOSE_LOAD_MACS : Fld := ⟨0x60000c, 0, 17, 0⟩
def FLT_SRAM_USED_BYTES : Fld := ⟨0x600010, 0, 27, 0⟩
def FLT_FADE_LOAD_MMACS : Fld := ⟨0x600014, 0, 16, 0⟩
def FLT_FADE_LOAD_MACS : Fld := ⟨0x600014, 16, 14, 0⟩
def FLT_CMEM_ADDR_WORD : Fld := ⟨0x600020, 0, 18, 0⟩
def FLT_CMEM_DATA_VALUE : Fld := ⟨0x600024, 0, 32, 0⟩
def FLT_CMEM_STAT_LOCK_STK : Fld := ⟨0x600028, 0, 1, 0⟩
def FLT_CHAIN_SEL_CHAIN : Fld := ⟨0x600040, 0, 16, 0⟩
def FLT_CHAIN_VIEW0_NSTAGE : Fld := ⟨0x600044, 0, 2, 0⟩
def FLT_CHAIN_VIEW0_K_DEF : Fld := ⟨0x600044, 2, 9, 16⟩
def FLT_CHAIN_VIEW0_D : Fld := ⟨0x600044, 11, 16, 0⟩
def FLT_CHAIN_VIEW1_SET : Fld := ⟨0x600048, 0, 10, 0⟩
def FLT_CHAIN_VIEW1_NMAX : Fld := ⟨0x600048, 10, 9, 0⟩
def FLT_CHAIN_VIEW1_DECIM : Fld := ⟨0x600048, 19, 6, 0⟩
def FLT_CHAIN_VIEW2_SET : Fld := ⟨0x60004c, 0, 10, 0⟩
def FLT_CHAIN_VIEW2_NMAX : Fld := ⟨0x60004c, 10, 9, 0⟩
def FLT_CHAIN_VIEW2_DECIM : Fld := ⟨0x60004c, 19, 6, 0⟩
def FLT_CHAIN_VIEW3_SET : Fld := ⟨0x600050, 0, 10, 0⟩
def FLT_CHAIN_VIEW3_NMAX : Fld := ⟨0x600050, 10, 9, 0⟩
def FLT_CHAIN_VIEW3_DECIM : Fld := ⟨0x600050, 19, 6, 0⟩
def FLT_CHAIN_GHALF_HALF : Fld := ⟨0x600054, 0, 20, 0⟩
def FLT_CNT_CNT (k : Nat) : Fld := ⟨0x600100 + 0x4 * k, 0, 32, 0⟩
def FLT_SET_WORD (s : Nat) : Fld := ⟨0x601000 + 0x4 * s, 0, 18, 0⟩
def FLT_SET_N (s : Nat) : Fld := ⟨0x601000 + 0x4 * s, 18, 9, 1⟩
def FLT_SET_KIND (s : Nat) : Fld := ⟨0x601000 + 0x4 * s, 27, 1, 0⟩
def FLT_SET_VALID (s : Nat) : Fld := ⟨0x601000 + 0x4 * s, 28, 1, 0⟩
def FLT_GDELAY_GD_NS (c : Nat) : Fld := ⟨0x640000 + 0x4 * c, 0, 32, 0⟩
def FLT_CHAIN_STAT_STATE (c : Nat) : Fld := ⟨0x680000 + 0x4 * c, 0, 2, 3⟩
def FLT_CHAIN_STAT_PENDING (c : Nat) : Fld := ⟨0x680000 + 0x4 * c, 2, 1, 0⟩
def FLT_CHAIN_STAT_SKEW_CLIP (c : Nat) : Fld := ⟨0x680000 + 0x4 * c, 3, 1, 0⟩
def FLT_CHAIN_STAT_SKEW_CLIP_STK (c : Nat) : Fld := ⟨0x680000 + 0x4 * c, 4, 1, 0⟩
def FLT_CHAIN_STAT_REFUSED_STK (c : Nat) : Fld := ⟨0x680000 + 0x4 * c, 5, 1, 0⟩
def FLT_CHAIN_STAT_FADE_LEFT (c : Nat) : Fld := ⟨0x680000 + 0x4 * c, 6, 9, 0⟩
def FLT_CHAIN_CMD_CMD (c : Nat) : Fld := ⟨0x6c0000 + 0x4 * c, 0, 2, 0⟩
def FLT_CHAIN_CMD_STAGE (c : Nat) : Fld := ⟨0x6c0000 + 0x4 * c, 2, 2, 0⟩
def FLT_CHAIN_CMD_SET (c : Nat) : Fld := ⟨0x6c0000 + 0x4 * c, 4, 10, 0⟩
def FLT_CHAIN_CMD_K (c : Nat) : Fld := ⟨0x6c0000 + 0x4 * c, 14, 9, 0⟩
def SCH_CTRL_LOG_EN : Fld := ⟨0x700000, 0, 1, 1⟩
def SCH_CTRL_RSV_LEVEL : Fld := ⟨0x700000, 1, 6, 48⟩
def SCH_CTRL_TRACE_EN : Fld := ⟨0x700000, 7, 1, 1⟩
def SCH_CTRL_TRACE_STOP : Fld := ⟨0x700000, 8, 1, 0⟩
def SCH_CTRL_PROG_PCT : Fld := ⟨0x700000, 9, 7, 75⟩
def SCH_STATUS_READY : Fld := ⟨0x700004, 0, 14, 0⟩
def SCH_STATUS_RUNNING : Fld := ⟨0x700004, 14, 8, 0⟩
def SCH_STORE_OPEN : Fld := ⟨0x700008, 0, 17, 0⟩
def SCH_SLOW_SLOW : Fld := ⟨0x700010, 0, 32, 0⟩
def SCH_SLOW_CLR_CLR : Fld := ⟨0x700014, 0, 32, 0⟩
def SCH_TRACE_LEVEL_LEVEL : Fld := ⟨0x700020, 0, 21, 0⟩
def SCH_TRACE_LEVEL_FULL_STK : Fld := ⟨0x700020, 21, 1, 0⟩
def SCH_TRACE_HEAD_WORD (w : Nat) : Fld := ⟨0x700030 + 0x4 * w, 0, 32, 0⟩
def SCH_TRACE_POP_POP : Fld := ⟨0x700040, 0, 1, 0⟩
def SCH_TRACE_LOST_CNT_CNT : Fld := ⟨0x700044, 0, 32, 0⟩
def SCH_TASK_CMD_TASK : Fld := ⟨0x700080, 0, 13, 0⟩
def SCH_TASK_CMD_OP : Fld := ⟨0x700080, 13, 2, 0⟩
def SCH_TASK_CMD_STAT_RESULT : Fld := ⟨0x700084, 0, 3, 0⟩
def SCH_TASK_CMD_STAT_DONE_FLG : Fld := ⟨0x700084, 3, 1, 0⟩
def SCH_CNT_CNT (k : Nat) : Fld := ⟨0x700100 + 0x4 * k, 0, 32, 0⟩
def SCH_OLC_BASE_INSTANCE (w : Nat) : Fld := ⟨0x700200 + 0x4 * w, 0, 12, 0⟩
def SCH_OLC_BASE_BLOCK (w : Nat) : Fld := ⟨0x700200 + 0x4 * w, 12, 4, 0⟩
def SCH_OLC_WIN_DATA (w x : Nat) : Fld := ⟨0x7c0000 + 0x4000 * w + 0x4 * x, 0, 32, 0⟩
def SCH_FORCE0_EN (f : Nat) : Fld := ⟨0x701000 + 0x20 * f, 0, 1, 0⟩
def SCH_FORCE0_KIND (f : Nat) : Fld := ⟨0x701000 + 0x20 * f, 1, 2, 0⟩
def SCH_FORCE0_OWNER (f : Nat) : Fld := ⟨0x701000 + 0x20 * f, 3, 13, 0⟩
def SCH_FORCE1_TARGET (f : Nat) : Fld := ⟨0x701004 + 0x20 * f, 0, 18, 0⟩
def SCH_FORCE2_VALUE_LO (f : Nat) : Fld := ⟨0x701008 + 0x20 * f, 0, 32, 0⟩
def SCH_FORCE3_VALUE_HI (f : Nat) : Fld := ⟨0x70100c + 0x20 * f, 0, 32, 0⟩
def SCH_FORCE4_ACTIVE (f : Nat) : Fld := ⟨0x701010 + 0x20 * f, 0, 1, 0⟩
def SCH_FORCE4_DUPLICATE (f : Nat) : Fld := ⟨0x701010 + 0x20 * f, 1, 1, 0⟩
def SCH_FORCE4_COLLIDE_STK (f : Nat) : Fld := ⟨0x701010 + 0x20 * f, 2, 1, 0⟩
def SCH_FORCE5_SHADOW_LO (f : Nat) : Fld := ⟨0x701014 + 0x20 * f, 0, 32, 0⟩
def SCH_FORCE6_SHADOW_HI (f : Nat) : Fld := ⟨0x701018 + 0x20 * f, 0, 32, 0⟩
def SCH_TASK_STAT0_STATE (t : Nat) : Fld := ⟨0x710000 + 0x10 * t, 0, 2, 0⟩
def SCH_TASK_STAT0_ENABLE_PENDING (t : Nat) : Fld := ⟨0x710000 + 0x10 * t, 2, 1, 0⟩
def SCH_TASK_STAT0_OPEN (t : Nat) : Fld := ⟨0x710000 + 0x10 * t, 3, 4, 0⟩
def SCH_TASK_STAT0_RUNNING (t : Nat) : Fld := ⟨0x710000 + 0x10 * t, 7, 1, 0⟩
def SCH_TASK_STAT0_CONSEC_OVR (t : Nat) : Fld := ⟨0x710000 + 0x10 * t, 8, 8, 0⟩
def SCH_TASK_STAT0_OVR_STK (t : Nat) : Fld := ⟨0x710000 + 0x10 * t, 16, 1, 0⟩
def SCH_TASK_STAT1_LAST_CT (t : Nat) : Fld := ⟨0x710004 + 0x10 * t, 0, 32, 0⟩
def SCH_TASK_STAT2_MAX_EXEC_NS (t : Nat) : Fld := ⟨0x710008 + 0x10 * t, 0, 32, 0⟩
def SCH_TASK_STAT3_OVR_CNT (t : Nat) : Fld := ⟨0x71000c + 0x10 * t, 0, 32, 0⟩
def SCH_GPUB0_ST_NUM (i : Nat) : Fld := ⟨0x730000 + 0x10 * i, 0, 32, 0⟩
def SCH_GPUB1_SQ_NUM (i : Nat) : Fld := ⟨0x730004 + 0x10 * i, 0, 32, 0⟩
def SCH_GPUB2_CHANGE_TS (i : Nat) : Fld := ⟨0x730008 + 0x10 * i, 0, 32, 0⟩
def SCH_GPUB3_INTERVAL_MS (i : Nat) : Fld := ⟨0x73000c + 0x10 * i, 0, 16, 0⟩
def SCH_GSUB_CNT_CNT (j k : Nat) : Fld := ⟨0x740020 + 0x40 * j + 0x4 * k, 0, 32, 0⟩
def SCH_GSUB0_STATE (j : Nat) : Fld := ⟨0x740000 + 0x40 * j, 0, 2, 0⟩
def SCH_GSUB0_SIM_LATCHED (j : Nat) : Fld := ⟨0x740000 + 0x40 * j, 2, 1, 0⟩
def SCH_GSUB0_LAST_CAUSE (j : Nat) : Fld := ⟨0x740000 + 0x40 * j, 3, 4, 0⟩
def SCH_GSUB0_CAUSE_STK (j : Nat) : Fld := ⟨0x740000 + 0x40 * j, 7, 1, 0⟩
def SCH_GSUB1_ST_NUM (j : Nat) : Fld := ⟨0x740004 + 0x40 * j, 0, 32, 0⟩
def SCH_GSUB2_SQ_NUM (j : Nat) : Fld := ⟨0x740008 + 0x40 * j, 0, 32, 0⟩
def SCH_GSUB3_ARRIVAL (j : Nat) : Fld := ⟨0x74000c + 0x40 * j, 0, 32, 0⟩
def BEN_CTRL_LOG_EN : Fld := ⟨0x800000, 0, 1, 1⟩
def BEN_CTRL_MISMATCH_LIMIT : Fld := ⟨0x800000, 1, 8, 3⟩
def BEN_STATUS_IN_SERVICE : Fld := ⟨0x800004, 0, 6, 0⟩
def BEN_STATUS_FAILED : Fld := ⟨0x800004, 6, 6, 0⟩
def BEN_FENCE_FENCED : Fld := ⟨0x800008, 0, 32, 4294967295⟩
def BEN_LAYOUT_CODE_KIB : Fld := ⟨0x80000c, 0, 9, 128⟩
def BEN_LAYOUT_CTX_BYTES : Fld := ⟨0x80000c, 9, 17, 94208⟩
def BEN_FENCE_CMD_ENGINE : Fld := ⟨0x800010, 0, 5, 0⟩
def BEN_FENCE_CMD_OP : Fld := ⟨0x800010, 5, 2, 0⟩
def BEN_FENCE_STAT_RESULT : Fld := ⟨0x800014, 0, 3, 0⟩
def BEN_FENCE_STAT_DONE_FLG : Fld := ⟨0x800014, 3, 1, 0⟩
def BEN_EXC_WR_NEXT : Fld := ⟨0x800018, 0, 8, 0⟩
def BEN_ENG_STAT_STATE (n : Nat) : Fld := ⟨0x800100 + 0x10 * n, 0, 3, 1⟩
def BEN_ENG_STAT_SLOW (n : Nat) : Fld := ⟨0x800100 + 0x10 * n, 3, 1, 0⟩
def BEN_ENG_STAT_BUSY (n : Nat) : Fld := ⟨0x800100 + 0x10 * n, 4, 4, 0⟩
def BEN_ENG_STAT_MISMATCH_24H (n : Nat) : Fld := ⟨0x800100 + 0x10 * n, 8, 8, 0⟩
def BEN_ENG_STAT_MISMATCH_STK (n : Nat) : Fld := ⟨0x800100 + 0x10 * n, 16, 1, 0⟩
def BEN_ENG_MISMATCH_CNT_CNT (n : Nat) : Fld := ⟨0x800104 + 0x10 * n, 0, 32, 0⟩
def BEN_ENG_UTIL_PCT (n : Nat) : Fld := ⟨0x800108 + 0x10 * n, 0, 7, 0⟩
def BEN_ENG_EXC_CNT_CNT (n : Nat) : Fld := ⟨0x80010c + 0x10 * n, 0, 32, 0⟩
def BEN_CTX0_BUSY (n c : Nat) : Fld := ⟨0x800400 + 0x40 * n + 0x10 * c, 0, 1, 0⟩
def BEN_CTX0_LEVEL (n c : Nat) : Fld := ⟨0x800400 + 0x40 * n + 0x10 * c, 1, 6, 0⟩
def BEN_CTX0_TASK (n c : Nat) : Fld := ⟨0x800400 + 0x40 * n + 0x10 * c, 7, 13, 0⟩
def BEN_CTX0_INSTANCE (n c : Nat) : Fld := ⟨0x800400 + 0x40 * n + 0x10 * c, 20, 12, 0⟩
def BEN_CTX1_CYCLE_TS (n c : Nat) : Fld := ⟨0x800404 + 0x40 * n + 0x10 * c, 0, 32, 0⟩
def BEN_CTX2_PC (n c : Nat) : Fld := ⟨0x800408 + 0x40 * n + 0x10 * c, 0, 18, 0⟩
def BEN_CNT_CNT (k : Nat) : Fld := ⟨0x801000 + 0x4 * k, 0, 32, 0⟩
def BEN_EXC0_CODE (i : Nat) : Fld := ⟨0x802000 + 0x20 * i, 0, 8, 0⟩
def BEN_EXC0_ENGINE (i : Nat) : Fld := ⟨0x802000 + 0x20 * i, 8, 5, 0⟩
def BEN_EXC0_CONTEXT (i : Nat) : Fld := ⟨0x802000 + 0x20 * i, 13, 2, 0⟩
def BEN_EXC0_DETAIL (i : Nat) : Fld := ⟨0x802000 + 0x20 * i, 16, 16, 0⟩
def BEN_EXC1_PC (i : Nat) : Fld := ⟨0x802004 + 0x20 * i, 0, 18, 0⟩
def BEN_EXC1_TASK (i : Nat) : Fld := ⟨0x802004 + 0x20 * i, 18, 13, 0⟩
def BEN_EXC2_INSTANCE (i : Nat) : Fld := ⟨0x802008 + 0x20 * i, 0, 12, 0⟩
def BEN_EXC2_GEN (i : Nat) : Fld := ⟨0x802008 + 0x20 * i, 12, 8, 0⟩
def BEN_EXC3_CYCLE_TS (i : Nat) : Fld := ⟨0x80200c + 0x20 * i, 0, 32, 0⟩
def BEN_EXC4_AT (i : Nat) : Fld := ⟨0x802010 + 0x20 * i, 0, 32, 0⟩
def BEN_EXC5_ADDR (i : Nat) : Fld := ⟨0x802014 + 0x20 * i, 0, 32, 0⟩
def BEN_DBG_ARM_EN : Fld := ⟨0x804000, 0, 1, 0⟩
def BEN_DBG_ARM_ENGINE : Fld := ⟨0x804000, 1, 5, 0⟩
def BEN_DBG_ARM_INST_EN : Fld := ⟨0x804000, 6, 1, 0⟩
def BEN_DBG_ARM_INSTANCE : Fld := ⟨0x804000, 7, 12, 0⟩
def BEN_DBG_PC_PC : Fld := ⟨0x804004, 0, 18, 0⟩
def BEN_DBG_STAT_HIT_FLG : Fld := ⟨0x804008, 0, 1, 0⟩
def BEN_DBG_STAT_CONTEXT : Fld := ⟨0x804008, 1, 2, 0⟩
def BEN_DBG_SNAP_DATA (w : Nat) : Fld := ⟨0x805000 + 0x4 * w, 0, 32, 0⟩
def PRS_CTRL_OVERLAP_EVT : Fld := ⟨0x900000, 0, 1, 0⟩
def PRS_CTRL_SNAP_VF_EN : Fld := ⟨0x900000, 1, 1, 1⟩
def PRS_STATUS_READY : Fld := ⟨0x900004, 0, 1, 0⟩
def PRS_STATUS_PENDING : Fld := ⟨0x900004, 8, 8, 0⟩
def PRS_STATUS_COLLECTING : Fld := ⟨0x900004, 16, 9, 0⟩
def PRS_EPOCH_LO_EPOCH : Fld := ⟨0x900008, 0, 32, 0⟩
def PRS_EPOCH_HI_EPOCH : Fld := ⟨0x90000c, 0, 32, 0⟩
def PRS_EPOCH_TS_COMMIT_TS : Fld := ⟨0x900010, 0, 32, 0⟩
def PRS_TXN_TMO_TMO_MS : Fld := ⟨0x900014, 0, 14, 100⟩
def PRS_MAX_LAT_LAT_NS : Fld := ⟨0x900018, 0, 32, 0⟩
def PRS_DISC_CNT_CNT (n : Nat) : Fld := ⟨0x900020 + 0x4 * n, 0, 32, 0⟩
def PRS_APPLIED_CNT_CNT : Fld := ⟨0x900040, 0, 32, 0⟩
def PRS_OVERLAP_CNT_CNT : Fld := ⟨0x900044, 0, 32, 0⟩
def PRS_TXN_CMD_CMD (n : Nat) : Fld := ⟨0x900200 + 0x20 * n, 0, 3, 0⟩
def PRS_TXN_STAT_STATE (n : Nat) : Fld := ⟨0x900204 + 0x20 * n, 0, 3, 0⟩
def PRS_TXN_STAT_CONFLICT (n : Nat) : Fld := ⟨0x900204 + 0x20 * n, 3, 1, 0⟩
def PRS_TXN_STAT_CAUSE (n : Nat) : Fld := ⟨0x900204 + 0x20 * n, 4, 4, 0⟩
def PRS_TXN_STAT_COUNT (n : Nat) : Fld := ⟨0x900204 + 0x20 * n, 8, 11, 0⟩
def PRS_TXN_STAT_FAIL_INDEX (n : Nat) : Fld := ⟨0x900204 + 0x20 * n, 19, 10, 0⟩
def PRS_TXN_ADDR_ADDR (n : Nat) : Fld := ⟨0x900208 + 0x20 * n, 0, 32, 0⟩
def PRS_TXN_DATA_DATA (n : Nat) : Fld := ⟨0x90020c + 0x20 * n, 0, 32, 0⟩
def PRS_TXN_AT_AT (n : Nat) : Fld := ⟨0x900210 + 0x20 * n, 0, 32, 0⟩
def PRS_TXN_EPOCH_LO_EPOCH (n : Nat) : Fld := ⟨0x900214 + 0x20 * n, 0, 32, 0⟩
def PRS_TXN_EPOCH_HI_EPOCH (n : Nat) : Fld := ⟨0x900218 + 0x20 * n, 0, 32, 0⟩
def PRS_SNAP_DESC_LO_ADDR : Fld := ⟨0x900300, 0, 32, 0⟩
def PRS_SNAP_DESC_HI_ADDR : Fld := ⟨0x900304, 0, 32, 0⟩
def PRS_SNAP_RES_LO_ADDR : Fld := ⟨0x900308, 0, 32, 0⟩
def PRS_SNAP_RES_HI_ADDR : Fld := ⟨0x90030c, 0, 32, 0⟩
def PRS_SNAP_CMD_GO : Fld := ⟨0x900310, 0, 1, 0⟩
def PRS_SNAP_STAT_BUSY : Fld := ⟨0x900314, 0, 1, 0⟩
def PRS_SNAP_STAT_DONE_FLG : Fld := ⟨0x900314, 1, 1, 0⟩
def PRS_GRP_CFG_EN (n : Nat) : Fld := ⟨0x901000 + 0x10 * n, 0, 1, 0⟩
def PRS_GRP_CFG_MEMBERS (n : Nat) : Fld := ⟨0x901000 + 0x10 * n, 1, 6, 0⟩
def PRS_GRP_CFG_DEADLINE (n : Nat) : Fld := ⟨0x901000 + 0x10 * n, 8, 20, 250⟩
def PRS_GRP_STAT_CAUSE (n : Nat) : Fld := ⟨0x901004 + 0x10 * n, 0, 3, 0⟩
def PRS_GRP_STAT_FAIL_STK (n : Nat) : Fld := ⟨0x901004 + 0x10 * n, 3, 1, 0⟩
def PRS_GRP_FAIL_CNT_CNT (n : Nat) : Fld := ⟨0x901008 + 0x10 * n, 0, 32, 0⟩
def PRS_GRP_LAST_CYCLE_TS (n : Nat) : Fld := ⟨0x90100c + 0x10 * n, 0, 32, 0⟩
def ACQ_CTRL_LOG_EN : Fld := ⟨0xa00000, 0, 1, 1⟩
def ACQ_CTRL_HAUL_ID : Fld := ⟨0xa00000, 1, 4, 0⟩
def ACQ_STATUS_WRITING : Fld := ⟨0xa00004, 0, 16, 0⟩
def ACQ_STATUS_RECORDING : Fld := ⟨0xa00004, 16, 16, 0⟩
def ACQ_BW_RES_MBPS : Fld := ⟨0xa00008, 0, 12, 0⟩
def ACQ_BW_POOL_MIB : Fld := ⟨0xa00008, 12, 14, 0⟩
def ACQ_SESS_CMD_SESSION : Fld := ⟨0xa00010, 0, 4, 0⟩
def ACQ_SESS_CMD_OP : Fld := ⟨0xa00010, 4, 3, 0⟩
def ACQ_SESS_CMD_ENTRY : Fld := ⟨0xa00010, 7, 6, 0⟩
def ACQ_SESS_CMD_STAT_RESULT : Fld := ⟨0xa00014, 0, 3, 0⟩
def ACQ_SESS_CMD_STAT_DONE_FLG : Fld := ⟨0xa00014, 3, 1, 0⟩
def ACQ_RD_ADDR_LO_ADDR : Fld := ⟨0xa00020, 0, 32, 0⟩
def ACQ_RD_ADDR_HI_ADDR : Fld := ⟨0xa00024, 0, 32, 0⟩
def ACQ_RD_OFF_VALUE : Fld := ⟨0xa00028, 0, 32, 0⟩
def ACQ_RD_LEN_VALUE : Fld := ⟨0xa0002c, 0, 32, 0⟩
def ACQ_RD_CMD_GO : Fld := ⟨0xa00030, 0, 1, 0⟩
def ACQ_RD_CMD_SESSION : Fld := ⟨0xa00030, 1, 4, 0⟩
def ACQ_RD_CMD_ENTRY : Fld := ⟨0xa00030, 5, 6, 0⟩
def ACQ_RD_CMD_REGION : Fld := ⟨0xa00030, 11, 2, 0⟩
def ACQ_RD_CMD_INST : Fld := ⟨0xa00030, 16, 12, 0⟩
def ACQ_RD_STAT_BUSY : Fld := ⟨0xa00034, 0, 1, 0⟩
def ACQ_RD_STAT_DONE_FLG : Fld := ⟨0xa00034, 1, 1, 0⟩
def ACQ_RD_STAT_STATUS : Fld := ⟨0xa00034, 2, 3, 0⟩
def ACQ_CNT_CNT (k : Nat) : Fld := ⟨0xa00100 + 0x4 * k, 0, 32, 0⟩
def ACQ_SESS_STAT0_STATE (s : Nat) : Fld := ⟨0xa00400 + 0x20 * s, 0, 3, 0⟩
def ACQ_SESS_STAT0_ARM_PENDING (s : Nat) : Fld := ⟨0xa00400 + 0x20 * s, 3, 1, 0⟩
def ACQ_SESS_STAT0_RD_LOG2 (s : Nat) : Fld := ⟨0xa00400 + 0x20 * s, 4, 3, 0⟩
def ACQ_SESS_STAT0_HALT_CAUSE (s : Nat) : Fld := ⟨0xa00400 + 0x20 * s, 7, 2, 0⟩
def ACQ_SESS_STAT0_ENTRIES (s : Nat) : Fld := ⟨0xa00400 + 0x20 * s, 9, 7, 0⟩
def ACQ_SESS_STAT0_DIR_FULL_STK (s : Nat) : Fld := ⟨0xa00400 + 0x20 * s, 16, 1, 0⟩
def ACQ_SESS_STAT0_RATE_STK (s : Nat) : Fld := ⟨0xa00400 + 0x20 * s, 17, 1, 0⟩
def ACQ_SESS_STAT1_RECNO (s : Nat) : Fld := ⟨0xa00404 + 0x20 * s, 0, 32, 0⟩
def ACQ_SESS_STAT2_LAST_ROW (s : Nat) : Fld := ⟨0xa00408 + 0x20 * s, 0, 32, 0⟩
def ACQ_SESS_STAT3_BUF_BYTES (s : Nat) : Fld := ⟨0xa0040c + 0x20 * s, 0, 17, 0⟩
def ACQ_DIR0_RECNO (s e : Nat) : Fld := ⟨0xa10000 + 0x400 * s + 0x10 * e, 0, 32, 0⟩
def ACQ_DIR1_VALID (s e : Nat) : Fld := ⟨0xa10004 + 0x400 * s + 0x10 * e, 0, 1, 0⟩
def ACQ_DIR1_FLAGS (s e : Nat) : Fld := ⟨0xa10004 + 0x400 * s + 0x10 * e, 1, 15, 0⟩
def ACQ_DIR2_TRIG_TS (s e : Nat) : Fld := ⟨0xa10008 + 0x400 * s + 0x10 * e, 0, 32, 0⟩
def ACQ_DIR3_ROWS (s e : Nat) : Fld := ⟨0xa1000c + 0x400 * s + 0x10 * e, 0, 24, 0⟩
def EVR_CTRL_MODE : Fld := ⟨0xb00000, 0, 1, 0⟩
def EVR_CTRL_FREEZE_MAX_MS : Fld := ⟨0xb00000, 1, 16, 1000⟩
def EVR_STATUS_FROZEN : Fld := ⟨0xb00004, 0, 1, 0⟩
def EVR_STATUS_QUEUE : Fld := ⟨0xb00004, 1, 9, 0⟩
def EVR_STATUS_BUF_RECS : Fld := ⟨0xb00004, 10, 11, 0⟩
def EVR_STATUS_LAYOUT : Fld := ⟨0xb00004, 21, 1, 0⟩
def EVR_STATUS_INIT_STK : Fld := ⟨0xb00004, 22, 1, 0⟩
def EVR_CMD_OP : Fld := ⟨0xb00008, 0, 2, 0⟩
def EVR_CMD_STAT_RESULT : Fld := ⟨0xb0000c, 0, 3, 0⟩
def EVR_CMD_STAT_DONE_FLG : Fld := ⟨0xb0000c, 3, 1, 0⟩
def EVR_NEXT_SEQ_LO_SEQ : Fld := ⟨0xb00010, 0, 32, 0⟩
def EVR_NEXT_SEQ_HI_SEQ : Fld := ⟨0xb00014, 0, 32, 0⟩
def EVR_HEAD_OFFSET : Fld := ⟨0xb00018, 0, 24, 0⟩
def EVR_TAIL_OFFSET : Fld := ⟨0xb0001c, 0, 24, 0⟩
def EVR_LOST_CNT_CNT : Fld := ⟨0xb00020, 0, 32, 0⟩
def EVR_CAVE_ADDR_ADDR : Fld := ⟨0xb00040, 0, 24, 0⟩
def EVR_CAVE_DATA_DATA : Fld := ⟨0xb00044, 0, 32, 0⟩
def EVR_CNT_CNT (k : Nat) : Fld := ⟨0xb00100 + 0x4 * k, 0, 32, 0⟩
def RED_CTRL_LOG_EN : Fld := ⟨0xc00000, 0, 1, 1⟩
def RED_CTRL_REVERT : Fld := ⟨0xc00000, 1, 1, 1⟩
def RED_STATUS_ROLE : Fld := ⟨0xc00004, 0, 2, 0⟩
def RED_STATUS_POSITION : Fld := ⟨0xc00004, 2, 1, 0⟩
def RED_STATUS_PEER_LOST : Fld := ⟨0xc00004, 3, 1, 0⟩
def RED_STATUS_PL_OK : Fld := ⟨0xc00004, 4, 1, 0⟩
def RED_STATUS_ST_OK : Fld := ⟨0xc00004, 5, 1, 0⟩
def RED_STATUS_IN_SYNC : Fld := ⟨0xc00004, 6, 1, 0⟩
def RED_STATUS_POS_CONFLICT_STK : Fld := ⟨0xc00004, 7, 1, 0⟩
def RED_STATUS_XFERS : Fld := ⟨0xc00004, 8, 8, 0⟩
def RED_STATUS_UNSYNCED : Fld := ⟨0xc00004, 16, 13, 0⟩
def RED_CLAIM_CLAIM : Fld := ⟨0xc00008, 0, 32, 0⟩
def RED_PEER_CLAIM_CLAIM : Fld := ⟨0xc0000c, 0, 32, 0⟩
def RED_PEER_FLAGS : Fld := ⟨0xc00010, 0, 8, 0⟩
def RED_PEER_MODE : Fld := ⟨0xc00010, 8, 3, 0⟩
def RED_PENALTY_HEALTH : Fld := ⟨0xc00014, 0, 8, 0⟩
def RED_PENALTY_P : Fld := ⟨0xc00014, 8, 12, 0⟩
def RED_CMD_OP : Fld := ⟨0xc00020, 0, 2, 0⟩
def RED_CMD_STAT_RESULT : Fld := ⟨0xc00024, 0, 3, 0⟩
def RED_CMD_STAT_DONE_FLG : Fld := ⟨0xc00024, 3, 1, 0⟩
def RED_CNT_CNT (k : Nat) : Fld := ⟨0xc00100 + 0x4 * k, 0, 32, 0⟩
def RED_INST_SYNC_STATE (i : Nat) : Fld := ⟨0xc10000 + 0x4 * i, 0, 2, 0⟩
def RED_SUB_CLAIM0_C_ACC (j : Nat) : Fld := ⟨0xc20000 + 0x8 * j, 0, 32, 0⟩
def RED_SUB_CLAIM1_PAIR_ACC (j : Nat) : Fld := ⟨0xc20004 + 0x8 * j, 0, 16, 0⟩
def RED_LST_CLAIM0_C_ACC (c : Nat) : Fld := ⟨0xc30000 + 0x8 * c, 0, 32, 0⟩
def RED_LST_CLAIM1_PAIR_ACC (c : Nat) : Fld := ⟨0xc30004 + 0x8 * c, 0, 16, 0⟩
def LST_CTRL_LOG_EN : Fld := ⟨0xd00000, 0, 1, 1⟩
def LST_STATUS_VALID : Fld := ⟨0xd00004, 0, 11, 0⟩
def LST_STATUS_FAILSAFE : Fld := ⟨0xd00004, 11, 11, 0⟩
def LST_NOMATCH_CNT_CNT : Fld := ⟨0xd00008, 0, 32, 0⟩
def LST_CONN_CMD_CONN : Fld := ⟨0xd00010, 0, 10, 0⟩
def LST_CONN_CMD_OP : Fld := ⟨0xd00010, 10, 2, 0⟩
def LST_CONN_CMD_STAT_RESULT : Fld := ⟨0xd00014, 0, 3, 0⟩
def LST_CONN_CMD_STAT_DONE_FLG : Fld := ⟨0xd00014, 3, 1, 0⟩
def LST_CNT_CNT (k : Nat) : Fld := ⟨0xd00100 + 0x4 * k, 0, 32, 0⟩
def LST_CONN0_DIR (c : Nat) : Fld := ⟨0xd10000 + 0x40 * c, 0, 1, 0⟩
def LST_CONN0_CARRIAGE (c : Nat) : Fld := ⟨0xd10000 + 0x40 * c, 1, 1, 0⟩
def LST_CONN0_ID_SEAL (c : Nat) : Fld := ⟨0xd10000 + 0x40 * c, 2, 1, 0⟩
def LST_CONN0_TRIG_ALL (c : Nat) : Fld := ⟨0xd10000 + 0x40 * c, 3, 1, 0⟩
def LST_CONN0_RESTORE (c : Nat) : Fld := ⟨0xd10000 + 0x40 * c, 4, 1, 0⟩
def LST_CONN0_CLASS (c : Nat) : Fld := ⟨0xd10000 + 0x40 * c, 5, 3, 7⟩
def LST_CONN0_DLEN (c : Nat) : Fld := ⟨0xd10000 + 0x40 * c, 8, 11, 1⟩
def LST_CONN1_ID_LO (c : Nat) : Fld := ⟨0xd10004 + 0x40 * c, 0, 32, 0⟩
def LST_CONN2_ID_HI (c : Nat) : Fld := ⟨0xd10008 + 0x40 * c, 0, 32, 0⟩
def LST_CONN3_MAX_AGE_US (c : Nat) : Fld := ⟨0xd1000c + 0x40 * c, 0, 20, 2000⟩
def LST_CONN4_WDOG_US (c : Nat) : Fld := ⟨0xd10010 + 0x40 * c, 0, 21, 3000⟩
def LST_CONN5_SEQ_WIN (c : Nat) : Fld := ⟨0xd10014 + 0x40 * c, 0, 16, 16⟩
def LST_CONN5_RECOVER_N (c : Nat) : Fld := ⟨0xd10014 + 0x40 * c, 16, 8, 3⟩
def LST_CONN6_AGE_LEAD_NS (c : Nat) : Fld := ⟨0xd10018 + 0x40 * c, 0, 17, 1000⟩
def LST_CONN7_REFRESH_US (c : Nat) : Fld := ⟨0xd1001c + 0x40 * c, 0, 20, 1000⟩
def LST_CONN8_STATE (c : Nat) : Fld := ⟨0xd10020 + 0x40 * c, 0, 2, 3⟩
def LST_CONN8_REACTION (c : Nat) : Fld := ⟨0xd10020 + 0x40 * c, 2, 4, 0⟩
def LST_CONN8_SENDER_SAFE (c : Nat) : Fld := ⟨0xd10020 + 0x40 * c, 6, 1, 0⟩
def LST_CONN8_RECOVERING (c : Nat) : Fld := ⟨0xd10020 + 0x40 * c, 7, 1, 0⟩
def LST_CONN8_RECOVER_CNT (c : Nat) : Fld := ⟨0xd10020 + 0x40 * c, 8, 8, 0⟩
def LST_CONN8_VIOL_STK (c : Nat) : Fld := ⟨0xd10020 + 0x40 * c, 16, 1, 0⟩
def LST_CONN9_SEQ (c : Nat) : Fld := ⟨0xd10024 + 0x40 * c, 0, 32, 0⟩
def LST_CONN10_ARRIVAL (c : Nat) : Fld := ⟨0xd10028 + 0x40 * c, 0, 32, 0⟩
def LST_CONN_CNT_CNT (c k : Nat) : Fld := ⟨0xd40000 + 0x20 * c + 0x4 * k, 0, 32, 0⟩
def SEAL_STAT_PERMIT : Fld := ⟨0xdf0000, 0, 4, 0⟩
def SEAL_STAT_POSITION : Fld := ⟨0xdf0000, 4, 1, 0⟩
def SEAL_STAT_IDENT : Fld := ⟨0xdf0000, 5, 3, 0⟩
def SEAL_CHG_CNT_CNT : Fld := ⟨0xdf0004, 0, 32, 0⟩
def SEAL_LAST_TS32 : Fld := ⟨0xdf0008, 0, 32, 0⟩
def SEAL_LAST_VAL_OLD : Fld := ⟨0xdf000c, 0, 8, 0⟩
def SEAL_LAST_VAL_NEW : Fld := ⟨0xdf000c, 8, 8, 0⟩
def KEY_STATUS_ROOT : Fld := ⟨0xe00000, 0, 2, 0⟩
def KEY_STATUS_BANK : Fld := ⟨0xe00000, 2, 1, 0⟩
def KEY_STATUS_RNG_FAIL : Fld := ⟨0xe00000, 3, 1, 0⟩
def KEY_STATUS_SLOTS_READY : Fld := ⟨0xe00000, 4, 11, 0⟩
def KEY_STATUS_LOG_EN : Fld := ⟨0xe00000, 15, 1, 1⟩
def KEY_CMD_ADDR_LO_ADDR : Fld := ⟨0xe00010, 0, 32, 0⟩
def KEY_CMD_ADDR_HI_ADDR : Fld := ⟨0xe00014, 0, 32, 0⟩
def KEY_CMD_OP : Fld := ⟨0xe00018, 0, 4, 0⟩
def KEY_CMD_SLOT : Fld := ⟨0xe00018, 4, 10, 0⟩
def KEY_CMD_SLOT_DEV : Fld := ⟨0xe00018, 14, 1, 0⟩
def KEY_CMD_INST : Fld := ⟨0xe00018, 16, 12, 0⟩
def KEY_CMD_STAT_BUSY : Fld := ⟨0xe0001c, 0, 1, 0⟩
def KEY_CMD_STAT_RESULT : Fld := ⟨0xe0001c, 1, 3, 0⟩
def KEY_CMD_STAT_DONE_FLG : Fld := ⟨0xe0001c, 4, 1, 0⟩
def KEY_DEVID_Q (w : Nat) : Fld := ⟨0xe00040 + 0x4 * w, 0, 32, 0⟩
def KEY_OTP_NONCE_NONCE (w : Nat) : Fld := ⟨0xe00080 + 0x4 * w, 0, 32, 0⟩
def KEY_OWN_STAT_SLOT : Fld := ⟨0xe000a0, 0, 8, 0⟩
def KEY_IMG_SEAL_SEAL (w : Nat) : Fld := ⟨0xe000c0 + 0x4 * w, 0, 32, 0⟩
def KEY_CNT_CNT (k : Nat) : Fld := ⟨0xe00100 + 0x4 * k, 0, 32, 0⟩
def KEY_SLOT_STAT_STATE (s : Nat) : Fld := ⟨0xe01000 + 0x4 * s, 0, 3, 0⟩
def KEY_SLOT_STAT_ATTR (s : Nat) : Fld := ⟨0xe01000 + 0x4 * s, 3, 3, 0⟩
def KEY_SLOT_STAT_SECTION (s : Nat) : Fld := ⟨0xe01000 + 0x4 * s, 6, 1, 0⟩
def KEY_SLOT_STAT_IMPORT (s : Nat) : Fld := ⟨0xe01000 + 0x4 * s, 7, 1, 0⟩
def KEY_SLOT_STAT_SEND_HALF (s : Nat) : Fld := ⟨0xe01000 + 0x4 * s, 8, 1, 0⟩
def KEY_SLOT_STAT_SWITCH_PENDING (s : Nat) : Fld := ⟨0xe01000 + 0x4 * s, 9, 1, 0⟩
def KEY_SLOT_STAT_HALVES (s : Nat) : Fld := ⟨0xe01000 + 0x4 * s, 10, 2, 0⟩
def KEY_SLOT_STAT_ALG (s : Nat) : Fld := ⟨0xe01000 + 0x4 * s, 12, 3, 0⟩
def KEY_SLOT_STAT_DEPTH (s : Nat) : Fld := ⟨0xe01000 + 0x4 * s, 15, 4, 0⟩
def CRC_CFG_WIDTH (u : Nat) : Fld := ⟨0xf00000 + 0x200 * u, 0, 2, 2⟩
def CRC_CFG_REFIN (u : Nat) : Fld := ⟨0xf00000 + 0x200 * u, 2, 1, 1⟩
def CRC_CFG_REFOUT (u : Nat) : Fld := ⟨0xf00000 + 0x200 * u, 3, 1, 1⟩
def CRC_CFG_IRQ_EN (u : Nat) : Fld := ⟨0xf00000 + 0x200 * u, 4, 1, 0⟩
def CRC_CFG_VECTOR (u : Nat) : Fld := ⟨0xf00000 + 0x200 * u, 5, 9, 0⟩
def CRC_POLY_LO_VALUE (u : Nat) : Fld := ⟨0xf00004 + 0x200 * u, 0, 32, 517762881⟩
def CRC_POLY_HI_VALUE (u : Nat) : Fld := ⟨0xf00008 + 0x200 * u, 0, 32, 0⟩
def CRC_INIT_LO_VALUE (u : Nat) : Fld := ⟨0xf0000c + 0x200 * u, 0, 32, 4294967295⟩
def CRC_INIT_HI_VALUE (u : Nat) : Fld := ⟨0xf00010 + 0x200 * u, 0, 32, 0⟩
def CRC_XOROUT_LO_VALUE (u : Nat) : Fld := ⟨0xf00014 + 0x200 * u, 0, 32, 4294967295⟩
def CRC_XOROUT_HI_VALUE (u : Nat) : Fld := ⟨0xf00018 + 0x200 * u, 0, 32, 0⟩
def CRC_VALUE_LO_R (u : Nat) : Fld := ⟨0xf0001c + 0x200 * u, 0, 32, 0⟩
def CRC_VALUE_HI_R (u : Nat) : Fld := ⟨0xf00020 + 0x200 * u, 0, 32, 0⟩
def CRC_EXPECT_LO_EXPECT (u : Nat) : Fld := ⟨0xf00024 + 0x200 * u, 0, 32, 0⟩
def CRC_EXPECT_HI_EXPECT (u : Nat) : Fld := ⟨0xf00028 + 0x200 * u, 0, 32, 0⟩
def CRC_TAG_LO_TAG (u : Nat) : Fld := ⟨0xf0002c + 0x200 * u, 0, 32, 0⟩
def CRC_TAG_HI_TAG (u : Nat) : Fld := ⟨0xf00030 + 0x200 * u, 0, 32, 0⟩
def CRC_FEED8_DATA (u : Nat) : Fld := ⟨0xf00034 + 0x200 * u, 0, 32, 0⟩
def CRC_FEED16_DATA (u : Nat) : Fld := ⟨0xf00038 + 0x200 * u, 0, 32, 0⟩
def CRC_FEED32_DATA (u : Nat) : Fld := ⟨0xf0003c + 0x200 * u, 0, 32, 0⟩
def CRC_CMD_OP (u : Nat) : Fld := ⟨0xf00040 + 0x200 * u, 0, 2, 0⟩
def CRC_STAT_BUSY (u : Nat) : Fld := ⟨0xf00044 + 0x200 * u, 0, 1, 0⟩
def CRC_STAT_MATCH (u : Nat) : Fld := ⟨0xf00044 + 0x200 * u, 1, 1, 0⟩
def CRC_STAT_MISMATCH_FLG (u : Nat) : Fld := ⟨0xf00044 + 0x200 * u, 2, 1, 0⟩
def CRC_RESULT_LO_RESULT (u : Nat) : Fld := ⟨0xf00048 + 0x200 * u, 0, 32, 0⟩
def CRC_RESULT_HI_RESULT (u : Nat) : Fld := ⟨0xf0004c + 0x200 * u, 0, 32, 0⟩
def CRC_REQ_CNT_CNT (u : Nat) : Fld := ⟨0xf00050 + 0x200 * u, 0, 32, 0⟩
def CRC_MISMATCH_CNT_CNT (u : Nat) : Fld := ⟨0xf00054 + 0x200 * u, 0, 32, 0⟩
def CRC_OWNER_OWNER (u : Nat) : Fld := ⟨0xf01000 + 0x4 * u, 0, 10, indexedDefault (0xf01000 + 0x4 * u) 0 0⟩
def INS_CTRL_VIOL_LIMIT : Fld := ⟨0x1000000, 0, 8, 16⟩
def INS_CTRL_VIOL_WIN_MS : Fld := ⟨0x1000000, 8, 16, 1000⟩
def INS_CTRL_LOG_EN : Fld := ⟨0x1000000, 24, 1, 1⟩
def INS_STATUS_NUM_VFS : Fld := ⟨0x1000004, 0, 8, 0⟩
def INS_STATUS_LINK_W : Fld := ⟨0x1000004, 8, 5, 0⟩
def INS_STATUS_LINK_RATE : Fld := ⟨0x1000004, 13, 3, 0⟩
def INS_STATUS_CAP_SHORT : Fld := ⟨0x1000004, 16, 1, 0⟩
def INS_STATUS_CAP_SHORT_STK : Fld := ⟨0x1000004, 17, 1, 0⟩
def INS_STATUS_SHARE_REFUSED_STK : Fld := ⟨0x1000004, 18, 1, 0⟩
def INS_DMA_CAP_MBPS : Fld := ⟨0x1000008, 0, 16, 0⟩
def INS_EXPORT_LOAD_MBPS : Fld := ⟨0x100000c, 0, 16, 0⟩
def INS_MIN_SUM_DMA : Fld := ⟨0x1000010, 0, 16, 0⟩
def INS_MIN_SUM_REC : Fld := ⟨0x1000010, 16, 12, 0⟩
def INS_DB_DB : Fld := ⟨0x1000040, 0, 32, 0⟩
def INS_QSEL_INSTANCE : Fld := ⟨0x1000080, 0, 12, 0⟩
def INS_QSEL_QUEUE : Fld := ⟨0x1000080, 12, 3, 0⟩
def INS_QCFG0_BASE_LO : Fld := ⟨0x1000084, 0, 32, 0⟩
def INS_QCFG1_BASE_HI : Fld := ⟨0x1000088, 0, 32, 0⟩
def INS_QCFG2_EN : Fld := ⟨0x100008c, 0, 1, 0⟩
def INS_QCFG2_LOG2 : Fld := ⟨0x100008c, 1, 4, 0⟩
def INS_QCFG2_VECTOR : Fld := ⟨0x100008c, 5, 9, 0⟩
def INS_QCFG2_MOD_US : Fld := ⟨0x100008c, 14, 18, 0⟩
def INS_QCFG3_AUX_LO : Fld := ⟨0x1000090, 0, 32, 0⟩
def INS_QCFG4_AUX_HI : Fld := ⟨0x1000094, 0, 32, 0⟩
def INS_QCFG5_ACTIVE : Fld := ⟨0x1000098, 0, 1, 0⟩
def INS_QCFG5_CAUSE : Fld := ⟨0x1000098, 1, 3, 0⟩
def INS_QCFG5_HEAD : Fld := ⟨0x1000098, 16, 16, 0⟩
def INS_INST_CMD_INSTANCE : Fld := ⟨0x1000100, 0, 12, 0⟩
def INS_INST_CMD_OP : Fld := ⟨0x1000100, 12, 3, 0⟩
def INS_INST_CMD_OWNER : Fld := ⟨0x1000100, 16, 9, 0⟩
def INS_INST_CMD_STAT_RESULT : Fld := ⟨0x1000104, 0, 3, 0⟩
def INS_INST_CMD_STAT_DONE_FLG : Fld := ⟨0x1000104, 3, 1, 0⟩
def INS_XLT_INST_VALUE : Fld := ⟨0x1000140, 0, 20, 0⟩
def INS_XLT_PAGE_VALUE : Fld := ⟨0x1000144, 0, 20, 0⟩
def INS_XLT_DATA_LO_ENTRY : Fld := ⟨0x1000148, 0, 32, 0⟩
def INS_XLT_DATA_HI_ENTRY : Fld := ⟨0x100014c, 0, 32, 0⟩
def INS_XLT_CMD_OP : Fld := ⟨0x1000150, 0, 2, 0⟩
def INS_XLT_STAT_BUSY : Fld := ⟨0x1000154, 0, 1, 0⟩
def INS_XLT_STAT_DONE_FLG : Fld := ⟨0x1000154, 1, 1, 0⟩
def INS_XLT_STAT_RESULT : Fld := ⟨0x1000154, 2, 2, 0⟩
def INS_FN_VIOL_WIN_CNT (f : Nat) : Fld := ⟨0x1001000 + 0x4 * f, 0, 16, 0⟩
def INS_FN_VIOL_ISOLATED (f : Nat) : Fld := ⟨0x1001000 + 0x4 * f, 16, 1, 0⟩
def INS_CNT_CNT (k : Nat) : Fld := ⟨0x1002000 + 0x4 * k, 0, 32, 0⟩
def INS_INST_STAT_STATE (i : Nat) : Fld := ⟨0x1010000 + 0x20 * i, 0, 2, 0⟩
def INS_INST_STAT_ISOLATED (i : Nat) : Fld := ⟨0x1010000 + 0x20 * i, 2, 1, 0⟩
def INS_INST_STAT_DRAINED (i : Nat) : Fld := ⟨0x1010000 + 0x20 * i, 3, 1, 0⟩
def INS_INST_STAT_RESET_PENDING (i : Nat) : Fld := ⟨0x1010000 + 0x20 * i, 4, 1, 0⟩
def INS_INST_STAT_GEN (i : Nat) : Fld := ⟨0x1010000 + 0x20 * i, 5, 8, 0⟩
def INS_INST_STAT_OWNER (i : Nat) : Fld := ⟨0x1010000 + 0x20 * i, 13, 10, 0⟩
def INS_INST_SHARE_HP_HP_MIN (i : Nat) : Fld := ⟨0x1010004 + 0x20 * i, 0, 16, 16⟩
def INS_INST_SHARE_HP_HP_WEIGHT (i : Nat) : Fld := ⟨0x1010004 + 0x20 * i, 16, 8, 16⟩
def INS_INST_SHARE_DMA_MIN (i : Nat) : Fld := ⟨0x1010008 + 0x20 * i, 0, 16, 0⟩
def INS_INST_SHARE_DMA_WEIGHT (i : Nat) : Fld := ⟨0x1010008 + 0x20 * i, 16, 8, 16⟩
def INS_INST_SHARE_REC_MIN (i : Nat) : Fld := ⟨0x101000c + 0x20 * i, 0, 16, 0⟩
def INS_INST_SHARE_REC_WEIGHT (i : Nat) : Fld := ⟨0x101000c + 0x20 * i, 16, 8, 16⟩
def INS_INST_XLT_XLT_PAGES (i : Nat) : Fld := ⟨0x1010010 + 0x20 * i, 0, 21, 0⟩
def INS_INST_XLT_PAGE (i : Nat) : Fld := ⟨0x1010010 + 0x20 * i, 21, 1, 0⟩
def INS_INST_VIOL_WIN_CNT (i : Nat) : Fld := ⟨0x1010014 + 0x20 * i, 0, 16, 0⟩
def INS_INST_VIOL_LAST_CAUSE (i : Nat) : Fld := ⟨0x1010014 + 0x20 * i, 16, 4, 0⟩
def INS_INST_USE_EXPORT_MBPS (i : Nat) : Fld := ⟨0x1010018 + 0x20 * i, 0, 16, 0⟩
def INS_INST_USE_FLT_MMACS (i : Nat) : Fld := ⟨0x1010018 + 0x20 * i, 16, 16, 0⟩
def INS_INST_LATE_CNT_CNT (i : Nat) : Fld := ⟨0x101001c + 0x20 * i, 0, 32, 0⟩
def MEM_STATUS_DRAM_READY : Fld := ⟨0x1100000, 0, 1, 0⟩
def MEM_STATUS_SCRUB_ON : Fld := ⟨0x1100000, 1, 1, 0⟩
def MEM_STATUS_USABLE_MIB : Fld := ⟨0x1100000, 2, 16, 0⟩
def MEM_SCRUB0_PASS_CNT (m : Nat) : Fld := ⟨0x1100100 + 0x10 * m, 0, 32, 0⟩
def MEM_SCRUB1_PROGRESS (m : Nat) : Fld := ⟨0x1100104 + 0x10 * m, 0, 7, 0⟩
def MEM_SCRUB2_LAST_PASS_S (m : Nat) : Fld := ⟨0x1100108 + 0x10 * m, 0, 17, 0⟩
def MEM_CE_CNT_CNT (m : Nat) : Fld := ⟨0x1100200 + 0x8 * m, 0, 32, 0⟩
def MEM_UE_CNT_CNT (m : Nat) : Fld := ⟨0x1100204 + 0x8 * m, 0, 32, 0⟩
def ERR_CTRL_LOG_EN : Fld := ⟨0x1108000, 0, 1, 1⟩
def ERR_CTRL_IRQ_MASK : Fld := ⟨0x1108000, 1, 4, 6⟩
def ERR_CTRL_IRQ_VECTOR : Fld := ⟨0x1108000, 5, 9, 0⟩
def ERR_CTRL_CE_LIMIT : Fld := ⟨0x1108000, 14, 16, 100⟩
def ERR_SRC_STK_SRC_STK : Fld := ⟨0x1108004, 0, 28, 0⟩
def ERR_STATUS_LOG_NEXT : Fld := ⟨0x1108008, 0, 6, 0⟩
def ERR_STATUS_LOG_OVF_STK : Fld := ⟨0x1108008, 6, 1, 0⟩
def ERR_STATUS_FIRST_VALID : Fld := ⟨0x1108008, 7, 1, 0⟩
def ERR_PERSIST_CNT_CNT : Fld := ⟨0x110800c, 0, 32, 0⟩
def ERR_FIRST_ENTRY (w : Nat) : Fld := ⟨0x1108010 + 0x4 * w, 0, 32, 0⟩
def ERR_INJECT_ARM : Fld := ⟨0x1108020, 0, 1, 0⟩
def ERR_INJECT_MEM : Fld := ⟨0x1108020, 1, 3, 0⟩
def ERR_INJECT_TWO : Fld := ⟨0x1108020, 4, 1, 0⟩
def ERR_INJECT_SYM_A : Fld := ⟨0x1108020, 5, 6, 0⟩
def ERR_INJECT_SYM_B : Fld := ⟨0x1108020, 11, 6, 0⟩
def ERR_INJECT_INJ_DONE_FLG : Fld := ⟨0x1108020, 17, 1, 0⟩
def ERR_SRC_CNT_CNT (s : Nat) : Fld := ⟨0x1108100 + 0x4 * s, 0, 32, 0⟩
def ERR_LOG_ENTRY (i w : Nat) : Fld := ⟨0x1108400 + 0x10 * i + 0x4 * w, 0, 32, 0⟩
def VFW_DB_DB (g : Nat) : Fld := ⟨0x100000000 + 0x10000 * g, 0, 32, 0⟩
def VFW_SNAP_DESC_LO_ADDR (g : Nat) : Fld := ⟨0x100000010 + 0x10000 * g, 0, 32, 0⟩
def VFW_SNAP_DESC_HI_ADDR (g : Nat) : Fld := ⟨0x100000014 + 0x10000 * g, 0, 32, 0⟩
def VFW_SNAP_RES_LO_ADDR (g : Nat) : Fld := ⟨0x100000018 + 0x10000 * g, 0, 32, 0⟩
def VFW_SNAP_RES_HI_ADDR (g : Nat) : Fld := ⟨0x10000001c + 0x10000 * g, 0, 32, 0⟩
def VFW_SNAP_CMD_GO (g : Nat) : Fld := ⟨0x100000020 + 0x10000 * g, 0, 1, 0⟩
def VFW_SNAP_STAT_BUSY (g : Nat) : Fld := ⟨0x100000024 + 0x10000 * g, 0, 1, 0⟩
def VFW_SNAP_STAT_DONE_FLG (g : Nat) : Fld := ⟨0x100000024 + 0x10000 * g, 1, 1, 0⟩

end R

/-- Register descriptions, part 0. -/
def regTable0 : List RDesc := [
  ⟨0x0, [], [⟨0, 16, .ro, 25650, false⟩, ⟨16, 8, .ro, 16, false⟩, ⟨24, 1, .ro, 0, false⟩]⟩,
  ⟨0x4, [], [⟨0, 3, .ro, 0, false⟩, ⟨3, 3, .ro, 0, false⟩, ⟨6, 1, .ro, 0, false⟩]⟩,
  ⟨0x8, [], [⟨0, 16, .ro, 0, false⟩]⟩,
  ⟨0xc, [], [⟨0, 1, .w1c, 1, false⟩, ⟨1, 1, .w1c, 0, false⟩, ⟨2, 1, .w1c, 0, false⟩, ⟨3, 1, .w1c, 0, false⟩, ⟨4, 1, .w1c, 0, false⟩, ⟨5, 1, .w1c, 0, false⟩]⟩,
  ⟨0x10, [], [⟨0, 32, .wo, 0, false⟩]⟩,
  ⟨0x14, [], [⟨0, 16, .ro, 0, false⟩, ⟨16, 16, .ro, 0, false⟩]⟩,
  ⟨0x18, [], [⟨0, 16, .ro, 0, false⟩, ⟨16, 1, .ro, 0, false⟩, ⟨17, 1, .w1c, 0, false⟩]⟩,
  ⟨0x1c, [], [⟨0, 8, .ro, 0, false⟩, ⟨8, 8, .ro, 0, false⟩, ⟨16, 1, .w1c, 0, false⟩, ⟨17, 1, .w1c, 0, false⟩]⟩,
  ⟨0x24, [], [⟨0, 8, .ro, 0, false⟩, ⟨8, 8, .ro, 0, false⟩, ⟨16, 1, .w1c, 0, false⟩]⟩,
  ⟨0x28, [], [⟨0, 1, .ro, 0, false⟩, ⟨1, 1, .ro, 0, false⟩, ⟨2, 1, .ro, 0, false⟩, ⟨3, 1, .w1c, 0, false⟩, ⟨16, 16, .rc, 0, false⟩]⟩,
  ⟨0x2c, [], [⟨0, 16, .ro, 0, false⟩, ⟨16, 1, .ro, 0, false⟩, ⟨17, 1, .ro, 0, false⟩, ⟨18, 1, .ro, 0, false⟩]⟩,
  ⟨0x30, [], [⟨0, 1, .rw, 0, false⟩]⟩,
  ⟨0x40, [], [⟨0, 2, .rw, 0, false⟩]⟩,
  ⟨0x100000, [], [⟨0, 2, .ro, 3, false⟩, ⟨2, 2, .ro, 0, false⟩, ⟨4, 2, .ro, 0, false⟩, ⟨6, 4, .ro, 0, false⟩, ⟨10, 4, .ro, 0, false⟩, ⟨14, 1, .ro, 0, false⟩, ⟨15, 1, .ro, 0, false⟩, ⟨16, 11, .ro, 0, false⟩]⟩,
  ⟨0x100004, [], [⟨0, 32, .ro, 0, false⟩]⟩,
  ⟨0x100008, [], [⟨0, 32, .ro, 0, false⟩]⟩,
  ⟨0x10000c, [], [⟨0, 32, .ro, 0, false⟩]⟩,
  ⟨0x100010, [], [⟨0, 16, .ro, 0, false⟩]⟩,
  ⟨0x100014, [], [⟨0, 20, .ro, 0, false⟩, ⟨20, 1, .w1c, 0, false⟩]⟩,
  ⟨0x100018, [], [⟨0, 16, .ro, 0, false⟩]⟩,
  ⟨0x100020, [], [⟨0, 2, .wo, 0, false⟩]⟩,
  ⟨0x100024, [], [⟨0, 3, .ro, 0, false⟩, ⟨8, 4, .ro, 0, false⟩]⟩,
  ⟨0x100040, [], [⟨0, 32, .rw, 0, false⟩]⟩,
  ⟨0x100044, [], [⟨0, 32, .rw, 0, false⟩]⟩,
  ⟨0x100048, [], [⟨0, 27, .rw, 0, false⟩]⟩,
  ⟨0x10004c, [], [⟨0, 1, (.rws 0), 0, false⟩, ⟨1, 1, (.rws 0), 0, false⟩, ⟨16, 12, (.rws 0), 0, false⟩]⟩,
  ⟨0x100050, [], [⟨0, 3, .ro, 0, false⟩, ⟨3, 4, .ro, 0, false⟩, ⟨7, 4, .ro, 0, false⟩, ⟨11, 7, .ro, 0, false⟩, ⟨18, 1, .w1c, 0, false⟩]⟩,
  ⟨0x100060, [(0x8, 2)], [⟨0, 32, .ro, 0, false⟩]⟩,
  ⟨0x100064, [(0x8, 2)], [⟨0, 32, .ro, 0, false⟩]⟩,
  ⟨0x110000, [(0x10, 1024), (0x4, 4)], [⟨0, 32, .ro, 0, false⟩]⟩,
  ⟨0x200000, [], [⟨0, 2, .ro, 0, false⟩, ⟨2, 1, .ro, 0, false⟩, ⟨3, 1, .ro, 0, false⟩, ⟨4, 1, .ro, 0, false⟩, ⟨5, 1, .w1c, 0, false⟩, ⟨6, 1, .w1c, 0, false⟩, ⟨7, 1, .w1c, 0, false⟩, ⟨8, 1, .ro, 0, false⟩]⟩,
  ⟨0x200004, [], [⟨0, 30, .ro, 0, false⟩]⟩,
  ⟨0x200008, [], [⟨0, 32, .ro, 0, false⟩]⟩,
  ⟨0x20000c, [], [⟨0, 32, .ro, 0, false⟩]⟩,
  ⟨0x200010, [], [⟨0, 32, .ro, 0, false⟩]⟩,
  ⟨0x200014, [], [⟨0, 32, .ro, 0, false⟩]⟩,
  ⟨0x200018, [], [⟨0, 32, .ro, 0, false⟩]⟩,
  ⟨0x20001c, [], [⟨0, 32, .ro, 0, false⟩]⟩,
  ⟨0x200020, [], [⟨0, 32, .ro, 0, false⟩]⟩,
  ⟨0x200024, [], [⟨0, 32, .ro, 0, false⟩]⟩]

/-- Register descriptions, part 1. -/
def regTable1 : List RDesc := [
  ⟨0x200028, [], [⟨0, 32, .ro, 0, false⟩]⟩,
  ⟨0x20002c, [], [⟨0, 16, .rw, 45875, true⟩, ⟨16, 16, .rw, 19661, true⟩]⟩,
  ⟨0x200030, [], [⟨0, 19, .rw, 100000, true⟩, ⟨19, 1, (.rws 3), 0, true⟩]⟩,
  ⟨0x200034, [], [⟨0, 20, .rw, 1000, true⟩]⟩,
  ⟨0x200038, [], [⟨0, 14, .rw, 100, true⟩, ⟨14, 4, .rw, 4, true⟩, ⟨18, 3, .rw, 7, true⟩, ⟨21, 8, .rw, 10, true⟩]⟩,
  ⟨0x20003c, [], [⟨0, 16, .rw, 3000, true⟩, ⟨16, 1, .ro, 0, true⟩]⟩,
  ⟨0x200040, [], [⟨0, 8, .ro, 37, true⟩, ⟨8, 1, .ro, 0, false⟩, ⟨9, 1, .ro, 0, false⟩, ⟨10, 1, .ro, 0, false⟩]⟩,
  ⟨0x200044, [], [⟨0, 32, .ro, 0, false⟩]⟩,
  ⟨0x200048, [], [⟨0, 32, .ro, 0, false⟩]⟩,
  ⟨0x20004c, [], [⟨0, 32, .ro, 0, false⟩]⟩,
  ⟨0x200050, [], [⟨0, 20, .ro, 0, false⟩]⟩,
  ⟨0x200100, [(0x20, 4)], [⟨0, 1, .rw, 0, true⟩, ⟨1, 1, .rw, 0, true⟩, ⟨8, 8, .rw, 0, true⟩]⟩,
  ⟨0x200104, [(0x20, 4)], [⟨0, 32, .rw, 0, false⟩]⟩,
  ⟨0x200108, [(0x20, 4)], [⟨0, 32, .rw, 0, false⟩]⟩,
  ⟨0x20010c, [(0x20, 4)], [⟨0, 32, .rw, 0, false⟩]⟩,
  ⟨0x200110, [(0x20, 4)], [⟨0, 30, .ro, 0, false⟩]⟩,
  ⟨0x200114, [(0x20, 4)], [⟨0, 32, .ro, 0, false⟩]⟩,
  ⟨0x200118, [(0x20, 4)], [⟨0, 32, .ro, 0, false⟩]⟩,
  ⟨0x200200, [(0x4, 8)], [⟨0, 32, .rc, 0, false⟩]⟩,
  ⟨0x300000, [(0x10000, 11)], [⟨0, 1, .rw, 1, true⟩, ⟨1, 2, .rw, 0, true⟩, ⟨3, 2, .rw, 0, true⟩, ⟨5, 2, .ro, 0, true⟩, ⟨7, 1, .ro, 0, true⟩, ⟨8, 14, .rw, 1536, true⟩]⟩,
  ⟨0x300004, [(0x10000, 11)], [⟨0, 1, .ro, 0, false⟩, ⟨1, 2, .ro, 0, false⟩, ⟨3, 1, .ro, 0, false⟩, ⟨4, 1, .ro, 0, false⟩, ⟨5, 1, .ro, 0, false⟩, ⟨6, 1, .ro, 0, false⟩, ⟨7, 1, .ro, 0, false⟩, ⟨8, 1, .w1c, 0, false⟩, ⟨9, 1, .w1c, 0, false⟩, ⟨10, 1, .w1c, 0, false⟩, ⟨11, 1, .ro, 0, false⟩]⟩,
  ⟨0x300008, [(0x10000, 11)], [⟨0, 16, .ro, 0, false⟩, ⟨16, 16, .ro, 0, false⟩]⟩,
  ⟨0x30000c, [(0x10000, 11)], [⟨0, 1, .rw, 0, true⟩, ⟨1, 1, .rw, 0, true⟩, ⟨8, 8, .rw, 240, true⟩]⟩,
  ⟨0x300010, [(0x10000, 11)], [⟨0, 8, .ro, 0, false⟩]⟩,
  ⟨0x300014, [(0x10000, 11)], [⟨0, 14, .rw, 2000, true⟩]⟩,
  ⟨0x300020, [(0x10000, 11), (0x4, 8)], [⟨0, 14, .rw, 0, true⟩]⟩,
  ⟨0x300040, [(0x10000, 11)], [⟨0, 1, .ro, 0, false⟩, ⟨1, 1, .ro, 0, false⟩]⟩,
  ⟨0x300100, [(0x10000, 11), (0x4, 16)], [⟨0, 32, .rc, 0, false⟩]⟩,
  ⟨0x300200, [(0x10000, 11), (0x4, 4)], [⟨0, 32, .ro, 0, false⟩]⟩,
  ⟨0x300210, [(0x10000, 11)], [⟨0, 1, .wo, 0, false⟩]⟩,
  ⟨0x300214, [(0x10000, 11)], [⟨0, 10, .ro, 0, false⟩]⟩,
  ⟨0x400000, [], [⟨0, 16, .rw, 300, true⟩, ⟨16, 1, .wo, 0, false⟩]⟩,
  ⟨0x400004, [], [⟨0, 17, .ro, 0, false⟩, ⟨17, 1, .w1c, 0, false⟩]⟩,
  ⟨0x400008, [], [⟨0, 17, .ro, 0, false⟩]⟩,
  ⟨0x40000c, [], [⟨0, 17, .ro, 0, false⟩]⟩,
  ⟨0x400018, [], [⟨0, 17, .ro, 0, false⟩]⟩,
  ⟨0x400010, [], [⟨0, 2, .wo, 0, false⟩, ⟨2, 3, .wo, 0, false⟩, ⟨5, 17, .wo, 0, false⟩]⟩,
  ⟨0x400014, [], [⟨0, 1, .ro, 0, false⟩, ⟨1, 3, .ro, 0, false⟩]⟩,
  ⟨0x400020, [(0x4, 4)], [⟨0, 32, .rw, 0, false⟩]⟩,
  ⟨0x400100, [(0x10, 4)], [⟨0, 1, .rw, 0, true⟩, ⟨1, 4, .rw, 0, true⟩, ⟨5, 3, .rw, 0, true⟩, ⟨8, 12, .rw, 0, true⟩]⟩]

/-- Register descriptions, part 2. -/
def regTable2 : List RDesc := [
  ⟨0x400104, [(0x10, 4)], [⟨0, 12, .rw, 0, true⟩, ⟨12, 12, .rw, 0, true⟩]⟩,
  ⟨0x400400, [(0x20, 12)], [⟨0, 12, .rw, 1, true⟩, ⟨12, 3, .rw, 0, true⟩, ⟨15, 1, .rw, 0, true⟩, ⟨16, 1, .rw, 0, true⟩, ⟨17, 1, .rw, 1, true⟩]⟩,
  ⟨0x400404, [(0x20, 12)], [⟨0, 24, .rw, 16434824, true⟩]⟩,
  ⟨0x400408, [(0x20, 12)], [⟨0, 1, .ro, 0, false⟩, ⟨1, 1, .w1c, 0, false⟩, ⟨2, 1, .w1c, 0, false⟩]⟩,
  ⟨0x401000, [(0x100, 12), (0x20, 8)], [⟨0, 16, .rw, 32, true⟩, ⟨16, 8, .rw, 64, true⟩, ⟨24, 8, .rw, 1, true⟩]⟩,
  ⟨0x401004, [(0x100, 12), (0x20, 8)], [⟨0, 16, .rw, 0, true⟩]⟩,
  ⟨0x401008, [(0x100, 12), (0x20, 8)], [⟨0, 32, .rw, 16384, true⟩]⟩,
  ⟨0x40100c, [(0x100, 12), (0x20, 8)], [⟨0, 17, .ro, 0, false⟩]⟩,
  ⟨0x401010, [(0x100, 12), (0x20, 8)], [⟨0, 32, .ro, 0, false⟩]⟩,
  ⟨0x404000, [(0x40, 12), (0x4, 16)], [⟨0, 32, .rc, 0, false⟩]⟩,
  ⟨0x408000, [(0x4, 4096)], [⟨0, 17, .ro, 0, false⟩]⟩,
  ⟨0x40c000, [(0x4, 4096)], [⟨0, 32, .rc, 0, false⟩]⟩,
  ⟨0x500000, [], [⟨0, 1, .rw, 1, true⟩]⟩,
  ⟨0x500004, [], [⟨0, 4, .ro, 0, false⟩, ⟨4, 1, .w1c, 0, false⟩]⟩,
  ⟨0x500008, [], [⟨0, 27, .ro, 0, false⟩]⟩,
  ⟨0x50000c, [], [⟨0, 27, .ro, 0, false⟩]⟩,
  ⟨0x500010, [], [⟨0, 32, .rc, 0, false⟩]⟩,
  ⟨0x500100, [(0x20, 4)], [⟨0, 1, .ro, 0, true⟩, ⟨1, 3, .ro, 1, true⟩, ⟨4, 16, .ro, 1, true⟩]⟩,
  ⟨0x500104, [(0x20, 4)], [⟨0, 21, .rw, 200000, true⟩, ⟨21, 1, .w1c, 0, false⟩]⟩,
  ⟨0x500108, [(0x20, 4)], [⟨0, 11, .ro, 256, true⟩]⟩,
  ⟨0x50010c, [(0x20, 4)], [⟨0, 32, .ro, 0, false⟩]⟩,
  ⟨0x500110, [(0x20, 4)], [⟨0, 32, .ro, 0, false⟩]⟩,
  ⟨0x500114, [(0x20, 4)], [⟨0, 32, .ro, 0, false⟩]⟩,
  ⟨0x500200, [(0x20, 4), (0x4, 8)], [⟨0, 32, .rc, 0, false⟩]⟩,
  ⟨0x510000, [(0x80, 2048)], [⟨0, 1, .rw, 1, true⟩, ⟨1, 3, .ro, 1, true⟩, ⟨4, 4, .ro, 1, true⟩, ⟨8, 6, .ro, 8, true⟩, ⟨14, 2, .rw, 0, true⟩, ⟨16, 2, .rw, 0, true⟩, ⟨18, 1, .rw, 0, true⟩, ⟨19, 1, .rw, 0, true⟩, ⟨20, 1, .ro, 0, true⟩, ⟨21, 1, .ro, 0, true⟩]⟩,
  ⟨0x510004, [(0x80, 2048)], [⟨0, 16, .ro, 16384, true⟩, ⟨16, 12, .ro, 0, true⟩]⟩,
  ⟨0x510008, [(0x80, 2048)], [⟨0, 16, .rw, 4, true⟩, ⟨16, 8, .rw, 8, true⟩, ⟨24, 8, .rw, 16, true⟩]⟩,
  ⟨0x51000c, [(0x80, 2048)], [⟨0, 2, .ro, 0, false⟩, ⟨2, 1, .ro, 0, false⟩, ⟨3, 1, .ro, 0, false⟩, ⟨4, 4, .ro, 0, false⟩, ⟨8, 8, .ro, 0, false⟩, ⟨16, 1, .w1c, 0, false⟩]⟩,
  ⟨0x510010, [(0x80, 2048)], [⟨0, 32, .ro, 0, false⟩]⟩,
  ⟨0x510014, [(0x80, 2048)], [⟨0, 32, .ro, 0, false⟩]⟩,
  ⟨0x510040, [(0x80, 2048), (0x4, 16)], [⟨0, 32, .rc, 0, false⟩]⟩,
  ⟨0x580000, [(0x4, 65536)], [⟨0, 21, .ro, 0, false⟩]⟩,
  ⟨0x600000, [], [⟨0, 1, .rw, 1, true⟩]⟩,
  ⟨0x600004, [], [⟨0, 17, .ro, 0, false⟩]⟩,
  ⟨0x600008, [], [⟨0, 16, .ro, 0, false⟩]⟩,
  ⟨0x60000c, [], [⟨0, 17, .ro, 0, false⟩]⟩,
  ⟨0x600010, [], [⟨0, 27, .ro, 0, false⟩]⟩,
  ⟨0x600014, [], [⟨0, 16, .ro, 0, false⟩, ⟨16, 14, .ro, 0, false⟩]⟩,
  ⟨0x600020, [], [⟨0, 18, .rw, 0, false⟩]⟩,
  ⟨0x600024, [], [⟨0, 32, (.rws 3), 0, true⟩]⟩]

/-- Register descriptions, part 3. -/
def regTable3 : List RDesc := [
  ⟨0x600028, [], [⟨0, 1, .w1c, 0, false⟩]⟩,
  ⟨0x600040, [], [⟨0, 16, .rw, 0, false⟩]⟩,
  ⟨0x600044, [], [⟨0, 2, .ro, 0, true⟩, ⟨2, 9, .ro, 16, true⟩, ⟨11, 16, .ro, 0, true⟩]⟩,
  ⟨0x600048, [], [⟨0, 10, .ro, 0, true⟩, ⟨10, 9, .ro, 0, true⟩, ⟨19, 6, .ro, 0, true⟩]⟩,
  ⟨0x60004c, [], [⟨0, 10, .ro, 0, true⟩, ⟨10, 9, .ro, 0, true⟩, ⟨19, 6, .ro, 0, true⟩]⟩,
  ⟨0x600050, [], [⟨0, 10, .ro, 0, true⟩, ⟨10, 9, .ro, 0, true⟩, ⟨19, 6, .ro, 0, true⟩]⟩,
  ⟨0x600054, [], [⟨0, 20, .ro, 0, false⟩]⟩,
  ⟨0x600100, [(0x4, 8)], [⟨0, 32, .rc, 0, false⟩]⟩,
  ⟨0x601000, [(0x4, 1024)], [⟨0, 18, (.rws 3), 0, true⟩, ⟨18, 9, (.rws 3), 1, true⟩, ⟨27, 1, (.rws 3), 0, true⟩, ⟨28, 1, (.rws 3), 0, true⟩]⟩,
  ⟨0x640000, [(0x4, 65536)], [⟨0, 32, .ro, 0, false⟩]⟩,
  ⟨0x680000, [(0x4, 65536)], [⟨0, 2, .ro, 3, false⟩, ⟨2, 1, .ro, 0, false⟩, ⟨3, 1, .ro, 0, false⟩, ⟨4, 1, .w1c, 0, false⟩, ⟨5, 1, .w1c, 0, false⟩, ⟨6, 9, .ro, 0, false⟩]⟩,
  ⟨0x6c0000, [(0x4, 65536)], [⟨0, 2, (.rws 3), 0, false⟩, ⟨2, 2, (.rws 3), 0, false⟩, ⟨4, 10, (.rws 3), 0, false⟩, ⟨14, 9, (.rws 3), 0, false⟩]⟩,
  ⟨0x700000, [], [⟨0, 1, .rw, 1, true⟩, ⟨1, 6, .ro, 48, true⟩, ⟨7, 1, .rw, 1, true⟩, ⟨8, 1, .rw, 0, true⟩, ⟨9, 7, .rw, 75, true⟩]⟩,
  ⟨0x700004, [], [⟨0, 14, .ro, 0, false⟩, ⟨14, 8, .ro, 0, false⟩]⟩,
  ⟨0x700008, [], [⟨0, 17, .ro, 0, false⟩]⟩,
  ⟨0x700010, [], [⟨0, 32, .ro, 0, false⟩]⟩,
  ⟨0x700014, [], [⟨0, 32, .wo, 0, false⟩]⟩,
  ⟨0x700020, [], [⟨0, 21, .ro, 0, false⟩, ⟨21, 1, .w1c, 0, false⟩]⟩,
  ⟨0x700030, [(0x4, 4)], [⟨0, 32, .ro, 0, false⟩]⟩,
  ⟨0x700040, [], [⟨0, 1, .wo, 0, false⟩]⟩,
  ⟨0x700044, [], [⟨0, 32, .rc, 0, false⟩]⟩,
  ⟨0x700080, [], [⟨0, 13, .wo, 0, false⟩, ⟨13, 2, .wo, 0, false⟩]⟩,
  ⟨0x700084, [], [⟨0, 3, .ro, 0, false⟩, ⟨3, 1, .w1c, 0, false⟩]⟩,
  ⟨0x700100, [(0x4, 16)], [⟨0, 32, .rc, 0, false⟩]⟩,
  ⟨0x700200, [(0x4, 8)], [⟨0, 12, (.rws 3), 0, false⟩, ⟨12, 4, (.rws 3), 0, false⟩]⟩,
  ⟨0x7c0000, [(0x4000, 8), (0x4, 4096)], [⟨0, 32, (.rws 3), 0, false⟩]⟩,
  ⟨0x701000, [(0x20, 256)], [⟨0, 1, (.rws 2), 0, false⟩, ⟨1, 2, (.rws 2), 0, false⟩, ⟨3, 13, (.rws 2), 0, false⟩]⟩,
  ⟨0x701004, [(0x20, 256)], [⟨0, 18, (.rws 2), 0, false⟩]⟩,
  ⟨0x701008, [(0x20, 256)], [⟨0, 32, (.rws 2), 0, false⟩]⟩,
  ⟨0x70100c, [(0x20, 256)], [⟨0, 32, (.rws 2), 0, false⟩]⟩,
  ⟨0x701010, [(0x20, 256)], [⟨0, 1, .ro, 0, false⟩, ⟨1, 1, .ro, 0, false⟩, ⟨2, 1, .w1c, 0, false⟩]⟩,
  ⟨0x701014, [(0x20, 256)], [⟨0, 32, .ro, 0, false⟩]⟩,
  ⟨0x701018, [(0x20, 256)], [⟨0, 32, .ro, 0, false⟩]⟩,
  ⟨0x710000, [(0x10, 8192)], [⟨0, 2, .ro, 0, false⟩, ⟨2, 1, .ro, 0, false⟩, ⟨3, 4, .ro, 0, false⟩, ⟨7, 1, .ro, 0, false⟩, ⟨8, 8, .ro, 0, false⟩, ⟨16, 1, .w1c, 0, false⟩]⟩,
  ⟨0x710004, [(0x10, 8192)], [⟨0, 32, .ro, 0, false⟩]⟩,
  ⟨0x710008, [(0x10, 8192)], [⟨0, 32, .rc, 0, false⟩]⟩,
  ⟨0x71000c, [(0x10, 8192)], [⟨0, 32, .rc, 0, false⟩]⟩,
  ⟨0x730000, [(0x10, 2048)], [⟨0, 32, .ro, 0, false⟩]⟩,
  ⟨0x730004, [(0x10, 2048)], [⟨0, 32, .ro, 0, false⟩]⟩,
  ⟨0x730008, [(0x10, 2048)], [⟨0, 32, .ro, 0, false⟩]⟩]

/-- Register descriptions, part 4. -/
def regTable4 : List RDesc := [
  ⟨0x73000c, [(0x10, 2048)], [⟨0, 16, .ro, 0, false⟩]⟩,
  ⟨0x740020, [(0x40, 8192), (0x4, 8)], [⟨0, 32, .rc, 0, false⟩]⟩,
  ⟨0x740000, [(0x40, 8192)], [⟨0, 2, .ro, 0, false⟩, ⟨2, 1, .ro, 0, false⟩, ⟨3, 4, .ro, 0, false⟩, ⟨7, 1, .w1c, 0, false⟩]⟩,
  ⟨0x740004, [(0x40, 8192)], [⟨0, 32, .ro, 0, false⟩]⟩,
  ⟨0x740008, [(0x40, 8192)], [⟨0, 32, .ro, 0, false⟩]⟩,
  ⟨0x74000c, [(0x40, 8192)], [⟨0, 32, .ro, 0, false⟩]⟩,
  ⟨0x800000, [], [⟨0, 1, .rw, 1, true⟩, ⟨1, 8, .rw, 3, true⟩]⟩,
  ⟨0x800004, [], [⟨0, 6, .ro, 0, false⟩, ⟨6, 6, .ro, 0, false⟩]⟩,
  ⟨0x800008, [], [⟨0, 32, .ro, 4294967295, false⟩]⟩,
  ⟨0x80000c, [], [⟨0, 9, .ro, 128, true⟩, ⟨9, 17, .ro, 94208, true⟩]⟩,
  ⟨0x800010, [], [⟨0, 5, .wo, 0, false⟩, ⟨5, 2, .wo, 0, false⟩]⟩,
  ⟨0x800014, [], [⟨0, 3, .ro, 0, false⟩, ⟨3, 1, .w1c, 0, false⟩]⟩,
  ⟨0x800018, [], [⟨0, 8, .ro, 0, false⟩]⟩,
  ⟨0x800100, [(0x10, 32)], [⟨0, 3, .ro, 1, false⟩, ⟨3, 1, .ro, 0, false⟩, ⟨4, 4, .ro, 0, false⟩, ⟨8, 8, .ro, 0, false⟩, ⟨16, 1, .w1c, 0, false⟩]⟩,
  ⟨0x800104, [(0x10, 32)], [⟨0, 32, .rc, 0, false⟩]⟩,
  ⟨0x800108, [(0x10, 32)], [⟨0, 7, .ro, 0, false⟩]⟩,
  ⟨0x80010c, [(0x10, 32)], [⟨0, 32, .rc, 0, false⟩]⟩,
  ⟨0x800400, [(0x40, 32), (0x10, 4)], [⟨0, 1, .ro, 0, false⟩, ⟨1, 6, .ro, 0, false⟩, ⟨7, 13, .ro, 0, false⟩, ⟨20, 12, .ro, 0, false⟩]⟩,
  ⟨0x800404, [(0x40, 32), (0x10, 4)], [⟨0, 32, .ro, 0, false⟩]⟩,
  ⟨0x800408, [(0x40, 32), (0x10, 4)], [⟨0, 18, .ro, 0, false⟩]⟩,
  ⟨0x801000, [(0x4, 8)], [⟨0, 32, .rc, 0, false⟩]⟩,
  ⟨0x802000, [(0x20, 256)], [⟨0, 8, .ro, 0, false⟩, ⟨8, 5, .ro, 0, false⟩, ⟨13, 2, .ro, 0, false⟩, ⟨16, 16, .ro, 0, false⟩]⟩,
  ⟨0x802004, [(0x20, 256)], [⟨0, 18, .ro, 0, false⟩, ⟨18, 13, .ro, 0, false⟩]⟩,
  ⟨0x802008, [(0x20, 256)], [⟨0, 12, .ro, 0, false⟩, ⟨12, 8, .ro, 0, false⟩]⟩,
  ⟨0x80200c, [(0x20, 256)], [⟨0, 32, .ro, 0, false⟩]⟩,
  ⟨0x802010, [(0x20, 256)], [⟨0, 32, .ro, 0, false⟩]⟩,
  ⟨0x802014, [(0x20, 256)], [⟨0, 32, .ro, 0, false⟩]⟩,
  ⟨0x804000, [], [⟨0, 1, .rw, 0, false⟩, ⟨1, 5, .rw, 0, false⟩, ⟨6, 1, .rw, 0, false⟩, ⟨7, 12, .rw, 0, false⟩]⟩,
  ⟨0x804004, [], [⟨0, 18, .rw, 0, false⟩]⟩,
  ⟨0x804008, [], [⟨0, 1, .w1c, 0, false⟩, ⟨1, 2, .ro, 0, false⟩]⟩,
  ⟨0x805000, [(0x4, 392)], [⟨0, 32, .ro, 0, false⟩]⟩,
  ⟨0x900000, [], [⟨0, 1, .rw, 0, true⟩, ⟨1, 1, .rw, 1, true⟩]⟩,
  ⟨0x900004, [], [⟨0, 1, .ro, 0, false⟩, ⟨8, 8, .ro, 0, false⟩, ⟨16, 9, .ro, 0, false⟩]⟩,
  ⟨0x900008, [], [⟨0, 32, .ro, 0, false⟩]⟩,
  ⟨0x90000c, [], [⟨0, 32, .ro, 0, false⟩]⟩,
  ⟨0x900010, [], [⟨0, 32, .ro, 0, false⟩]⟩,
  ⟨0x900014, [], [⟨0, 14, .rw, 100, true⟩]⟩,
  ⟨0x900018, [], [⟨0, 32, .rc, 0, false⟩]⟩,
  ⟨0x900020, [(0x4, 8)], [⟨0, 32, .rc, 0, false⟩]⟩,
  ⟨0x900040, [], [⟨0, 32, .rc, 0, false⟩]⟩]

/-- Register descriptions, part 5. -/
def regTable5 : List RDesc := [
  ⟨0x900044, [], [⟨0, 32, .rc, 0, false⟩]⟩,
  ⟨0x900200, [(0x20, 8)], [⟨0, 3, .wo, 0, false⟩]⟩,
  ⟨0x900204, [(0x20, 8)], [⟨0, 3, .ro, 0, false⟩, ⟨3, 1, .ro, 0, false⟩, ⟨4, 4, .ro, 0, false⟩, ⟨8, 11, .ro, 0, false⟩, ⟨19, 10, .ro, 0, false⟩]⟩,
  ⟨0x900208, [(0x20, 8)], [⟨0, 32, .rw, 0, false⟩]⟩,
  ⟨0x90020c, [(0x20, 8)], [⟨0, 32, .wo, 0, false⟩]⟩,
  ⟨0x900210, [(0x20, 8)], [⟨0, 32, .rw, 0, false⟩]⟩,
  ⟨0x900214, [(0x20, 8)], [⟨0, 32, .ro, 0, false⟩]⟩,
  ⟨0x900218, [(0x20, 8)], [⟨0, 32, .ro, 0, false⟩]⟩,
  ⟨0x900300, [], [⟨0, 32, .rw, 0, false⟩]⟩,
  ⟨0x900304, [], [⟨0, 32, .rw, 0, false⟩]⟩,
  ⟨0x900308, [], [⟨0, 32, .rw, 0, false⟩]⟩,
  ⟨0x90030c, [], [⟨0, 32, .rw, 0, false⟩]⟩,
  ⟨0x900310, [], [⟨0, 1, .wo, 0, false⟩]⟩,
  ⟨0x900314, [], [⟨0, 1, .ro, 0, false⟩, ⟨1, 1, .w1c, 0, false⟩]⟩,
  ⟨0x901000, [(0x10, 256)], [⟨0, 1, .ro, 0, true⟩, ⟨1, 6, .ro, 0, true⟩, ⟨8, 20, .rw, 250, true⟩]⟩,
  ⟨0x901004, [(0x10, 256)], [⟨0, 3, .ro, 0, false⟩, ⟨3, 1, .w1c, 0, false⟩]⟩,
  ⟨0x901008, [(0x10, 256)], [⟨0, 32, .rc, 0, false⟩]⟩,
  ⟨0x90100c, [(0x10, 256)], [⟨0, 32, .ro, 0, false⟩]⟩,
  ⟨0xa00000, [], [⟨0, 1, .rw, 1, true⟩, ⟨1, 4, .ro, 0, true⟩]⟩,
  ⟨0xa00004, [], [⟨0, 16, .ro, 0, false⟩, ⟨16, 16, .ro, 0, false⟩]⟩,
  ⟨0xa00008, [], [⟨0, 12, .ro, 0, false⟩, ⟨12, 14, .ro, 0, false⟩]⟩,
  ⟨0xa00010, [], [⟨0, 4, .wo, 0, false⟩, ⟨4, 3, .wo, 0, false⟩, ⟨7, 6, .wo, 0, false⟩]⟩,
  ⟨0xa00014, [], [⟨0, 3, .ro, 0, false⟩, ⟨3, 1, .w1c, 0, false⟩]⟩,
  ⟨0xa00020, [], [⟨0, 32, .rw, 0, false⟩]⟩,
  ⟨0xa00024, [], [⟨0, 32, .rw, 0, false⟩]⟩,
  ⟨0xa00028, [], [⟨0, 32, .rw, 0, false⟩]⟩,
  ⟨0xa0002c, [], [⟨0, 32, .rw, 0, false⟩]⟩,
  ⟨0xa00030, [], [⟨0, 1, .wo, 0, false⟩, ⟨1, 4, .wo, 0, false⟩, ⟨5, 6, .wo, 0, false⟩, ⟨11, 2, .wo, 0, false⟩, ⟨16, 12, .wo, 0, false⟩]⟩,
  ⟨0xa00034, [], [⟨0, 1, .ro, 0, false⟩, ⟨1, 1, .w1c, 0, false⟩, ⟨2, 3, .ro, 0, false⟩]⟩,
  ⟨0xa00100, [(0x4, 16)], [⟨0, 32, .rc, 0, false⟩]⟩,
  ⟨0xa00400, [(0x20, 16)], [⟨0, 3, .ro, 0, false⟩, ⟨3, 1, .ro, 0, false⟩, ⟨4, 3, .ro, 0, false⟩, ⟨7, 2, .ro, 0, false⟩, ⟨9, 7, .ro, 0, false⟩, ⟨16, 1, .w1c, 0, false⟩, ⟨17, 1, .w1c, 0, false⟩]⟩,
  ⟨0xa00404, [(0x20, 16)], [⟨0, 32, .ro, 0, false⟩]⟩,
  ⟨0xa00408, [(0x20, 16)], [⟨0, 32, .ro, 0, false⟩]⟩,
  ⟨0xa0040c, [(0x20, 16)], [⟨0, 17, .ro, 0, false⟩]⟩,
  ⟨0xa10000, [(0x400, 16), (0x10, 64)], [⟨0, 32, .ro, 0, false⟩]⟩,
  ⟨0xa10004, [(0x400, 16), (0x10, 64)], [⟨0, 1, .ro, 0, false⟩, ⟨1, 15, .ro, 0, false⟩]⟩,
  ⟨0xa10008, [(0x400, 16), (0x10, 64)], [⟨0, 32, .ro, 0, false⟩]⟩,
  ⟨0xa1000c, [(0x400, 16), (0x10, 64)], [⟨0, 24, .ro, 0, false⟩]⟩,
  ⟨0xb00000, [], [⟨0, 1, .ro, 0, true⟩, ⟨1, 16, .rw, 1000, true⟩]⟩,
  ⟨0xb00004, [], [⟨0, 1, .ro, 0, false⟩, ⟨1, 9, .ro, 0, false⟩, ⟨10, 11, .ro, 0, false⟩, ⟨21, 1, .ro, 0, false⟩, ⟨22, 1, .w1c, 0, false⟩]⟩]

/-- Register descriptions, part 6. -/
def regTable6 : List RDesc := [
  ⟨0xb00008, [], [⟨0, 2, .wo, 0, false⟩]⟩,
  ⟨0xb0000c, [], [⟨0, 3, .ro, 0, false⟩, ⟨3, 1, .w1c, 0, false⟩]⟩,
  ⟨0xb00010, [], [⟨0, 32, .ro, 0, false⟩]⟩,
  ⟨0xb00014, [], [⟨0, 32, .ro, 0, false⟩]⟩,
  ⟨0xb00018, [], [⟨0, 24, .ro, 0, false⟩]⟩,
  ⟨0xb0001c, [], [⟨0, 24, .ro, 0, false⟩]⟩,
  ⟨0xb00020, [], [⟨0, 32, .rc, 0, false⟩]⟩,
  ⟨0xb00040, [], [⟨0, 24, .rw, 0, false⟩]⟩,
  ⟨0xb00044, [], [⟨0, 32, .ro, 0, false⟩]⟩,
  ⟨0xb00100, [(0x4, 8)], [⟨0, 32, .rc, 0, false⟩]⟩,
  ⟨0xc00000, [], [⟨0, 1, .rw, 1, true⟩, ⟨1, 1, .rw, 1, true⟩]⟩,
  ⟨0xc00004, [], [⟨0, 2, .ro, 0, false⟩, ⟨2, 1, .ro, 0, false⟩, ⟨3, 1, .ro, 0, false⟩, ⟨4, 1, .ro, 0, false⟩, ⟨5, 1, .ro, 0, false⟩, ⟨6, 1, .ro, 0, false⟩, ⟨7, 1, .w1c, 0, false⟩, ⟨8, 8, .ro, 0, false⟩, ⟨16, 13, .ro, 0, false⟩]⟩,
  ⟨0xc00008, [], [⟨0, 32, .ro, 0, false⟩]⟩,
  ⟨0xc0000c, [], [⟨0, 32, .ro, 0, false⟩]⟩,
  ⟨0xc00010, [], [⟨0, 8, .ro, 0, false⟩, ⟨8, 3, .ro, 0, false⟩]⟩,
  ⟨0xc00014, [], [⟨0, 8, .ro, 0, false⟩, ⟨8, 12, .ro, 0, false⟩]⟩,
  ⟨0xc00020, [], [⟨0, 2, .wo, 0, false⟩]⟩,
  ⟨0xc00024, [], [⟨0, 3, .ro, 0, false⟩, ⟨3, 1, .w1c, 0, false⟩]⟩,
  ⟨0xc00100, [(0x4, 16)], [⟨0, 32, .rc, 0, false⟩]⟩,
  ⟨0xc10000, [(0x4, 4096)], [⟨0, 2, .ro, 0, false⟩]⟩,
  ⟨0xc20000, [(0x8, 8192)], [⟨0, 32, .ro, 0, false⟩]⟩,
  ⟨0xc20004, [(0x8, 8192)], [⟨0, 16, .ro, 0, false⟩]⟩,
  ⟨0xc30000, [(0x8, 1024)], [⟨0, 32, .ro, 0, false⟩]⟩,
  ⟨0xc30004, [(0x8, 1024)], [⟨0, 16, .ro, 0, false⟩]⟩,
  ⟨0xd00000, [], [⟨0, 1, .rw, 1, true⟩]⟩,
  ⟨0xd00004, [], [⟨0, 11, .ro, 0, false⟩, ⟨11, 11, .ro, 0, false⟩]⟩,
  ⟨0xd00008, [], [⟨0, 32, .rc, 0, false⟩]⟩,
  ⟨0xd00010, [], [⟨0, 10, .wo, 0, false⟩, ⟨10, 2, .wo, 0, false⟩]⟩,
  ⟨0xd00014, [], [⟨0, 3, .ro, 0, false⟩, ⟨3, 1, .w1c, 0, false⟩]⟩,
  ⟨0xd00100, [(0x4, 16)], [⟨0, 32, .rc, 0, false⟩]⟩,
  ⟨0xd10000, [(0x40, 1024)], [⟨0, 1, .ro, 0, true⟩, ⟨1, 1, .ro, 0, true⟩, ⟨2, 1, .ro, 0, true⟩, ⟨3, 1, .rw, 0, true⟩, ⟨4, 1, .rw, 0, true⟩, ⟨5, 3, .ro, 7, true⟩, ⟨8, 11, .ro, 1, true⟩]⟩,
  ⟨0xd10004, [(0x40, 1024)], [⟨0, 32, .ro, 0, true⟩]⟩,
  ⟨0xd10008, [(0x40, 1024)], [⟨0, 32, .ro, 0, true⟩]⟩,
  ⟨0xd1000c, [(0x40, 1024)], [⟨0, 20, (.rws 3), 2000, true⟩]⟩,
  ⟨0xd10010, [(0x40, 1024)], [⟨0, 21, (.rws 3), 3000, true⟩]⟩,
  ⟨0xd10014, [(0x40, 1024)], [⟨0, 16, (.rws 3), 16, true⟩, ⟨16, 8, (.rws 3), 3, true⟩]⟩,
  ⟨0xd10018, [(0x40, 1024)], [⟨0, 17, (.rws 3), 1000, true⟩]⟩,
  ⟨0xd1001c, [(0x40, 1024)], [⟨0, 20, (.rws 3), 1000, true⟩]⟩,
  ⟨0xd10020, [(0x40, 1024)], [⟨0, 2, .ro, 3, false⟩, ⟨2, 4, .ro, 0, false⟩, ⟨6, 1, .ro, 0, false⟩, ⟨7, 1, .ro, 0, false⟩, ⟨8, 8, .ro, 0, false⟩, ⟨16, 1, .w1c, 0, false⟩]⟩,
  ⟨0xd10024, [(0x40, 1024)], [⟨0, 32, .ro, 0, false⟩]⟩]

/-- Register descriptions, part 7. -/
def regTable7 : List RDesc := [
  ⟨0xd10028, [(0x40, 1024)], [⟨0, 32, .ro, 0, false⟩]⟩,
  ⟨0xd40000, [(0x20, 1024), (0x4, 8)], [⟨0, 32, .rc, 0, false⟩]⟩,
  ⟨0xdf0000, [], [⟨0, 4, .ro, 0, false⟩, ⟨4, 1, .ro, 0, false⟩, ⟨5, 3, .ro, 0, false⟩]⟩,
  ⟨0xdf0004, [], [⟨0, 32, .rc, 0, false⟩]⟩,
  ⟨0xdf0008, [], [⟨0, 32, .ro, 0, false⟩]⟩,
  ⟨0xdf000c, [], [⟨0, 8, .ro, 0, false⟩, ⟨8, 8, .ro, 0, false⟩]⟩,
  ⟨0xe00000, [], [⟨0, 2, .ro, 0, false⟩, ⟨2, 1, .ro, 0, false⟩, ⟨3, 1, .ro, 0, false⟩, ⟨4, 11, .ro, 0, false⟩, ⟨15, 1, .rw, 1, true⟩]⟩,
  ⟨0xe00010, [], [⟨0, 32, .rw, 0, false⟩]⟩,
  ⟨0xe00014, [], [⟨0, 32, .rw, 0, false⟩]⟩,
  ⟨0xe00018, [], [⟨0, 4, .wo, 0, false⟩, ⟨4, 10, .wo, 0, false⟩, ⟨14, 1, .wo, 0, false⟩, ⟨16, 12, .wo, 0, false⟩]⟩,
  ⟨0xe0001c, [], [⟨0, 1, .ro, 0, false⟩, ⟨1, 3, .ro, 0, false⟩, ⟨4, 1, .w1c, 0, false⟩]⟩,
  ⟨0xe00040, [(0x4, 16)], [⟨0, 32, .ro, 0, false⟩]⟩,
  ⟨0xe00080, [(0x4, 8)], [⟨0, 32, .ro, 0, false⟩]⟩,
  ⟨0xe000a0, [], [⟨0, 8, .ro, 0, false⟩]⟩,
  ⟨0xe000c0, [(0x4, 8)], [⟨0, 32, .ro, 0, false⟩]⟩,
  ⟨0xe00100, [(0x4, 8)], [⟨0, 32, .rc, 0, false⟩]⟩,
  ⟨0xe01000, [(0x4, 1024)], [⟨0, 3, .ro, 0, false⟩, ⟨3, 3, .ro, 0, false⟩, ⟨6, 1, .ro, 0, false⟩, ⟨7, 1, .ro, 0, false⟩, ⟨8, 1, .ro, 0, false⟩, ⟨9, 1, .ro, 0, false⟩, ⟨10, 2, .ro, 0, false⟩, ⟨12, 3, .ro, 0, false⟩, ⟨15, 4, .ro, 0, false⟩]⟩,
  ⟨0xf00000, [(0x200, 8)], [⟨0, 2, .rw, 2, true⟩, ⟨2, 1, .rw, 1, true⟩, ⟨3, 1, .rw, 1, true⟩, ⟨4, 1, .rw, 0, true⟩, ⟨5, 9, .rw, 0, true⟩]⟩,
  ⟨0xf00004, [(0x200, 8)], [⟨0, 32, .rw, 517762881, true⟩]⟩,
  ⟨0xf00008, [(0x200, 8)], [⟨0, 32, .rw, 0, true⟩]⟩,
  ⟨0xf0000c, [(0x200, 8)], [⟨0, 32, .rw, 4294967295, true⟩]⟩,
  ⟨0xf00010, [(0x200, 8)], [⟨0, 32, .rw, 0, true⟩]⟩,
  ⟨0xf00014, [(0x200, 8)], [⟨0, 32, .rw, 4294967295, true⟩]⟩,
  ⟨0xf00018, [(0x200, 8)], [⟨0, 32, .rw, 0, true⟩]⟩,
  ⟨0xf0001c, [(0x200, 8)], [⟨0, 32, .rw, 0, false⟩]⟩,
  ⟨0xf00020, [(0x200, 8)], [⟨0, 32, .rw, 0, false⟩]⟩,
  ⟨0xf00024, [(0x200, 8)], [⟨0, 32, .rw, 0, false⟩]⟩,
  ⟨0xf00028, [(0x200, 8)], [⟨0, 32, .rw, 0, false⟩]⟩,
  ⟨0xf0002c, [(0x200, 8)], [⟨0, 32, .wo, 0, false⟩]⟩,
  ⟨0xf00030, [(0x200, 8)], [⟨0, 32, .wo, 0, false⟩]⟩,
  ⟨0xf00034, [(0x200, 8)], [⟨0, 32, .wo, 0, false⟩]⟩,
  ⟨0xf00038, [(0x200, 8)], [⟨0, 32, .wo, 0, false⟩]⟩,
  ⟨0xf0003c, [(0x200, 8)], [⟨0, 32, .wo, 0, false⟩]⟩,
  ⟨0xf00040, [(0x200, 8)], [⟨0, 2, .wo, 0, false⟩]⟩,
  ⟨0xf00044, [(0x200, 8)], [⟨0, 1, .ro, 0, false⟩, ⟨1, 1, .ro, 0, false⟩, ⟨2, 1, .w1c, 0, false⟩]⟩,
  ⟨0xf00048, [(0x200, 8)], [⟨0, 32, .ro, 0, false⟩]⟩,
  ⟨0xf0004c, [(0x200, 8)], [⟨0, 32, .ro, 0, false⟩]⟩,
  ⟨0xf00050, [(0x200, 8)], [⟨0, 32, .rc, 0, false⟩]⟩,
  ⟨0xf00054, [(0x200, 8)], [⟨0, 32, .rc, 0, false⟩]⟩,
  ⟨0xf01000, [(0x4, 8)], [⟨0, 10, .rw, 0, true⟩]⟩]

/-- Register descriptions, part 8. -/
def regTable8 : List RDesc := [
  ⟨0x1000000, [], [⟨0, 8, .rw, 16, true⟩, ⟨8, 16, .rw, 1000, true⟩, ⟨24, 1, .rw, 1, true⟩]⟩,
  ⟨0x1000004, [], [⟨0, 8, .ro, 0, false⟩, ⟨8, 5, .ro, 0, false⟩, ⟨13, 3, .ro, 0, false⟩, ⟨16, 1, .ro, 0, false⟩, ⟨17, 1, .w1c, 0, false⟩, ⟨18, 1, .w1c, 0, false⟩]⟩,
  ⟨0x1000008, [], [⟨0, 16, .ro, 0, false⟩]⟩,
  ⟨0x100000c, [], [⟨0, 16, .ro, 0, false⟩]⟩,
  ⟨0x1000010, [], [⟨0, 16, .ro, 0, false⟩, ⟨16, 12, .ro, 0, false⟩]⟩,
  ⟨0x1000040, [], [⟨0, 32, .wo, 0, false⟩]⟩,
  ⟨0x1000080, [], [⟨0, 12, .rw, 0, false⟩, ⟨12, 3, .rw, 0, false⟩]⟩,
  ⟨0x1000084, [], [⟨0, 32, .rw, 0, false⟩]⟩,
  ⟨0x1000088, [], [⟨0, 32, .rw, 0, false⟩]⟩,
  ⟨0x100008c, [], [⟨0, 1, .rw, 0, false⟩, ⟨1, 4, .rw, 0, false⟩, ⟨5, 9, .rw, 0, false⟩, ⟨14, 18, .rw, 0, false⟩]⟩,
  ⟨0x1000090, [], [⟨0, 32, .rw, 0, false⟩]⟩,
  ⟨0x1000094, [], [⟨0, 32, .rw, 0, false⟩]⟩,
  ⟨0x1000098, [], [⟨0, 1, .ro, 0, false⟩, ⟨1, 3, .ro, 0, false⟩, ⟨16, 16, .ro, 0, false⟩]⟩,
  ⟨0x1000100, [], [⟨0, 12, .wo, 0, false⟩, ⟨12, 3, .wo, 0, false⟩, ⟨16, 9, .wo, 0, false⟩]⟩,
  ⟨0x1000104, [], [⟨0, 3, .ro, 0, false⟩, ⟨3, 1, .w1c, 0, false⟩]⟩,
  ⟨0x1000140, [], [⟨0, 20, .rw, 0, false⟩]⟩,
  ⟨0x1000144, [], [⟨0, 20, .rw, 0, false⟩]⟩,
  ⟨0x1000148, [], [⟨0, 32, .rw, 0, false⟩]⟩,
  ⟨0x100014c, [], [⟨0, 32, .rw, 0, false⟩]⟩,
  ⟨0x1000150, [], [⟨0, 2, .wo, 0, false⟩]⟩,
  ⟨0x1000154, [], [⟨0, 1, .ro, 0, false⟩, ⟨1, 1, .w1c, 0, false⟩, ⟨2, 2, .ro, 0, false⟩]⟩,
  ⟨0x1001000, [(0x4, 256)], [⟨0, 16, .ro, 0, false⟩, ⟨16, 1, .ro, 0, false⟩]⟩,
  ⟨0x1002000, [(0x4, 16)], [⟨0, 32, .rc, 0, false⟩]⟩,
  ⟨0x1010000, [(0x20, 4096)], [⟨0, 2, .ro, 0, false⟩, ⟨2, 1, .ro, 0, false⟩, ⟨3, 1, .ro, 0, false⟩, ⟨4, 1, .ro, 0, false⟩, ⟨5, 8, .ro, 0, false⟩, ⟨13, 10, .ro, 0, true⟩]⟩,
  ⟨0x1010004, [(0x20, 4096)], [⟨0, 16, .rw, 16, true⟩, ⟨16, 8, .rw, 16, true⟩]⟩,
  ⟨0x1010008, [(0x20, 4096)], [⟨0, 16, .rw, 0, true⟩, ⟨16, 8, .rw, 16, true⟩]⟩,
  ⟨0x101000c, [(0x20, 4096)], [⟨0, 16, .rw, 0, true⟩, ⟨16, 8, .rw, 16, true⟩]⟩,
  ⟨0x1010010, [(0x20, 4096)], [⟨0, 21, .ro, 0, true⟩, ⟨21, 1, .ro, 0, true⟩]⟩,
  ⟨0x1010014, [(0x20, 4096)], [⟨0, 16, .ro, 0, false⟩, ⟨16, 4, .ro, 0, false⟩]⟩,
  ⟨0x1010018, [(0x20, 4096)], [⟨0, 16, .ro, 0, false⟩, ⟨16, 16, .ro, 0, true⟩]⟩,
  ⟨0x101001c, [(0x20, 4096)], [⟨0, 32, .rc, 0, false⟩]⟩,
  ⟨0x1100000, [], [⟨0, 1, .ro, 0, false⟩, ⟨1, 1, .ro, 0, false⟩, ⟨2, 16, .ro, 0, false⟩]⟩,
  ⟨0x1100100, [(0x10, 6)], [⟨0, 32, .ro, 0, false⟩]⟩,
  ⟨0x1100104, [(0x10, 6)], [⟨0, 7, .ro, 0, false⟩]⟩,
  ⟨0x1100108, [(0x10, 6)], [⟨0, 17, .ro, 0, false⟩]⟩,
  ⟨0x1100200, [(0x8, 7)], [⟨0, 32, .rc, 0, false⟩]⟩,
  ⟨0x1100204, [(0x8, 7)], [⟨0, 32, .rc, 0, false⟩]⟩,
  ⟨0x1108000, [], [⟨0, 1, .rw, 1, true⟩, ⟨1, 4, .rw, 6, true⟩, ⟨5, 9, .rw, 0, true⟩, ⟨14, 16, .rw, 100, true⟩]⟩,
  ⟨0x1108004, [], [⟨0, 28, .w1c, 0, false⟩]⟩,
  ⟨0x1108008, [], [⟨0, 6, .ro, 0, false⟩, ⟨6, 1, .w1c, 0, false⟩, ⟨7, 1, .w1c, 0, false⟩]⟩]

/-- Register descriptions, part 9. -/
def regTable9 : List RDesc := [
  ⟨0x110800c, [], [⟨0, 32, .rc, 0, false⟩]⟩,
  ⟨0x1108010, [(0x4, 4)], [⟨0, 32, .ro, 0, false⟩]⟩,
  ⟨0x1108020, [], [⟨0, 1, .rw, 0, false⟩, ⟨1, 3, .rw, 0, false⟩, ⟨4, 1, .rw, 0, false⟩, ⟨5, 6, .rw, 0, false⟩, ⟨11, 6, .rw, 0, false⟩, ⟨17, 1, .w1c, 0, false⟩]⟩,
  ⟨0x1108100, [(0x4, 28)], [⟨0, 32, .rc, 0, false⟩]⟩,
  ⟨0x1108400, [(0x10, 64), (0x4, 4)], [⟨0, 32, .ro, 0, false⟩]⟩,
  ⟨0x100000000, [(0x10000, 256)], [⟨0, 32, .wo, 0, false⟩]⟩,
  ⟨0x100000010, [(0x10000, 256)], [⟨0, 32, .rw, 0, false⟩]⟩,
  ⟨0x100000014, [(0x10000, 256)], [⟨0, 32, .rw, 0, false⟩]⟩,
  ⟨0x100000018, [(0x10000, 256)], [⟨0, 32, .rw, 0, false⟩]⟩,
  ⟨0x10000001c, [(0x10000, 256)], [⟨0, 32, .rw, 0, false⟩]⟩,
  ⟨0x100000020, [(0x10000, 256)], [⟨0, 1, .wo, 0, false⟩]⟩,
  ⟨0x100000024, [(0x10000, 256)], [⟨0, 1, .ro, 0, false⟩, ⟨1, 1, .w1c, 0, false⟩]⟩]

/-- The registers of the VF windows that have the layout of a register of the INS block (Table 13.2). -/
def regTable10 : List RDesc := [
  ⟨0x100000040, [(0x10000, 256)], [⟨0, 12, .rw, 0, false⟩, ⟨12, 3, .rw, 0, false⟩]⟩,
  ⟨0x100000044, [(0x10000, 256)], [⟨0, 32, .rw, 0, false⟩]⟩,
  ⟨0x100000048, [(0x10000, 256)], [⟨0, 32, .rw, 0, false⟩]⟩,
  ⟨0x10000004c, [(0x10000, 256)], [⟨0, 1, .rw, 0, false⟩, ⟨1, 4, .rw, 0, false⟩, ⟨5, 9, .rw, 0, false⟩, ⟨14, 18, .rw, 0, false⟩]⟩,
  ⟨0x100000050, [(0x10000, 256)], [⟨0, 32, .rw, 0, false⟩]⟩,
  ⟨0x100000054, [(0x10000, 256)], [⟨0, 32, .rw, 0, false⟩]⟩,
  ⟨0x100000058, [(0x10000, 256)], [⟨0, 1, .ro, 0, false⟩, ⟨1, 3, .ro, 0, false⟩, ⟨16, 16, .ro, 0, false⟩]⟩,
  ⟨0x100000080, [(0x10000, 256)], [⟨0, 16, .ro, 0, false⟩, ⟨16, 1, .ro, 0, false⟩]⟩,
  ⟨0x100000084, [(0x10000, 256)], [⟨0, 12, .wo, 0, false⟩, ⟨12, 3, .wo, 0, false⟩]⟩,
  ⟨0x100000088, [(0x10000, 256)], [⟨0, 3, .ro, 0, false⟩, ⟨3, 1, .w1c, 0, false⟩]⟩,
  ⟨0x100001000, [(0x10000, 256), (0x4, 4096)], [⟨0, 2, .ro, 0, false⟩, ⟨2, 1, .ro, 0, false⟩, ⟨3, 1, .ro, 0, false⟩, ⟨4, 1, .ro, 0, false⟩, ⟨5, 8, .ro, 0, false⟩, ⟨13, 10, .ro, 0, true⟩]⟩]

/-- Every register description of the map. -/
def regTable : List RDesc :=
  regTable0 ++ regTable1 ++ regTable2 ++ regTable3 ++ regTable4 ++ regTable5 ++ regTable6 ++ regTable7 ++ regTable8 ++ regTable9 ++ regTable10

/-- Whether an offset from a register's base is reached by its indexes: strides taken from the largest down. -/
def dimsHit : List (Nat × Nat) → Nat → Bool
  | [], off => off == 0
  | (s, c) :: r, off => let k := off / s; decide (k < c) && dimsHit r (off - k * s)

/-- Whether a description covers an address. -/
def RDesc.covers (d : RDesc) (addr : Nat) : Bool :=
  decide (d.base ≤ addr) && dimsHit d.dims (addr - d.base)

/-- The description of the register at an address, none where the offset is unassigned (R17). -/
def findReg (addr : Nat) : Option RDesc := regTable.find? (·.covers addr)

/-- A field of a description, placed at an address. -/
def FDesc.at (f : FDesc) (addr : Nat) : Fld := ⟨addr, f.lsb, f.width, indexedDefault addr f.lsb f.dflt⟩

end Sys2Proof.Machine
end

