-- ==== Sys2Proof/Machine/SwitchState.lean ====
section
/-!
DEFINITION. The state of the switch core and of the MACs (Switch Core and Buffer Manager; Ports and Frame MACs).
-/

namespace Sys2Proof.Machine

/-- A forwarding entry (Table 6.5) and the elapsed time of a learned entry's latest refresh. -/
structure FdbEntry where
  dest : Nat
  hpInst : Nat
  mcg : Nat
  mcast : Bool
  static : Bool
  mirror : Nat
  refreshed : Nat
  deriving DecidableEq, Repr

/-- A multicast group (Table 6.5). -/
structure McGroup where
  ports : Nat
  hpSet : Nat
  hpSetEn : Bool
  deriving DecidableEq, Repr

/-- A valid VLAN entry (Table 6.5). -/
structure VlanEntry where
  member : Nat
  untag : Nat
  flood : Nat
  umc : Nat
  hpSet : Nat
  hpSetEn : Bool
  deriving DecidableEq, Repr

/-- A copy in an output queue: the frame as it leaves (without its FCS), its cells, its class, the input port, the
ingress time (primary clock ns), the admission time (primary clock ns), and the instance and sequence ID of a
timestamp request (R138); `fid` numbers the frame whose cells it refers to; the classified VID and whether the frame
was received tagged (Table 13.4). -/
structure Copy where
  bytes : Bytes
  cells : Nat
  cls : Nat
  inp : Nat
  ts : Nat
  admitted : Nat
  stamp : Option (Nat × Nat)
  fid : Nat
  vid : Nat
  tagged : Bool
  deriving DecidableEq, Repr

/-- A frame on the cut-through path between its first 64 bytes and its end (R157): its one destination, class, the
cells charged, and whether the admission was made. -/
structure CutThru where
  dest : Nat
  cls : Nat
  vid : Nat
  pcp : Nat
  cells : Nat
  admitted : Bool
  deriving DecidableEq, Repr

/-- The switch and the MACs. Class queues and credits are keyed 8 × port + class, HP queues by instance. `wire` is
the elapsed time at which the frame on a port's wire ends and its class. Credits are in 2^-32 × 10^-9 bit with the
elapsed time they stand for. `rr` is the class whose round robin turn it is and whether it has its quantum. `tsq`
holds the timestamp entries, `seqs` the next sequence IDs, `pauses` the end of each class's pause, `holdEnd` the end
of a hold window, `dups` the duplicate table of each pair (source, sequence number, expiry), `scale` the limit and
sum by which R161 scaled a port's slopes, `declared` the rates that the fitted module declares (bit s for SPEED s),
`redSeq` the next PRP or HSR sequence number of each pair. -/
structure Sw where
  fdb : SMap FdbEntry
  mcg : SMap McGroup
  vlans : SMap VlanEntry
  hpSets : SMap Nat
  queues : SMap (List Copy)
  hpq : SMap (List Copy)
  credits : SMap (Int × Nat)
  wire : SMap (Nat × Nat)
  deficits : SMap Nat
  rr : SMap (Nat × Bool)
  tsq : SMap (List (List Nat))
  seqs : SMap Nat
  pauses : SMap Nat
  holdEnd : SMap Nat
  dups : SMap (List (Nat × Nat × Nat))
  scale : SMap (Nat × Nat)
  cuts : SMap CutThru
  declared : SMap Nat
  nextFid : Nat
  redSeq : SMap Nat
  deriving DecidableEq, Repr

/-- DESIGN CHOICE, assumption 11. -/
def Sw.init : Sw := ⟨[], [], [], [], [], [], [], [], [], [], [], [], [], [], [], [], [], [], 0, []⟩

end Sys2Proof.Machine
end

