-- ==== Sys2Proof/Machine/TimState.lean ====
section
/-!
DEFINITION. The state of the Timekeeper (Timekeeper: Primary Clock, Virtual Clocks and PTP).
-/

namespace Sys2Proof.Machine

/-- The fields of the TIME section that no register holds (Table 7.5). -/
structure TimeCfg where
  profile : Nat
  domain : Nat
  ptpPorts : Nat
  role : Nat
  priority1 : Nat
  priority2 : Nat
  logSync : Int
  freqInit : Int
  deriving DecidableEq, Repr

/-- A source's run of valid offsets (R186): the times of its first and latest offset, whether it has qualified. -/
structure SrcRun where
  first : Nat
  last : Nat
  qualified : Bool
  deriving DecidableEq, Repr

/-- The servo and its sources: INCR, the integral I (2^-16 ns), y (2^-16 ppb), the latest τ, the selected source,
whether one was ever selected, the consecutive offsets below LOCK_NS and at or above 10 × LOCK_NS, the runs by
source, the offsets handed over and not yet taken, the latest Haulato edge (ns), the echo under way (token, ns), the
failed echoes in a row, the end of OUT_LINK's hold, A_v of the virtual clocks. -/
structure Tim where
  cfg : TimeCfg
  incr : Nat
  integ : Int
  y : Int
  tau : Nat
  selected : Option Nat
  ever : Bool
  near : Nat
  far : Nat
  runs : SMap SrcRun
  offsets : List TimeOffset
  edge : Option Nat
  echo : Option (Nat × Nat)
  echoFails : Nat
  outUntil : Nat
  vcAt : SMap Nat
  deriving DecidableEq, Repr

def nominalIncr : Nat := 17179869184

/-- The defaults of Table 7.5. -/
def TimeCfg.init : TimeCfg := ⟨0, 0, 0x3FF, 0, 128, 128, 0, 0⟩

/-- DESIGN CHOICE, assumption 11. -/
def Tim.init : Tim := ⟨TimeCfg.init, nominalIncr, 0, 0, 1000000000, none, false, 0, 0, [], [], none, none, 0, 0, []⟩

end Sys2Proof.Machine
end

