-- ==== Sys2Proof/Machine/VatState.lean ====
section
/-!
DEFINITION. The state of the Vat and of the filter chains (The Vat; Filter and Decimation Chains).
-/

namespace Sys2Proof.Machine

/-- An input slot of a stream (Table 8.2); a slot that is not listed is EMPTY. FILLED: the received integer and the quality
word of each stream channel. SUBST: the scaled value and quality word of each channel record that reads it. -/
structure Slot where
  filled : Bool
  closed : Bool
  raw : List (Nat × Nat)
  subst : SMap (Word × Nat)
  deriving DecidableEq, Repr

/-- The states of R207. -/
inductive StreamState where
  | wait | valid | lost | disabled
  deriving DecidableEq, Repr

def StreamState.code : StreamState → Nat
  | .wait => 0 | .valid => 1 | .lost => 2 | .disabled => 3

/-- A stream: the fields of its record that no register holds, its slots by grid index, its state, the slot of the
first sample since it left WAIT, consecutive substituted slots, those since it became VALID, consecutive filled
slots, the slots to mark UNSYNC, whether placement is by the estimate (none before the first placement), the estimate in use and whether its first
second boundary is still to come, the terms of the latest 16 frames placed by it, the counter instant of the latest
ASDU placed (ns), and the causes logged with the second they were logged in (R217), and VAT_STRM_CFG as it is in force (R209). -/
structure Stream where
  dst : Nat
  svId : Bytes
  confRev : Nat
  xmitNs : Nat
  keyLabel : Nat
  depth : Nat
  slots : SMap Slot
  state : StreamState
  firstVal : Option Nat
  run : Nat
  lossRun : Nat
  goodRun : Nat
  unsync : List Nat
  byEstimate : Option Bool
  delta : Int
  terms : List (List Int)
  lastC : Int
  logged : SMap Nat
  cfg : Nat
  deriving DecidableEq, Repr

/-- A stage of a chain: its set, NMAX and decimation, and its history, newest first (value, quality). -/
structure Stage where
  set : Nat
  nmax : Nat
  decim : Nat
  hist : List (Word × Nat)
  deriving DecidableEq, Repr

/-- A cross-fade (R232): stage, new set, K, the outputs delivered, the first instant (grid index of the vat rate) it acts
on, whether both sets give the chain the same group delay. -/
structure Fade where
  stage : Nat
  set : Nat
  len : Nat
  done : Nat
  fromG : Nat
  equal : Bool
  deriving DecidableEq, Repr

/-- An admitted channel record with its chain (R195, R219): the skew in use and the one that follows with the instant
it holds from (R225), the fade that runs and the switch that is pending, the instant of the first input after the
latest restart, whether the chain waits for that input, whether its skew is clipped. -/
structure Chan where
  stream : Nat
  src : Nat
  vrate : Nat
  decl : Nat
  scale : Word
  kdef : Nat
  stages : List Stage
  fade : Option Fade
  pend : Option (Nat × Nat × Nat)
  tr : Option Nat
  fresh : Bool
  sigma : Nat
  sigmaNext : Option (Nat × Nat)
  clip : Bool
  deriving DecidableEq, Repr

/-- An open curd frame: its grid index, W and the expected streams as it opened (R208, R209), and VAT_STRM_CFG and
VAT_STRM_LIM of the streams that feed it as they stood then. -/
structure OpenFrame where
  g : Nat
  w : Nat
  expected : List Nat
  cfgs : SMap (Nat × Nat)
  deriving DecidableEq, Repr

/-- A curd frame (Table 8.5): closed, and visible once every chain has written. `instant` and `closeTs` are in ns of
the primary clock. The channels are keyed by channel record; `ins` are the inputs of the chains that have not written
yet (grid index, value, quality). -/
structure Curd where
  g : Nat
  seq : Nat
  instant : Nat
  closeTs : Nat
  cause : Nat
  flags : Nat
  outs : SMap (Word × Nat)
  ins : SMap (List (Nat × Word × Nat))
  deriving DecidableEq, Repr

/-- A vat rate: its rate in S/s, the loaded W_NS, CURD_DEPTH, its channel records in ascending order, the next grid index to open, the
open frames (oldest first), the count of closed frames, the frames closed and not yet visible (oldest first), the
rows of the curd ring (newest first), and whether the next frame to close carries FLAGS.STEP. -/
structure VRate where
  f : Nat
  wLoaded : Nat
  depth : Nat
  chans : List Nat
  nextG : Nat
  opens : List OpenFrame
  seq : Nat
  closing : List Curd
  rows : List Curd
  stepFlag : Bool
  running : Bool
  deriving DecidableEq, Repr

/-- The Vat, the chains, coefficient memory (unlisted words are 0), and the latest second boundary at which Δ and VAT_SKEW
were set. -/
structure Vat where
  streams : SMap Stream
  chans : SMap Chan
  rates : SMap VRate
  cmem : SMap Nat
  second : Nat
  deriving DecidableEq, Repr

/-- DESIGN CHOICE, assumption 11. -/
def Vat.init : Vat := ⟨[], [], [], [], 0⟩

end Sys2Proof.Machine
end

