-- ==== Sys2Proof/Machine/State.lean ====
section
/-!
DEFINITION. The state of the block as plain data: the operating mode, what the module sends out, the culture in force,
the module with every register, memory, table, queue and counter that the spec gives it, the queue of waiting commands, and
the state right after power-on. The registers of the register maps live in ONE sparse store, `Module.regs`, keyed by the
field's address and bit (`Fld.key`); a field that is not listed holds its Reset value.
-/

namespace Sys2Proof.Machine

/-- The operating modes (Table 1.5, SYS_MODE). -/
inductive Mode where
  | reset | load | ripen | active | standby | test | safeHold | flush
  deriving DecidableEq, Repr

def Mode.code : Mode → Nat
  | .reset => 0 | .load => 1 | .ripen => 2 | .active => 3 | .standby => 4 | .test => 5 | .safeHold => 6 | .flush => 7

/-- What the module sends out: recorded in order, the model's own observation. -/
inductive Emission where
  /-- A frame leaves a port; `at_` is the instant of its start (ns of the primary clock). -/
  | frame (port : Nat) (bytes : Bytes) (at_ : Nat)
  /-- A write to host memory in the address space of a function. -/
  | hostWrite (fn : Nat) (addr : Nat) (bytes : Bytes)
  /-- An MSI-X message of a function. -/
  | msix (fn vector : Nat)
  /-- A segment on a Haulato pair. -/
  | haulato (pair : Nat) (bytes : Bytes)
  /-- A redundancy supervision frame on a port (R142). -/
  | supervision (port mode : Nat)
  /-- An edge on Haulato pair A (R183). -/
  | edge (at_ : Nat)
  /-- The Sync message of a PTP port (R179). -/
  | ptpSync (port at_ : Nat)
  /-- A message to the peer of a redundant pair. -/
  | pair (x : PairMsg)
  deriving DecidableEq, Repr

/-- The culture in force (Culture Image and Loading, Tasks): what LOAD applied, so far as no register holds it. -/
structure Culture where
  /-- The size of the code partition in KiB. -/
  codeKib : Nat
  /-- Entry points: number to byte offset in CODE. -/
  entries : SMap Nat
  /-- The CODE section. -/
  code : Bytes
  /-- The CONST section. -/
  consts : Bytes
  /-- Task records by task. -/
  tasks : SMap TaskRec
  /-- The image map. -/
  maps : List MapEntry
  /-- Variable records by variable. -/
  vars : SMap VarRec
  /-- Online change regions. -/
  regions : List RegionRec
  /-- Initial data records. -/
  inits : List RegionRec
  /-- The bytes of the task section that the records point into. -/
  tblob : Bytes
  /-- The size of the trace buffer. -/
  traceLog2 : Nat
  /-- GOOSE publication records. -/
  pubs : SMap PubRec
  /-- GOOSE subscription records. -/
  gsubs : SMap GSubRec
  /-- The bytes of the GOOSE section that the records point into. -/
  gblob : Bytes
  /-- The recorder's snapshot lists. -/
  snapLists : SMap (List SnapItem)
  /-- The recorder's event rules in order. -/
  evRules : List EvRule
  /-- The size of each instance's data. -/
  instSizes : SMap Nat
  /-- The layout word of each instance. -/
  layouts : SMap Nat
  /-- The ports on which each instance may send. -/
  txPorts : SMap Nat
  deriving DecidableEq, Repr

/-- The module: everything but the queue of waiting commands. -/
structure Module where
  /-- The primary clock in units of 2^-32 ns (R169). -/
  clk : Nat
  /-- Elapsed time in the same units: what windows are judged by (R175, R189). -/
  mono : Nat
  /-- The operating mode (Table 1.5). -/
  mode : Mode
  /-- The mode that TEST was entered from (R120). -/
  testFrom : Mode
  /-- Every field of the register maps, by `Fld.key`; an unlisted field holds its Reset value (R16). -/
  regs : SMap Nat
  /-- The word that the latest register read answered. -/
  rdata : Word
  /-- The model's own: the index of the next free value (DESIGN CHOICE, assumption 3). -/
  freeIdx : Nat
  /-- The model's own: what the module has sent out, oldest first. -/
  out : List Emission
  /-- The culture in force. -/
  cul : Culture
  /-- The Block Engines by number. -/
  engines : SMap Engine
  /-- Tasks, matching store, trace. -/
  ladle : Ladle
  /-- Epochs, transactions, commit groups, forces. -/
  press : Press
  /-- The event recorder and the Cave. -/
  evr : Evr
  /-- The error tree. -/
  err : ErrSt
  /-- The Switching Mycelium. -/
  sw : Sw
  /-- The Timekeeper. -/
  tim : Tim
  /-- The Vat and the filter banks. -/
  vat : Vat
  /-- The acquisition engine. -/
  acq : Acq
  /-- Linoa Safe Transport. -/
  lst : Lst
  /-- Pair redundancy. -/
  red : Red
  /-- Host queues, command fetch, translation tables. -/
  host : HostSt
  /-- The key store. -/
  keys : Keys
  /-- What survives a module reset. -/
  persist : Persist
  /-- Power, clocks and start-up. -/
  sys : SysSt
  /-- High words held by a read of the low word, by function and address (R19). -/
  latch : SMap Nat
  /-- Low words held by a write until the high word is written (R19). -/
  wlatch : SMap Nat
  /-- GOOSE publications in operation. -/
  pubs : SMap PubSt
  /-- GOOSE subscriptions in operation. -/
  gsubs : SMap GSubSt
  /-- Instance data areas by instance; unlisted bytes are 0. -/
  idata : SMap (SMap Byte)
  /-- Committed output images by task; unlisted bytes are 0. -/
  outImg : SMap (SMap Byte)
  /-- Published variables: quality word and value. -/
  vars : SMap (Nat × Nat)
  /-- Committed cycles by instance. -/
  instCycles : SMap Nat
  deriving DecidableEq, Repr

/-- Why a step stops with a fault: never; every command of this block has a next state. -/
inductive Fault where
  /-- Raised by nothing: kept because the interface asks for a type. -/
  | none
  deriving DecidableEq, Repr

/-- Why a command has no meaning. -/
inductive Refusal where
  /-- Raised by Dispatch for a command without a meaning; safe. -/
  | notModelled (mnemonic : String)
  deriving DecidableEq, Repr

/-- The culture before any LOAD: nothing configured. -/
def Culture.init : Culture := ⟨128, [], [], [], [], [], [], [], [], [], 10, [], [], [], [], [], [], [], []⟩

/-- DESIGN CHOICE, assumption 11. -/
def Ladle.init : Ladle := ⟨[], 0, [], [], [], []⟩
def Press.init : Press := ⟨0, 0, 0, [], [], [], [], [], [], [], [], none, [], [], none⟩
/-- The Cave blank, the recorder empty. -/
def Evr.init : Evr := ⟨[], [], [], 0, 0, 0, 0x20000, 0x20000, 0, 0, false, 0, false, false, 0, 0, false, false⟩
/-- DESIGN CHOICE, assumption 11. -/
def ErrSt.init : ErrSt := ⟨[], [], none, false, [], [], [], [], []⟩
def Persist.init : Persist := ⟨[], [], [], []⟩

/-- The module right after power-on (R16, R85): every register at its Reset value, every memory at its reset contents.
DESIGN CHOICE, assumption 11. -/
def Module.reset : Module where
  clk := 0
  mono := 0
  mode := .reset
  testFrom := .active
  regs := []
  rdata := 0
  freeIdx := 0
  out := []
  cul := Culture.init
  engines := []
  ladle := Ladle.init
  press := Press.init
  evr := Evr.init
  err := ErrSt.init
  sw := Sw.init
  tim := Tim.init
  vat := Vat.init
  acq := Acq.init
  lst := Lst.init
  red := Red.init
  host := HostSt.init
  keys := Keys.init
  persist := Persist.init
  sys := SysSt.init
  latch := []
  wlatch := []
  pubs := []
  gsubs := []
  idata := []
  outImg := []
  vars := []
  instCycles := []

/-- The block: the module and the commands that wait, first in, first out. -/
structure State where
  /-- The module. -/
  m : Module
  /-- The commands that wait, the next to run first. -/
  pending : List Instr
  deriving DecidableEq, Repr

/-- The block right after power-on, with no command waiting. DESIGN CHOICE, assumption 1. -/
def State.reset : State := ⟨Module.reset, []⟩

end Sys2Proof.Machine
end

