-- ==== Sys2Proof/Machine/Ops.lean ====
section
/-!
DEFINITION. The shared operations: the register store, the counters and flags of R20 and R21, time, free values,
what the module sends out, and the CRCs it uses.
-/

namespace Sys2Proof.Machine

/-! ### The register store -/

/-- The key of a field in the store. -/
def Fld.key (f : Fld) : Nat := f.addr * 32 + f.lsb

/-- The value of a register field. -/
def Module.rd (m : Module) (f : Fld) : Nat := m.regs.getD f.key f.dflt

/-- Sets a register field; a field at its reset value is not listed. -/
def Module.wr (m : Module) (f : Fld) (v : Nat) : Module :=
  { m with regs := if v % 2 ^ f.width = f.dflt then m.regs.erase f.key else m.regs.set f.key (v % 2 ^ f.width) }

/-- Sets a flag. -/
def Module.flag (m : Module) (f : Fld) : Module := m.wr f 1

/-- Adds to a counter, which saturates at all ones (R20). -/
def Module.bumpBy (m : Module) (f : Fld) (n : Nat) : Module :=
  let v := m.rd f + n
  m.wr f (if v ≥ 2 ^ f.width then 2 ^ f.width - 1 else v)

def Module.bump (m : Module) (f : Fld) : Module := m.bumpBy f 1

/-- Whether a one-bit field is 1. -/
def Module.isOn (m : Module) (f : Fld) : Bool := m.rd f == 1

/-- A two-word value. -/
def Module.rd64 (m : Module) (lo hi : Fld) : Nat := m.rd lo + 2 ^ 32 * m.rd hi

def Module.wr64 (m : Module) (lo hi : Fld) (v : Nat) : Module := (m.wr lo v).wr hi (v / 2 ^ 32)

/-- Whether a function of SYS_READY is usable. -/
def Module.ready (m : Module) (bit : Nat) : Bool := bitOf (m.rd R.SYS_READY_READY) bit

/-- Whether a configuration table entry is damaged and not yet repaired, and so absent to every use (R481): kinds 0 forwarding,
1 VLAN, 2 group, 3 HP set, 4 subscription, 5 coefficient, 6 task descriptor, 7 LST connection.
DEDUCED, assumptions 57 and 75. -/
def Module.gone (m : Module) (kind i : Nat) : Bool := m.err.absent.contains (kind, i)

/-! ### Time -/

/-- One nanosecond in the units of the clocks. DESIGN CHOICE, assumption 6. -/
def nsUnit : Nat := 2 ^ 32

/-- The primary clock's total nanosecond count (R169). -/
def Module.tns (m : Module) : Nat := m.clk / nsUnit

/-- TS32 (R14). -/
def Module.ts32 (m : Module) : Nat := m.tns % 2 ^ 32

/-- n fabric cycles of 0.8 ns in the units of the clocks. -/
def fabric (n : Nat) : Nat := n * 4 * nsUnit / 5

/-- Time passes (`mono` is the time that windows are judged by: it runs in RESET too, and a clock step moves it, R189);
the primary clock stands still in RESET (Table 1.5). No time passes while a step ends its windows (R189).
DESIGN CHOICE, assumptions 2 and 6. -/
def Module.adv (m : Module) (d : Nat) : Module :=
  if m.sys.still then m else { m with mono := m.mono + d, clk := if m.mode = .reset then m.clk else m.clk + d }

/-- Time runs on to an instant of the primary clock, in ns; a past instant changes nothing.
DESIGN CHOICE, assumption 6. -/
def Module.reach (m : Module) (t : Nat) : Module := m.adv (t * nsUnit - m.clk)

/-- Time runs on to an elapsed time. -/
def Module.reachMono (m : Module) (t : Nat) : Module := m.adv (t - m.mono)

/-- b - a of two TS32 values, read as signed (R14). -/
def tsDiff (b a : Nat) : Int := signedOf (b + 2 ^ 32 - a % 2 ^ 32) 32

/-- Whether TS32 value b is later than a (R14). DEDUCED, assumption 63. -/
def tsLater (b a : Nat) : Bool := decide (0 < tsDiff b a)

/-- The instant of the primary clock, in ns, that a TS32 value near now names (R14). -/
def Module.nsOfTs (m : Module) (t : Nat) : Nat := ((m.tns : Int) + tsDiff t m.ts32).toNat

/-! ### Free values and outputs -/

/-- A fresh index for a free value. DESIGN CHOICE, assumption 3. -/
def Module.freshIdx (m : Module) : Nat × Module := (m.freeIdx, { m with freeIdx := m.freeIdx + 1 })

def Module.emit (m : Module) (e : Emission) : Module := { m with out := m.out ++ [e] }

/-! ### Check values -/

def reflectBits (n w : Nat) : Nat := (List.range n).foldl (fun a i => if bitOf w i then a + 2 ^ (n - 1 - i) else a) 0

/-- One bit of a CRC of width w, most significant bit first. -/
def crcBit (w poly r : Nat) (b : Bool) : Nat :=
  let top := bitOf r (w - 1) != b
  let s := r * 2 % 2 ^ w
  if top then s ^^^ poly else s

/-- One byte of a CRC of width w; `refin` feeds its least significant bit first. -/
def crcByte (w poly : Nat) (refin : Bool) (r : Nat) (x : Byte) : Nat :=
  (List.range 8).foldl (fun a i => crcBit w poly a (x.getLsbD (if refin then i else 7 - i))) r

/-- The final value of a CRC register. -/
def crcFinish (w : Nat) (refout : Bool) (xorout r : Nat) : Nat :=
  ((if refout then reflectBits w r else r) ^^^ xorout) % 2 ^ w

/-- CRC-32C (Table 0.5). -/
def crc32c (b : Bytes) : Nat :=
  crcFinish 32 true 0xFFFFFFFF (b.foldl (crcByte 32 0x1EDC6F41 true) 0xFFFFFFFF)

/-- The CRC-16 of the ZT2200 layout (R377). -/
def crc16 (b : Bytes) : Nat := b.foldl (crcByte 16 0x1021 false) 0xFFFF

/-! ### Sparse maps -/

/-- Changes the value at a key, which holds `d` where it is not listed. -/
def modMap {α : Type} (m : SMap α) (k : Nat) (d : α) (f : α → α) : SMap α := m.set k (f (m.getD k d))

/-- Bytes of a sparse memory whose unlisted bytes are 0. DESIGN CHOICE, assumption 13. -/
def memBytes (m : SMap Byte) (off n : Nat) : Bytes := (List.range n).map fun i => m.getD (off + i) 0

/-- Puts bytes into a sparse memory whose unlisted bytes are 0. -/
def memPut (m : SMap Byte) (off : Nat) : Bytes → SMap Byte
  | [] => m
  | b :: r => memPut (if b = 0 then m.erase off else m.set off b) (off + 1) r

/-! ### The canonical form of the stores -/

/-- The same store with its keys strictly rising: of two entries at one key, the first stays. -/
def SMap.rebuild {α : Type} (l : SMap α) : SMap α := l.foldr (fun x a => SMap.set a x.1 x.2) []

/-- A store in canonical form; one that is in it already is answered as it stands. DESIGN CHOICE, assumption 5. -/
def SMap.tidy {α : Type} (l : SMap α) : SMap α := if SMap.rising l then l else SMap.rebuild l

/-- The canonical form of a sparse memory: keys strictly rising, no entry equal to the 0 that an unlisted byte reads as. -/
def SMap.memWf (l : SMap Byte) : Bool := SMap.rising l && l.all fun x => x.2 != 0

/-- A sparse memory in canonical form. DESIGN CHOICE, assumption 5. -/
def SMap.tidyMem (l : SMap Byte) : SMap Byte := if SMap.memWf l then l else (SMap.rebuild l).filter fun x => x.2 != 0

/-- A family of sparse memories in canonical form. -/
def SMap.tidyMems (l : SMap (SMap Byte)) : SMap (SMap Byte) := (SMap.tidy l).map fun x => (x.1, SMap.tidyMem x.2)

/-- The canonical form of a family of sparse memories. -/
def SMap.memsWf (l : SMap (SMap Byte)) : Bool := SMap.rising l && l.all fun x => SMap.memWf x.2

/-- The canonical form of the module's stores and memories. DESIGN CHOICE, assumption 5. -/
def Module.wf (m : Module) : Bool :=
  SMap.rising m.regs && SMap.rising m.engines && SMap.rising m.ladle.tasks && SMap.rising m.latch && SMap.rising m.wlatch &&
    SMap.rising m.pubs && SMap.rising m.gsubs && SMap.rising m.vars && SMap.rising m.instCycles &&
    SMap.rising m.host.queues && SMap.rising m.host.xlt && SMap.rising m.keys.slots &&
    SMap.memsWf m.idata && SMap.memsWf m.outImg && SMap.memWf m.evr.cave

/-- The module with its stores and memories in canonical form: what is read from them does not change (`get_tidy`,
`getD_tidyMem` under Laws), so that equal contents are equal data. DESIGN CHOICE, assumption 5. -/
def Module.settle (m : Module) : Module :=
  { m with
    regs := SMap.tidy m.regs, engines := SMap.tidy m.engines, ladle.tasks := SMap.tidy m.ladle.tasks
    latch := SMap.tidy m.latch, wlatch := SMap.tidy m.wlatch, pubs := SMap.tidy m.pubs, gsubs := SMap.tidy m.gsubs
    vars := SMap.tidy m.vars, instCycles := SMap.tidy m.instCycles, host.queues := SMap.tidy m.host.queues
    host.xlt := SMap.tidy m.host.xlt, keys.slots := SMap.tidy m.keys.slots, idata := SMap.tidyMems m.idata
    outImg := SMap.tidyMems m.outImg, evr.cave := SMap.tidyMem m.evr.cave }

/-- The next state in which a command has changed the module and nothing of the queue. DESIGN CHOICE, assumption 4. -/
def State.upd (s : State) (f : Module → Module) : Host.Outcome State Fault Refusal := .next { s with m := (f s.m).settle }

end Sys2Proof.Machine
end

