-- ==== Sys2Proof/Machine/Buffers.lean ====
section
/-!
DEFINITION. Ports, output queues, the cells they hold and the admission rule of R164, the credits of R161, and what
the status registers of the switch show of them.
-/

namespace Sys2Proof.Machine

/-! ### Ports -/

/-- The redundancy mode of a pair, read at its lower port; 0 elsewhere (R141). -/
def Module.redund (m : Module) (p : Nat) : Nat :=
  if p < 10 ∧ p % 2 = 0 then m.rd (R.MAC_CTRL_REDUND p) else 0

/-- Whether a front-panel port belongs to a redundant pair. -/
def Module.inPair (m : Module) (p : Nat) : Bool := decide (p < 10) && m.redund (p / 2 * 2) != 0

/-- The upper port of a redundant pair, which has no switch port of its own (R147). -/
def Module.upperOfPair (m : Module) (p : Nat) : Bool := decide (p % 2 = 1) && m.inPair p

/-- Whether a port counts as up: a port with MACsec only once it is secure (R127). -/
def Module.linkUp (m : Module) (p : Nat) : Bool :=
  m.isOn (R.MAC_STATUS_LINK p) && (!m.isOn (R.MAC_CTRL_MACSEC_EN p) || m.isOn (R.MAC_SEC_STAT_SECURE p))

/-- Whether a switch port's MAC or pair has a link. -/
def Module.portUp (m : Module) (p : Nat) : Bool := m.linkUp p || (m.redund p != 0 && m.linkUp (p + 1))

def Module.holding (m : Module) (p : Nat) : Bool := m.isOn (R.MAC_STATUS_HOLDING p)

def Module.swCnt (m : Module) (p k : Nat) : Module := m.bump (R.SWC_CNT_CNT p k)
def Module.macCnt (m : Module) (p k : Nat) : Module := m.bump (R.MAC_CNT_CNT p k)

/-- Whether the MACs and the switch work: usable (R113), and not in RESET, LOAD or FLUSH (R128). -/
def Module.swOn (m : Module) : Bool :=
  m.mode != .reset && m.mode != .load && m.mode != .flush && m.ready 1 && m.ready 2

/-- The rate a port runs at: SPEED, or with SPEED 0 the highest that the fitted module declares (R125). -/
def Module.wantedRate (m : Module) (p : Nat) : Nat :=
  let s := m.rd (R.MAC_CTRL_SPEED p)
  let d := m.sw.declared.getD p 0
  if s ≠ 0 then s else if bitOf d 3 then 3 else if bitOf d 2 then 2 else if bitOf d 1 then 1 else 0

/-- RATE_MISMATCH (R125): the fitted module does not declare the configured rate, or 25 GbE on PL. -/
def Module.mismatch (m : Module) (p : Nat) : Bool :=
  m.isOn (R.MAC_STATUS_MOD_PRESENT p) && !bitOf (m.sw.declared.getD p 0) (if p = 10 then 3 else m.wantedRate p)

/-- Shows RATE_MISMATCH of every port, as SPEED and the fitted modules stand (R125). -/
def Module.showMismatch (m : Module) : Module :=
  (List.range 11).foldl (fun m p => m.wr (R.MAC_STATUS_RATE_MISMATCH p) (b2n (m.mismatch p))) m

/-! ### Buffer admission (R163 to R167) -/

/-- An output queue: a class queue of a switch port, or an instance's queue on HP. -/
inductive QId where
  | cls (p q : Nat)
  | hp (i : Nat)
  deriving DecidableEq, Repr

def Module.queue (m : Module) : QId → List Copy
  | .cls p q => m.sw.queues.getD (8 * p + q) []
  | .hp i => m.sw.hpq.getD i []

/-- Replaces a queue; an empty queue is not listed. -/
def putQ (s : SMap (List Copy)) (k : Nat) (l : List Copy) : SMap (List Copy) := if l = [] then s.erase k else s.set k l

def Module.setQueue (m : Module) (j : QId) (l : List Copy) : Module :=
  match j with
  | .cls p q => { m with sw := { m.sw with queues := putQ m.sw.queues (8 * p + q) l } }
  | .hp i => { m with sw := { m.sw with hpq := putQ m.sw.hpq i l } }

def cellsIn (l : List Copy) : Nat := l.foldl (fun a c => a + c.cells) 0

/-- The cells that a cut-through frame under way is charged to a queue. -/
def Module.cutCells (m : Module) : QId → Nat
  | .cls p q => m.sw.cuts.foldl (fun a (_, c) => if c.dest = p ∧ c.cls = q ∧ c.admitted then a + c.cells else a) 0
  | .hp _ => 0

/-- U of R164. -/
def Module.used (m : Module) (j : QId) : Nat := cellsIn (m.queue j) + m.cutCells j

/-- G of R164. -/
def Module.guar (m : Module) : QId → Nat
  | .cls p q => m.rd (R.SWC_Q_CFG_MIN_CELLS p q)
  | .hp i => m.rd (R.INS_INST_SHARE_HP_HP_MIN i)

/-- A of R164. -/
def Module.alpha (m : Module) : QId → Nat
  | .cls p q => m.rd (R.SWC_Q_CFG_ALPHA p q)
  | .hp i => m.rd (R.INS_INST_SHARE_HP_HP_WEIGHT i)

/-- The class queues: P0 to P9 and EP. -/
def classQueues : List QId :=
  ((List.range 10) ++ [11]).flatMap fun p => (List.range 8).map fun q => QId.cls p q

/-- Whether an instance is known to the module: its SYS state is not "not admitted". -/
def Module.instAdmitted (m : Module) (i : Nat) : Bool := m.rd (R.INS_INST_STAT_STATE i) != 0

/-- The admitted instances. -/
def Module.instances (m : Module) : List Nat := (m.cul.instSizes.map (·.1)).filter m.instAdmitted

/-- The sum of the guaranteed minimums (R165). -/
def Module.minSum (m : Module) : Nat :=
  classQueues.foldl (fun a j => a + m.guar j) 0 + m.instances.foldl (fun a i => a + m.guar (.hp i)) 0

/-- S of R164. -/
def Module.pool (m : Module) : Nat := 65536 - 864 - m.minSum

/-- F of R164. -/
def Module.shared (m : Module) : Nat :=
  let excess := classQueues.foldl (fun a j => a + (m.used j - m.guar j)) 0 +
    m.sw.hpq.foldl (fun a (i, _) => a + (m.used (.hp i) - m.guar (.hp i))) 0
  m.pool - excess

/-- The admission rule of R164 for n cells. -/
def Module.admits (m : Module) (j : QId) (n : Nat) : Bool :=
  decide (m.used j + n ≤ m.guar j + m.shared * m.alpha j / 64)

/-- The switch port of a queue. -/
def QId.port : QId → Nat
  | .cls p _ => p
  | .hp _ => 10

/-! ### Credits (R161) -/

/-- A port's running rate in bits per ns; 0 while down. -/
def rateOf (code : Nat) : Nat := if code = 1 then 1 else if code = 2 then 10 else if code = 3 then 25 else 0

def Module.runRate (m : Module) (p : Nat) : Nat := rateOf (m.rd (R.MAC_STATUS_RATE p))

/-- The idle slope in bits per second, scaled as at the latest link up. -/
def Module.slope (m : Module) (p q : Nat) : Nat :=
  let s := m.rd (R.SWC_Q_SHAPE_IDLE_SLOPE p q) * 1000000
  match m.sw.scale.get? p with
  | some (lim, sum) => s * lim / sum
  | none => s

def Module.paused (m : Module) (p q : Nat) : Bool := (m.sw.pauses.get? (8 * p + q)).isSome

/-- The credit of a class now, in 2^-32 × 10^-9 bit. -/
def Module.creditNow (m : Module) (p q : Nat) : Int :=
  let (v, t0) := m.sw.credits.getD (8 * p + q) (0, m.mono)
  let s : Int := m.slope p q
  let stop := match m.sw.wire.get? p with
    | some (e, k) => if k = q then min e m.mono else t0
    | none => t0
  let v := v + (s - (m.runRate p * 1000000000 : Nat)) * ((stop - t0 : Nat) : Int)
  let dt : Int := ((m.mono - max stop t0 : Nat) : Int)
  if m.paused p q then v
  else if m.queue (.cls p q) ≠ [] then
    min (((m.rd (R.SWC_Q_HICREDIT_HI_CREDIT p q) * 1000000000 * 2 ^ 32 : Nat)) : Int) (v + s * dt)
  else if v < 0 then min 0 (v + s * dt) else 0

/-- Brings the credits of a port's classes 4 to 6 up to now; before anything that they depend on changes. -/
def Module.syncCredits (m : Module) (p : Nat) : Module :=
  if 10 ≤ p then m
  else [4, 5, 6].foldl (fun m q =>
    if m.rd (R.SWC_Q_SHAPE_IDLE_SLOPE p q) = 0 then m
    else { m with sw := { m.sw with credits := m.sw.credits.set (8 * p + q) (m.creditNow p q, m.mono) } }) m

/-- The cells physically held: each frame once, whatever copies refer to it (R158). -/
def Module.cellsHeld (m : Module) : Nat :=
  let all := (m.sw.queues.flatMap (·.2)) ++ (m.sw.hpq.flatMap (·.2))
  (all.foldl (fun (acc : List Nat × Nat) c =>
    if acc.1.contains c.fid then acc else (c.fid :: acc.1, acc.2 + c.cells)) ([], 0)).2

/-- The status views of the MACs and the switch. -/
def Module.swView (m : Module) (addr lsb : Nat) : Option Nat :=
  if 0x300000 ≤ addr ∧ addr < 0x3b0000 then
    let p := (addr - 0x300000) / 0x10000
    let o := addr % 0x10000
    if o = 0x10 then some ((List.range 8).foldl (fun a q => a + b2n (m.paused p q) * 2 ^ q) 0)
    else if 0x200 ≤ o ∧ o < 0x210 then some (((m.sw.tsq.getD p []).headD []).getD ((o - 0x200) / 4) 0)
    else if o = 0x214 then some (m.sw.tsq.getD p []).length
    else none
  else if addr = 0x400004 ∧ lsb = 0 then some m.sw.fdb.length
  else if addr = 0x400008 then some (65536 - m.cellsHeld)
  else if addr = 0x40000c then some m.shared
  else if addr = 0x400018 then some m.pool
  else if 0x401000 ≤ addr ∧ addr < 0x401c00 then
    let p := (addr - 0x401000) / 0x100
    let q := addr % 0x100 / 0x20
    if addr % 0x20 = 0xc then some (m.used (.cls p q))
    else if addr % 0x20 = 0x10 then
      some (if 4 ≤ q ∧ q ≤ 6 ∧ p < 10 then unsignedOf (m.creditNow p q / (1000000000 * 2 ^ 32 : Nat)) 32 else 0)
    else none
  else if 0x408000 ≤ addr ∧ addr < 0x40c000 then some (m.used (.hp ((addr - 0x408000) / 4)))
  else none

end Sys2Proof.Machine
end

