-- ==== Sys2Proof/Machine/Chains.lean ====
section
/-!
DEFINITION. Grids and the plain quantities of a chain (R198, R224, R226, R233), and what the registers of the Vat and of
the filter lanes show.
-/

namespace Sys2Proof.Machine

/-! ### Grids (R198) -/

/-- The instant, in ns, of grid index g = S × F + n of rate F. -/
def gridNs (f g : Nat) : Nat := g / f * 1000000000 + g % f * 1000000000 / f

/-- The first grid index of rate F at or after an instant. -/
def gridAt (f t : Nat) : Nat :=
  let g := t / 1000000000 * f + ceilDiv (t % 1000000000 * f) 1000000000
  -- ⌊n × 10^9 / F⌋ can reach t one index earlier
  if 0 < g ∧ t ≤ gridNs f (g - 1) then g - 1 else g

/-- The stream rates of Table 8.6. -/
def rateCode (c : Nat) : Nat :=
  if c = 0 then 4000 else if c = 1 then 4800 else if c = 2 then 12800 else if c = 3 then 14400
  else if c = 4 then 15360 else 96000

def Module.streamRate (m : Module) (s : Nat) : Nat := rateCode (m.rd (R.VAT_STRM_CFG_RATE_CODE s))

/-! ### Group delay and skew (R224, R226) -/

/-- 2 × G_c for the sets of a chain's stages. -/
def Module.gHalf (m : Module) (stages : List Stage) : Nat :=
  (stages.foldl (fun (acc : Nat × Nat) st => (acc.1 + (m.rd (R.FLT_SET_N st.set) - 1) * acc.2, acc.2 * st.decim)) (0, 1)).1

/-- G_c × T_1 rounded to the nearest ns. -/
def gDelayNs (half fs : Nat) : Nat := (half * 1000000000 + fs) / (2 * fs)

/-- The advance of stage 1 in 2^-16 input periods, and whether the limit applies (R224). -/
def Module.advance (m : Module) (c : Chan) (set : Nat) : Nat × Bool :=
  let lim := (m.rd (R.FLT_SET_N set) - 1) * 32768
  let a := c.sigma * m.streamRate c.stream * 65536 / 1000000000
  if lim < a then (lim, true) else (a, false)

def Module.chan? (m : Module) (c : Nat) : Option Chan := m.vat.chans.get? c
/-- Costs that a fade adds (R233): extra MAC/s and extra close MACs of stage i of chain c. -/
def Module.fadeCost (m : Module) (c : Chan) (i : Nat) : Nat × Nat :=
  match c.stages[i]? with
  | none => (0, 0)
  | some st =>
    let before := (c.stages.take i).foldl (fun a s => a * s.decim) 1
    let after := (c.stages.drop (i + 1)).foldl (fun a s => a * s.decim) 1
    let r := m.streamRate c.stream / before
    (st.nmax * r / st.decim, after * min st.nmax (st.decim * after))

/-- The fade reserve in use. -/
def Module.fadeLoad (m : Module) : Nat × Nat :=
  m.vat.chans.foldl (fun (acc : Nat × Nat) (_, c) =>
    match c.fade with
    | none => acc
    | some f => let (q, k) := m.fadeCost c f.stage; (acc.1 + q, acc.2 + k)) (0, 0)

/-! ### Views -/

/-- A chain's outputs left in a running fade; none where no fade has begun. -/
def Chan.fading (c : Chan) : Option Nat := c.fade.bind fun f => if 0 < f.done then some (f.len - f.done) else none

/-- The status views of the filter lanes. -/
def Module.fltView (m : Module) (addr lsb : Nat) : Option Nat :=
  let sel := m.chan? (m.rd R.FLT_CHAIN_SEL_CHAIN)
  let stage (i : Nat) := sel.bind fun c => c.stages[i]?
  if addr = 0x600004 then some (m.vat.chans.filter fun (_, c) => c.fading.isSome).length
  else if addr = 0x600014 then some (if lsb = 0 then ceilDiv m.fadeLoad.1 1000000 else m.fadeLoad.2)
  else if addr = 0x600024 then some (m.vat.cmem.getD (m.rd R.FLT_CMEM_ADDR_WORD) 0)
  else if addr = 0x600044 then
    some (match sel with
      | none => 0
      | some c => if lsb = 0 then c.stages.length else if lsb = 2 then c.kdef
        else c.stages.foldl (fun a s => a * s.decim) 1)
  else if 0x600048 ≤ addr ∧ addr < 0x600054 then
    some (match stage ((addr - 0x600048) / 4) with
      | none => 0
      | some s => if lsb = 0 then s.set else if lsb = 10 then s.nmax else s.decim)
  else if addr = 0x600054 then some ((sel.map fun c => m.gHalf c.stages).getD 0)
  else if 0x680000 ≤ addr ∧ addr < 0x6c0000 then
    match m.chan? ((addr - 0x680000) / 4) with
    | none => none
    | some c =>
      if lsb = 2 then some (b2n c.pend.isSome)
      else if lsb = 3 then some (b2n c.clip)
      else if lsb = 6 then some (c.fading.getD 0)
      else none
  else none

/-- The status views of the Vat. -/
def Module.vatView (m : Module) (addr lsb : Nat) : Option Nat :=
  if addr = 0x500004 ∧ lsb = 0 then
    some (m.vat.rates.foldl (fun a (v, r) => a + b2n r.running * 2 ^ v) 0)
  else if 0x510000 ≤ addr ∧ addr < 0x550000 ∧ addr % 0x80 = 0xc ∧ lsb = 0 then
    (m.vat.streams.get? ((addr - 0x510000) / 0x80)).map (·.state.code)
  else if 0x600000 ≤ addr ∧ addr < 0x700000 then m.fltView addr lsb
  else none

end Sys2Proof.Machine
end

