-- ==== Sys2Proof/Machine/Status.lean ====
section
/-!
DEFINITION. What status registers show of the host interface, acquisition, pair redundancy, the key store.
-/

namespace Sys2Proof.Machine

/-! ### Host interface -/

/-- A queue of the host interface, by instance and queue code (R324). -/
def Module.hq (m : Module) (i q : Nat) : HQueue := m.host.queues.getD (8 * i + q) HQueue.init

/-- The register of a function: the PF's in the INS block, a VF's in its window. -/
def fnReg (fn pf vf lsb width : Nat) : Fld := if fn = 0 then ⟨pf, lsb, width, 0⟩ else ⟨vfBase + fn * 0x10000 + vf, lsb, width, 0⟩

def Module.qselInst (m : Module) (fn : Nat) : Nat := m.rd (fnReg fn 0x1000080 0x40 0 12)
def Module.qselQueue (m : Module) (fn : Nat) : Nat := m.rd (fnReg fn 0x1000080 0x40 12 3)

/-- The queue that a function's INS_QSEL names, word w of its configuration (INS_QCFG). -/
def Module.qcfgView (m : Module) (fn w lsb : Nat) : Nat :=
  let q := m.hq (m.qselInst fn) (m.qselQueue fn)
  if w = 0 then q.base
  else if w = 1 then q.base / 2 ^ 32
  else if w = 2 then (if lsb = 0 then b2n q.en else if lsb = 1 then q.log2 else if lsb = 5 then q.vector else q.modUs)
  else if w = 3 then q.aux
  else if w = 4 then q.aux / 2 ^ 32
  else if lsb = 0 then b2n q.en else if lsb = 1 then q.cause else q.head

/-- What function fn reads of its queue selection, and a VF of its window (Table 13.2). -/
def Module.insView (m : Module) (addr lsb : Nat) : Option Nat :=
  if 0x1000084 ≤ addr ∧ addr < 0x100009c then some (m.qcfgView 0 ((addr - 0x1000084) / 4) lsb)
  else if addr < vfBase then none
  else
    let fn := (addr - vfBase) / 0x10000
    let o := addr % 0x10000
    if 0x44 ≤ o ∧ o < 0x5c then some (m.qcfgView fn ((o - 0x44) / 4) lsb)
    else if o = 0x80 then some (if lsb = 0 then m.rd (R.INS_FN_VIOL_WIN_CNT fn) else m.rd (R.INS_FN_VIOL_ISOLATED fn))
    else if 0x1000 ≤ o ∧ o < 0x5000 then
      let i := (o - 0x1000) / 4
      let f (g : Nat → Fld) : Nat := m.rd (g i)
      some (if f R.INS_INST_STAT_OWNER ≠ 0x100 + fn then 0
        else if lsb = 0 then f R.INS_INST_STAT_STATE else if lsb = 2 then f R.INS_INST_STAT_ISOLATED
        else if lsb = 3 then f R.INS_INST_STAT_DRAINED else if lsb = 4 then f R.INS_INST_STAT_RESET_PENDING
        else if lsb = 5 then f R.INS_INST_STAT_GEN else f R.INS_INST_STAT_OWNER)
    else none

/-! ### Acquisition -/

/-- Whether a record may hold the row of a number and instant. -/
def AcqRec.holdsAt (r : AcqRec) (idx instant : Nat) : Bool :=
  decide (r.firstIdx ≤ idx) && decide (r.start ≤ instant) && decide (instant < r.fin) &&
    (match r.endIdx with
     | some n => decide (idx < n)
     | none => true)

/-- The rows of the ring that a record holds (R353). -/
def Session.recRows (x : Session) (r : AcqRec) : List AcqRow := x.rows.filter fun w => r.holdsAt w.idx w.instant

/-- FLAGS of a record: STEP or TIME_UNLOCKED, and GAP, also from the rows it holds (Table 14.4, R476). -/
def Session.recFlags (x : Session) (r : AcqRec) : Nat :=
  let rows := x.recRows r
  r.flags ||| ((if rows.any (·.flagged) then 2 ^ 7 else 0) + (if rows.any (·.gap) then 2 ^ 5 else 0))

/-- The status registers of sessions and directories. -/
def Module.acqView (m : Module) (addr lsb : Nat) : Option Nat :=
  if addr = 0xa00004 then
    some (m.acq.sessions.foldl (fun a (s, x) =>
      a + b2n (x.state == .recording || (lsb == 0 && x.state == .armed)) * 2 ^ s) 0)
  else if 0xa00400 ≤ addr ∧ addr < 0xa00600 then
    let o := addr % 0x20
    match m.acq.sessions.get? ((addr - 0xa00400) / 0x20) with
    | none => none
    | some x =>
      if o = 0 then
        if lsb = 0 then some x.state.code else if lsb = 3 then some (b2n x.armPending)
        else if lsb = 4 then some x.rdLog else if lsb = 7 then some x.haltCause
        else if lsb = 9 then some x.recs.length else none
      else if o = 4 then some x.recno
      else if o = 0xc then some x.buf
      else none
  else if 0xa10000 ≤ addr ∧ addr < 0xa14000 then
    match m.acq.sessions.get? ((addr - 0xa10000) / 0x400) with
    | none => none
    | some x =>
      match x.recs.get? (addr % 0x400 / 16) with
      | none => none
      | some r =>
        let o := addr % 16
        some (if o = 0 then r.recno else if o = 4 then (if lsb = 0 then 1 else x.recFlags r)
          else if o = 8 then r.trig else (x.recRows r).length)
  else none

/-! ### Claims and the pair -/

/-- The module's position in its pair (R390). -/
def Module.position (m : Module) : Nat := bitsOf (m.rd R.SYS_SEAL_AT_RESET) 4 1

/-- Whether the module is the preferred member; where the peer holds the same position, the higher BOOT_ID is (R397). -/
def Module.preferred (m : Module) : Bool :=
  m.red.cfg.pairMode &&
    (match m.red.peer with
     | some p => if p.flags % 2 = m.position then decide (p.bootId < m.red.bootId) else m.position == m.red.cfg.prefPos
     | none => m.position == m.red.cfg.prefPos)

/-- The module's claim (Table 16.2). -/
def Module.claim (m : Module) : Nat :=
  if !m.red.serv then 0
  else
    let act := m.red.role == .active || m.red.role == .standalone
    let health := if m.mode = .safeHold then 0 else m.rd R.RED_PENALTY_HEALTH
    2 ^ 31 + b2n act * 2 ^ 30 + b2n m.preferred * 2 ^ 29 + health * 2 ^ 16 + m.red.epoch % 2 ^ 16

/-- The instances out of sync (RED_INST_SYNC other than 0). -/
def Module.unsynced (m : Module) : List Nat :=
  (m.cul.instSizes.map (·.1)).filter fun i => m.rd (R.RED_INST_SYNC_STATE i) != 0

/-- Whether a valid heartbeat of a path (0 PL, 1 station) came within its period. -/
def Module.pathOk (m : Module) (path : Nat) : Bool :=
  match m.red.tLast.get? path with
  | some t => decide (m.tns ≤ t + (if path = 0 then 100000 else 400000))
  | none => false

/-- The status registers of the pair. -/
def Module.redView (m : Module) (addr lsb : Nat) : Option Nat :=
  if addr = 0xc00004 then
    if lsb = 0 then some m.red.role.code
    else if lsb = 2 then some m.position
    else if lsb = 4 then some (b2n (m.pathOk 0))
    else if lsb = 5 then some (b2n (m.pathOk 1))
    else if lsb = 6 then some (b2n (m.unsynced.isEmpty))
    else if lsb = 8 then some (min 255 m.red.xfers.length)
    else if lsb = 16 then some m.unsynced.length
    else none
  else if addr = 0xc00008 then some m.claim
  else if addr = 0xc0000c then some ((m.red.peer.map (·.claim)).getD 0)
  else if addr = 0xc00010 then some ((m.red.peer.map fun p => if lsb = 0 then p.flags else p.mode).getD 0)
  else none

/-! ### Key store -/

def Module.slot (m : Module) (s : Nat) : KeySlot := m.keys.slots.getD s KeySlot.init
/-- SEND_HALF as it stands for a frame authenticated now (R449). -/
def Module.sendHalf (m : Module) (s : Nat) : Nat :=
  let k := m.slot s
  match k.pending with
  | some (t, h) => if tsLater t m.ts32 then k.sendHalf else h
  | none => k.sendHalf

def OwnerSlot.init : OwnerSlot := ⟨List.replicate 32 0, false, false⟩
/-- DESIGN CHOICE, assumption 10. -/
def Module.ownerSlot (m : Module) (n : Nat) : OwnerSlot := m.persist.owners.getD n OwnerSlot.init
def OwnerSlot.live (x : OwnerSlot) : Bool := x.programmed && !x.revoked

/-- The code of KEY_OWN_STAT. -/
def OwnerSlot.code (x : OwnerSlot) : Nat :=
  if !x.programmed && x.hash != List.replicate 32 0 then 3 else if x.revoked then 2 else b2n x.programmed

/-- The status registers of the key store. -/
def Module.keyView (m : Module) (addr lsb : Nat) : Option Nat :=
  if addr = 0xe00000 ∧ lsb = 4 then some (m.keys.slots.filter fun (_, x) => x.state == .ready).length
  else if addr = 0xe000a0 then
    some ((List.range 4).foldl (fun a n => a + (m.ownerSlot n).code * 4 ^ n) 0)
  else if 0xe01000 ≤ addr ∧ addr < 0xe02000 then
    let s := (addr - 0xe01000) / 4
    let x := m.slot s
    some (if lsb = 0 then x.state.code else if lsb = 3 then x.attr else if lsb = 6 then b2n x.section_
      else if lsb = 7 then b2n x.import_ else if lsb = 8 then m.sendHalf s
      else if lsb = 9 then b2n (x.pending.any fun (t, _) => tsLater t m.ts32)
      else if lsb = 10 then b2n (x.keys.get? 0).isSome + 2 * b2n (x.keys.get? 1).isSome
      else if lsb = 12 then x.alg else x.depth)
  else none


/-- The views of these blocks. -/
def Module.statusView (m : Module) (addr lsb : Nat) : Option Nat :=
  if 0xa00000 ≤ addr ∧ addr < 0xb00000 then m.acqView addr lsb
  else if 0xc00000 ≤ addr ∧ addr < 0xd00000 then m.redView addr lsb
  else if 0xe00000 ≤ addr ∧ addr < 0xf00000 then m.keyView addr lsb
  else m.insView addr lsb

end Sys2Proof.Machine
end

