-- ==== Sys2Proof/Machine/Views.lean ====
section
/-!
DEFINITION. Registers whose value is computed from the rest of the state (status views), and the read of a register
word (R15, R17): what a host read, a snapshot read and an event snapshot return. A read here clears nothing.
-/

namespace Sys2Proof.Machine

def Module.engine (m : Module) (e : Nat) : Engine := m.engines.getD e Engine.init

def Module.gen (m : Module) (i : Nat) : Nat := m.rd (R.INS_INST_STAT_GEN i)

/-- The instance data header of Table 10.4: INSTANCE, GEN, LAYOUT, CYCLES. The module's own 64 bytes. -/
def Module.instHeader (m : Module) (i : Nat) : Bytes :=
  leBytes 2 i ++ leBytes 1 (m.gen i) ++ [0] ++ leBytes 4 (m.cul.layouts.getD i 0) ++ leBytes 8 (m.instCycles.getD i 0)

/-- An instance's data as committed, with its header. -/
def Module.instData (m : Module) (i : Nat) : SMap Byte := memPut (m.idata.getD i []) 0 (m.instHeader i)

/-! ### Virtual clocks (R177) -/

/-- V_v in total nanoseconds, rounded down. -/
def Module.vcNow (m : Module) (v : Nat) : Int :=
  let p := m.tns
  let off := signedOf (m.rd64 (R.TIM_VC_OFF_LO_OFF v) (R.TIM_VC_OFF_HI_OFF v)) 64
  let rate := signedOf (m.rd (R.TIM_VC_RATE_RATE v)) 32
  p + off + ((p - m.tim.vcAt.getD v 0 : Int) * rate) / (65536 * 1000000000 : Nat)

/-- The views of the Timekeeper. -/
def Module.timView (m : Module) (addr lsb : Nat) : Option Nat :=
  if addr = 0x200004 then some (m.tns % 1000000000)
  else if addr = 0x200018 then some m.ts32
  else if addr = 0x20001c then some m.tim.incr
  else if addr = 0x200020 ∧ lsb = 0 then some (m.tim.incr / 2 ^ 32)
  else if addr = 0x200024 then some (unsignedOf (m.tim.y / 256) 32)
  else if 0x200100 ≤ addr ∧ addr < 0x200180 ∧ addr % 0x20 = 0x10 then
    let v := (addr - 0x200100) / 0x20
    some (if m.isOn (R.TIM_VC_CFG_EN v) then unsignedOf (m.vcNow v % 1000000000) 30 else 0)
  else none

/-- The fields that are computed from the state: none for a field that the register store holds. `lsb` is the
field's lowest bit. DESIGN CHOICE, assumption 20. -/
def liveView (m : Module) (addr lsb : Nat) : Option Nat :=
  if addr = 0 ∧ lsb = 24 then some (b2n Config.gradeCx)
  else if addr = 0x4 then
    if lsb = 0 then some m.mode.code
    else if lsb = 3 then some (if m.mode = .test then m.testFrom.code else 0)
    else none
  else if addr = 0x100014 ∧ lsb = 0 ∧ m.mode = .ripen then some ((m.mono - m.sys.upAt) / (1000000 * nsUnit))
  else if 0x200000 ≤ addr ∧ addr < 0x300000 then m.timView addr lsb
  -- Ports and switch
  else if 0x300000 ≤ addr ∧ addr < 0x500000 then m.swView addr lsb
  else if 0x500000 ≤ addr ∧ addr < 0x700000 then m.vatView addr lsb
  -- Ladle
  else if addr = 0x700004 then
    if lsb = 0 then some (m.ladle.tasks.foldl (fun a (_, t) => a + (t.opens.filter (·.ready)).length) 0)
    else some (m.ladle.tasks.foldl (fun a (_, t) => a + b2n t.running.isSome) 0)
  else if addr = 0x700008 then some (m.ladle.tasks.foldl (fun a (_, t) => a + t.opens.length) 0)
  else if addr = 0x700020 ∧ lsb = 0 then some m.ladle.trace.length
  else if 0x700030 ≤ addr ∧ addr < 0x700040 then
    some (((m.ladle.trace.headD []).getD ((addr - 0x700030) / 4) 0).toNat)
  else if 0x710000 ≤ addr ∧ addr < 0x730000 ∧ addr % 16 = 0 then
    match m.ladle.tasks.get? ((addr - 0x710000) / 16) with
    | none => none
    | some t =>
      if lsb = 0 then some t.state.code
      else if lsb = 2 then some (b2n t.enablePending)
      else if lsb = 3 then some t.opens.length
      else if lsb = 7 then some (b2n t.running.isSome)
      else if lsb = 8 then some t.consecOvr
      else none
  else if 0x7c0000 ≤ addr ∧ addr < 0x7e0000 then
    let w := (addr - 0x7c0000) / 0x4000
    let x := (addr - 0x7c0000) % 0x4000
    let i := m.rd (R.SCH_OLC_BASE_INSTANCE w)
    some (ofLe (memBytes (m.instData i) (0x4000 * m.rd (R.SCH_OLC_BASE_BLOCK w) + x) 4))
  -- Block Engines
  else if addr = 0x800004 then
    let n := fun s => ((List.range 32).filter fun e => (m.engine e).state = s).length
    some (if lsb = 0 then n .inService else n .failed)
  else if addr = 0x800008 then
    some ((List.range 32).foldl (fun a e => if (m.engine e).state = .inService then a else a + 2 ^ e) 0)
  else if 0x800100 ≤ addr ∧ addr < 0x800300 ∧ addr % 16 = 0 then
    let e := (addr - 0x800100) / 16
    let g := m.engine e
    if lsb = 0 then some g.state.code
    else if lsb = 3 then some (bitsOf (m.rd R.SCH_SLOW_SLOW) e 1)
    else if lsb = 4 then some ((List.range 4).foldl (fun a c => if (g.ctxs.get? c).isSome then a + 2 ^ c else a) 0)
    else if lsb = 8 then
      some (min 255 (g.mism.filter fun t => decide (m.mono < t + 24 * 3600 * 1000000000 * nsUnit)).length)
    else none
  else if 0x800100 ≤ addr ∧ addr < 0x800300 ∧ addr % 16 = 8 then
    some ((Config.issueLoad ((addr - 0x800100) / 16) m.mono).toNat % 101)
  else if 0x800400 ≤ addr ∧ addr < 0x800c00 then
    match (m.engine ((addr - 0x800400) / 64)).ctxs.get? (addr % 64 / 16) with
    | none => some 0
    | some c =>
      if addr % 16 = 0 then
        some (if lsb = 0 then 1 else if lsb = 1 then c.level else if lsb = 7 then c.task else c.inst)
      else if addr % 16 = 4 then some c.ct
      else some (if m.mode = .test then c.pc.toNat else 0)
  else if 0x805000 ≤ addr ∧ addr < 0x805620 then (if m.mode = .test then none else some 0)
  -- Press
  else if addr = 0x900004 then
    if lsb = 0 then some (bitsOf (m.rd R.SYS_READY_READY) 7 1)
    else if lsb = 8 then some (min 255 m.press.pending.length)
    else some m.press.groups.length
  else if addr = 0x900008 then some (m.press.visible % 2 ^ 32)
  else if addr = 0x90000c then some (m.press.visible / 2 ^ 32)
  else if addr = 0x900010 then some m.press.visibleTs
  -- Check-value units
  else if 0xf00044 ≤ addr ∧ addr < 0xf01000 ∧ (addr - 0xf00044) % 0x200 = 0 ∧ lsb = 0 then
    some (b2n (m.engines.any fun (_, g) => g.ctxs.any fun (_, x) =>
      match x.phase with
      | .waiting (.crc _ u _) => u == (addr - 0xf00044) / 0x200
      | _ => false))
  -- Linoa Safe Transport
  else if addr = 0xd00004 then
    some (m.lst.conns.filter fun (c, _) => !m.isOn (R.LST_CONN0_DIR c) &&
      m.rd (R.LST_CONN8_STATE c) == (if lsb = 0 then 1 else 2)).length
  else if addr = 0xdf0000 then
    some (if lsb = 0 then m.rd R.SYS_SEAL_AT_RESET else m.rd R.SYS_SEAL_AT_RESET / 2 ^ lsb)
  -- Event recorder
  else if addr = 0xb00004 then
    if lsb = 0 then some (b2n m.evr.frozen)
    else if lsb = 1 then some m.evr.queue.length
    else if lsb = 10 then some m.evr.buf.length
    else if lsb = 21 then some m.evr.layout
    else none
  else if addr = 0xb00010 then some (m.evr.nextSeq % 2 ^ 32)
  else if addr = 0xb00014 then some (m.evr.nextSeq / 2 ^ 32)
  else if addr = 0xb00018 then some m.evr.head
  else if addr = 0xb0001c then some m.evr.tail
  else if addr = 0xb00044 then some (ofLe (memBytes m.evr.cave (m.rd R.EVR_CAVE_ADDR_ADDR / 4 * 4) 4))
  else if 0xa00000 ≤ addr then m.statusView addr lsb
  else none

/-- What a read of a field returns (R15): 0 for WO, the value otherwise. -/
def Module.fieldView (m : Module) (addr : Nat) (f : FDesc) : Nat :=
  if f.acc = .wo then 0
  else match liveView m addr f.lsb with
    | some v => v % 2 ^ f.width
    | none => m.rd (f.at addr)

/-- The value of a register word; 0 at an unassigned offset (R17), and outside SYS until the module leaves RESET (R78). -/
def Module.word (m : Module) (addr : Nat) : Nat :=
  if m.mode = .reset ∧ 0x100000 ≤ addr then 0
  else match findReg addr with
    | none => 0
    | some d => d.fields.foldl (fun a f => a + m.fieldView addr f * 2 ^ f.lsb) 0

end Sys2Proof.Machine
end

