-- ==== Sys2Proof/Machine/Events.lean ====
section
/-!
DEFINITION. The event queue of the event recorder (R370 to R374, R381, R383): raising an event, its snapshot, its SEQ
or its loss.
-/

namespace Sys2Proof.Machine

/-- Bit k of the Seal Bank as sampled at reset (R76). -/
def Module.sealOn (m : Module) (k : Nat) : Bool := bitOf (m.rd R.SYS_SEAL_AT_RESET) k

/-- The value of a snapshot item (R374). -/
def Module.snapValue (m : Module) (i : SnapItem) : Nat :=
  if i.kind = 2 then (m.vars.getD i.ref (0, 0)).2 else m.word i.ref

/-- The rule that applies to an event: the first whose SOURCE and CODE range match (R373). -/
def Module.evRule (m : Module) (source code : Nat) : Option EvRule :=
  m.cul.evRules.find? fun r => r.source == source && decide (r.codeLo ≤ code) && decide (code ≤ r.codeHi)

/-- The FLAGS of a record (Table 15.2): TIME_UNLOCKED, PRE_READY, HELD, TEST. -/
def Module.evFlags (m : Module) : Nat :=
  b2n (!m.isOn R.TIM_STATUS_LOCKED) + 2 * b2n (!m.ready 9) + 4 * b2n m.evr.frozen + 8 * b2n (decide (m.mode = .test))

/-- Puts a record of the recorder's own (LOST, START, FORMAT) into the queue with the next SEQ.
DESIGN CHOICE, assumption 17. -/
def Module.ownRecord (m : Module) (typ data : Nat) (front : Bool) : Module :=
  let (src, code, dlen) := Config.recorderOwn typ
  let r : EvRec := ⟨typ, m.evr.nextSeq, m.tns, code, src, m.evFlags, 0xFFFF, 0xFFFF, dlen, data, []⟩
  { m with evr := { m.evr with
      queue := if front then r :: m.evr.queue else m.evr.queue ++ [r], nextSeq := m.evr.nextSeq + 1 } }

/-- Where events were lost and the queue has room again, the LOST record goes in first (R381). -/
def Module.enqueueLost (m : Module) : Module :=
  if m.evr.lost = 0 ∨ m.evr.queue.length ≥ 256 then m
  else
    let m := m.ownRecord 1 m.evr.lost false
    { m with evr := { m.evr with lost := 0 } }.bump (R.EVR_CNT_CNT 3)

/-- Counts a lost event (R381). -/
def Module.loseEvent (m : Module) : Module :=
  (({ m with evr := { m.evr with lost := m.evr.lost + 1 } }).bump R.EVR_LOST_CNT_CNT).bump (R.EVR_CNT_CNT 2)

/-- EVENT_ENQUEUE (R372): an event or mark is matched against the rules, snapshotted and queued with its SEQ, or lost.
The recorder takes events from entry to LOAD up to entry to FLUSH (R31, R384). -/
def Module.takeEvent (m : Module) (source code inst task dlen data : Nat) : Module :=
  if m.mode = .reset ∨ m.evr.flushing then m
  else
    let m := m.bump (R.EVR_CNT_CNT 0)
    let ready := m.ready 9
    let rule := if ready then m.evRule source code else none
    let drop := match rule with
      | some r => !r.record && source != 0
      | none => false
    if drop then m.bump (R.EVR_CNT_CNT 7)
    else
      let m := m.enqueueLost
      if m.evr.queue.length ≥ 256 then m.loseEvent
      else
        let items := match rule with
          | some r => if r.record then (match r.list with
              | some l => m.cul.snapLists.getD l []
              | none => []) else []
          | none => []
        let r : EvRec := ⟨0, m.evr.nextSeq, m.tns, code, source, m.evFlags, inst, task, dlen, data,
          items.map m.snapValue⟩
        { m with evr := { m.evr with queue := m.evr.queue ++ [r], nextSeq := m.evr.nextSeq + 1 } }

/-- A block event (R370): its number and cause, the instance and task it concerns (0xFFFF for none), its DATA. -/
def Module.raise (m : Module) (source num cause inst task data : Nat) : Module :=
  m.takeEvent source (num * 256 + cause % 256) inst task 8 data

/-- A block event that concerns no instance and no task. -/
def Module.raise' (m : Module) (source num cause data : Nat) : Module := m.raise source num cause 0xFFFF 0xFFFF data

/-- A block event that the block's LOG_EN governs. -/
def Module.raiseIf (m : Module) (en : Fld) (source num cause inst task data : Nat) : Module :=
  if m.isOn en then m.raise source num cause inst task data else m

/-- The seal-denied event of R15: the BAR0 offset in [31:0] of DATA, the function in [39:32]. -/
def Module.sealDenied (m : Module) (addr fn : Nat) : Module := m.raise' 0 1 0 (addr % 2 ^ 32 + fn * 2 ^ 32)

end Sys2Proof.Machine
end

