-- ==== Sys2Proof/Machine/Errors.lean ====
section
/-!
DEFINITION. Reports into the error tree (R479 to R484): counters, sticky bits, log, first error, interrupt, events,
persistent corrected errors. What each source answers beside the report stands where that source's block is.
-/

namespace Sys2Proof.Machine

/-- The class of a source (Table 20.4): 0 CE, 1 UC, 2 UM, 3 HW. -/
def errClass (s : Nat) : Nat :=
  if s = 0 ∨ s = 8 ∨ s = 12 ∨ s = 14 ∨ s = 16 ∨ s = 22 then 0
  else if s = 20 then 2
  else if s = 25 ∨ s = 26 ∨ s = 27 then 3
  else 1

/-- A report: the source, its memory (7 for none), symbol, syndrome, address, instance (0xFFF none), engine. -/
structure ErrReport where
  s : Nat
  mem : Nat
  symbol : Nat
  syndrome : Nat
  addr : Nat
  inst : Nat
  engine : Nat
  deriving DecidableEq, Repr

/-- The four words of an error log entry (Table 20.5). -/
def ErrReport.words (r : ErrReport) (ts : Nat) : List Nat :=
  [r.s + errClass r.s * 2 ^ 5 + r.mem * 2 ^ 7 + r.symbol * 2 ^ 10 + r.syndrome % 2 ^ 16 * 2 ^ 16,
   r.addr % 2 ^ 32, bitsOf r.addr 32 8 + r.inst % 4096 * 2 ^ 8 + r.engine % 32 * 2 ^ 20, ts]

/-- Writes the log entry; the ring of 64 overwrites its oldest entry (R483). -/
def Module.errLog (m : Module) (w : List Nat) : Module :=
  let i := m.rd R.ERR_STATUS_LOG_NEXT
  let full := m.rd (R.ERR_LOG_ENTRY i 3) != 0 || m.rd (R.ERR_LOG_ENTRY i 0) != 0
  let m := (List.range 4).foldl (fun m k => m.wr (R.ERR_LOG_ENTRY i k) (w.getD k 0)) m
  let m := m.wr R.ERR_STATUS_LOG_NEXT (i + 1)
  if full then m.flag R.ERR_STATUS_LOG_OVF_STK else m

/-- A report of a class set in IRQ_MASK makes the PF's interrupt due (R484). DEDUCED, assumption 90. -/
def Module.errIrq (m : Module) (cls : Nat) : Module :=
  if bitOf (m.rd R.ERR_CTRL_IRQ_MASK) cls then { m with err := { m.err with irqDue := true } } else m

def dayUnits : Nat := 24 * 3600 * 1000000000 * nsUnit

/-- A corrected codeword enters the list of the latest 64; one that already stands there within 24 h is persistent
(R482). -/
def Module.ceAgain (m : Module) (mem addr : Nat) : Module :=
  let old := m.err.corrected.find? fun c => c.mem == mem && c.addr == addr
  let rest := m.err.corrected.filter fun c => !(c.mem == mem && c.addr == addr)
  let within := match old with
    | some c => decide (m.mono < c.at_ + dayUnits)
    | none => false
  let lastEv := old.bind (·.eventAt)
  let raise := within && (match lastEv with | some t => decide (t + dayUnits ≤ m.mono) | none => true)
  let entry : Corrected := ⟨mem, addr, m.mono, if raise then some m.mono else lastEv⟩
  let l := rest ++ [entry]
  let m := { m with err := { m.err with corrected := l.drop (l.length - 64) } }
  let m := if within then m.bump R.ERR_PERSIST_CNT_CNT else m
  if raise then m.raiseIf R.ERR_CTRL_LOG_EN 16 4 mem 0xFFFF 0xFFFF (addr % 2 ^ 32) else m

/-- Counts a corrected error of a memory in the current hour of the primary clock; event 1 once at CE_LIMIT (R484). -/
def Module.ceHour (m : Module) (mem : Nat) : Module :=
  let h := m.tns / 3600000000000
  let (h0, n0, r0) := m.err.hour.getD mem (h, 0, false)
  let (n, r) := if h0 = h then (n0 + 1, r0) else (1, false)
  let hit := !r && decide (m.rd R.ERR_CTRL_CE_LIMIT ≤ n)
  let m := { m with err := { m.err with hour := m.err.hour.set mem (h, n, r || hit) } }
  if hit then m.raiseIf R.ERR_CTRL_LOG_EN 16 1 mem 0xFFFF 0xFFFF 0 else m

/-- ERROR_REPORT (R480): a report enters the tree, is counted, logged, and raises its event and interrupt. -/
def Module.report (m : Module) (r : ErrReport) : Module :=
  let cls := errClass r.s
  let m := m.bump (R.ERR_SRC_CNT_CNT r.s)
  let m := m.wr R.ERR_SRC_STK_SRC_STK (m.rd R.ERR_SRC_STK_SRC_STK ||| 2 ^ r.s)
  let m := if r.mem < 7 then m.bump (if cls = 0 then R.MEM_CE_CNT_CNT r.mem else R.MEM_UE_CNT_CNT r.mem) else m
  let w := r.words m.ts32
  let m := m.errLog w
  let m := if (cls = 1 ∨ cls = 2) ∧ m.rd R.ERR_STATUS_FIRST_VALID = 0 then
      ((List.range 4).foldl (fun m k => m.wr (R.ERR_FIRST_ENTRY k) (w.getD k 0)) m).flag R.ERR_STATUS_FIRST_VALID
    else m
  let m := if cls = 1 then m.raiseIf R.ERR_CTRL_LOG_EN 16 2 r.s (if r.inst = 0xFFF then 0xFFFF else r.inst) 0xFFFF (r.addr % 2 ^ 32)
    else if cls = 2 then m.raiseIf R.ERR_CTRL_LOG_EN 16 3 r.s 0xFFFF 0xFFFF 0
    else if cls = 0 ∧ r.mem < 7 then (m.ceHour r.mem).ceAgain r.mem r.addr
    else m
  m.errIrq cls

/-- The report of what a read found: source `ceS` for a corrected symbol, `ueS` for an uncorrectable error.
DESIGN CHOICE, assumption 9. -/
def Module.readReport (m : Module) (err : ReadErr) (mem ceS ueS inst engine : Nat) : Module :=
  match err with
  | .clean => m
  | .ce a sym syn => m.report ⟨ceS, mem, sym, syn, a, inst, engine⟩
  | .ue a syn => m.report ⟨ueS, mem, 63, syn, a, inst, engine⟩

end Sys2Proof.Machine
end

