-- ==== Sys2Proof/Machine/Crypto.lean ====
section
/-!
DEFINITION. The cryptographic functions that the spec takes from the standards it names: SHA-256, HMAC, the derivation of
R440, ECDSA and ECDH on P-256, AES-256, GMAC, key wrap.
-/

namespace Sys2Proof.Machine

/-! ### SHA-256 (FIPS 180-4) -/

def shaK : List Word := [
  0x428a2f98, 0x71374491, 0xb5c0fbcf, 0xe9b5dba5, 0x3956c25b, 0x59f111f1, 0x923f82a4, 0xab1c5ed5,
  0xd807aa98, 0x12835b01, 0x243185be, 0x550c7dc3, 0x72be5d74, 0x80deb1fe, 0x9bdc06a7, 0xc19bf174,
  0xe49b69c1, 0xefbe4786, 0x0fc19dc6, 0x240ca1cc, 0x2de92c6f, 0x4a7484aa, 0x5cb0a9dc, 0x76f988da,
  0x983e5152, 0xa831c66d, 0xb00327c8, 0xbf597fc7, 0xc6e00bf3, 0xd5a79147, 0x06ca6351, 0x14292967] ++ [
  0x27b70a85, 0x2e1b2138, 0x4d2c6dfc, 0x53380d13, 0x650a7354, 0x766a0abb, 0x81c2c92e, 0x92722c85,
  0xa2bfe8a1, 0xa81a664b, 0xc24b8b70, 0xc76c51a3, 0xd192e819, 0xd6990624, 0xf40e3585, 0x106aa070,
  0x19a4c116, 0x1e376c08, 0x2748774c, 0x34b0bcb5, 0x391c0cb3, 0x4ed8aa4a, 0x5b9cca4f, 0x682e6ff3,
  0x748f82ee, 0x78a5636f, 0x84c87814, 0x8cc70208, 0x90befffa, 0xa4506ceb, 0xbef9a3f7, 0xc67178f2]

def shaInit : List Word := [0x6a09e667, 0xbb67ae85, 0x3c6ef372, 0xa54ff53a, 0x510e527f, 0x9b05688c, 0x1f83d9ab, 0x5be0cd19]

/-- The padded message. -/
def shaPad (m : Bytes) : Bytes :=
  m ++ [0x80] ++ List.replicate ((119 - m.length % 64) % 64) 0 ++ beBytes 8 (8 * m.length)

/-- Extends the message schedule by n words; the words are newest first. -/
def shaExtend : Nat → List Word → List Word
  | 0, w => w
  | n + 1, w =>
    let a := w.getD 14 0
    let b := w.getD 1 0
    let s0 := a.rotateRight 7 ^^^ a.rotateRight 18 ^^^ (a >>> 3)
    let s1 := b.rotateRight 17 ^^^ b.rotateRight 19 ^^^ (b >>> 10)
    shaExtend n ((w.getD 15 0 + s0 + w.getD 6 0 + s1) :: w)

def shaRound (v : List Word) (kw : Word × Word) : List Word :=
  match v with
  | [a, b, c, d, e, f, g, h] =>
    let s1 := e.rotateRight 6 ^^^ e.rotateRight 11 ^^^ e.rotateRight 25
    let t1 := h + s1 + ((e &&& f) ^^^ (~~~e &&& g)) + kw.1 + kw.2
    let s0 := a.rotateRight 2 ^^^ a.rotateRight 13 ^^^ a.rotateRight 22
    let t2 := s0 + ((a &&& b) ^^^ (a &&& c) ^^^ (b &&& c))
    [t1 + t2, a, b, c, d + t1, e, f, g]
  | _ => v

/-- One block of 64 bytes. -/
def shaBlock (h : List Word) (b : Bytes) : List Word :=
  let w0 := (List.range 16).map fun i => BitVec.ofNat 32 (beAt b (4 * i) 4)
  let w := (shaExtend 48 w0.reverse).reverse
  (h.zip ((shaK.zip w).foldl shaRound h)).map fun (x, y) => x + y

def shaBlocks : Nat → List Word → Bytes → List Word
  | 0, h, _ => h
  | n + 1, h, b => shaBlocks n (shaBlock h (b.take 64)) (b.drop 64)

/-- PRESUMED, assumption 97. -/
def sha256 (m : Bytes) : Bytes :=
  let p := shaPad m
  (shaBlocks (p.length / 64) shaInit p).flatMap fun w => beBytes 4 w.toNat

/-! ### HMAC-SHA-256 and the derivation of R440 -/

/-- PRESUMED, assumption 97. -/
def hmac (key m : Bytes) : Bytes :=
  let k := if 64 < key.length then sha256 key else key
  let k := k ++ List.replicate (64 - k.length) 0
  sha256 ((k.map (· ^^^ 0x5c)) ++ sha256 ((k.map (· ^^^ 0x36)) ++ m))

/-- The leading `bits` bits of the derived blocks: 256 or 320. PRESUMED, assumption 97. -/
def kdf (parent label : Bytes) (attr bits : Nat) : Bytes :=
  let block (i : Nat) := hmac parent (beBytes 4 i ++ label ++ [0] ++ beBytes 1 attr ++ beBytes 4 bits)
  ((block 1 ++ (if 256 < bits then block 2 else [])).take (bits / 8))

/-! ### P-256 -/

def p256P : Nat := 0xffffffff00000001000000000000000000000000ffffffffffffffffffffffff
def p256N : Nat := 0xffffffff00000000ffffffffffffffffbce6faada7179e84f3b9cac2fc632551
def p256B : Nat := 0x5ac635d8aa3a93e7b3ebbd55769886bc651d06b0cc53b0f63bce3c3e27d2604b
def p256Gx : Nat := 0x6b17d1f2e12c4247f8bce6e563a440f277037d812deb33a0f4a13945d898c296
def p256Gy : Nat := 0x4fe342e2fe1a7f9b8ee7eb4a7c0f9e162bce33576b315ececbb6406837bf51f5

/-- b ^ e mod m over the low n bits of e. -/
def powMod : Nat → Nat → Nat → Nat → Nat
  | 0, _, _, m => 1 % m
  | n + 1, b, e, m =>
    let r := powMod n (b * b % m) (e / 2) m
    if e % 2 = 1 then r * b % m else r

/-- The inverse modulo a prime. -/
def invMod (a m : Nat) : Nat := powMod 256 (a % m) (m - 2) m

/-- An affine point; none is the point at infinity. -/
abbrev EcPoint := Option (Nat × Nat)

def ecOn (x y : Nat) : Bool :=
  decide (x < p256P) && decide (y < p256P) && (y * y) % p256P == (x * x * x + (p256P - 3) * x + p256B) % p256P

def ecAdd (a b : EcPoint) : EcPoint :=
  match a, b with
  | none, q => q
  | p, none => p
  | some (x1, y1), some (x2, y2) =>
    let go (l : Nat) : EcPoint :=
      let x3 := (l * l + 2 * p256P - x1 - x2) % p256P
      some (x3, (l * (x1 + p256P - x3) + p256P - y1) % p256P)
    if x1 = x2 then
      if (y1 + y2) % p256P = 0 then none
      else go ((3 * x1 * x1 + p256P - 3) * invMod (2 * y1) p256P % p256P)
    else go ((y2 + p256P - y1) * invMod (x2 + p256P - x1) p256P % p256P)

/-- k × P over the low n bits of k. -/
def ecMulLoop : Nat → Nat → EcPoint → EcPoint
  | 0, _, _ => none
  | n + 1, k, p =>
    let r := ecMulLoop n (k / 2) (ecAdd p p)
    if k % 2 = 1 then ecAdd r p else r

def ecMul (k : Nat) (p : EcPoint) : EcPoint := ecMulLoop 256 k p

def ecG : EcPoint := some (p256Gx, p256Gy)

/-- A public key as X then Y, 32 bytes each. -/
def ecBytes (p : EcPoint) : Bytes :=
  match p with
  | none => List.replicate 64 0
  | some (x, y) => beBytes 32 x ++ beBytes 32 y

/-- A point from X then Y; none where it is not on the curve. -/
def ecOfBytes (b : Bytes) : Option (Nat × Nat) :=
  let x := beAt b 0 32
  let y := beAt b 32 32
  if ecOn x y then some (x, y) else none

/-- Verifies an ECDSA signature (r then s) of a message hashed with SHA-256. PRESUMED, assumption 97. -/
def ecdsaVerify (pub msg sig : Bytes) : Bool :=
  let r := beAt sig 0 32
  let s := beAt sig 32 32
  match ecOfBytes pub with
  | none => false
  | some q =>
    if r = 0 ∨ p256N ≤ r ∨ s = 0 ∨ p256N ≤ s then false
    else
      let w := invMod s p256N
      let u1 := ofBe (sha256 msg) * w % p256N
      let u2 := r * w % p256N
      match ecAdd (ecMul u1 ecG) (ecMul u2 (some q)) with
      | none => false
      | some (x, _) => x % p256N == r

/-- The search of RFC 6979 for k: the first candidate in range, at most `n` tries. -/
def rfc6979Loop : Nat → Bytes → Bytes → Nat
  | 0, _, _ => 1
  | n + 1, k, v =>
    let v := hmac k v
    let c := ofBe v
    if 0 < c ∧ c < p256N then c
    else
      let k := hmac k (v ++ [0])
      rfc6979Loop n k (hmac k v)

/-- The per-signature value k of RFC 6979 for a private scalar and a hash. -/
def rfc6979 (d h : Nat) : Nat :=
  let x := beBytes 32 d ++ beBytes 32 (h % p256N)
  let v0 : Bytes := List.replicate 32 1
  let k1 := hmac (List.replicate 32 0) (v0 ++ [0] ++ x)
  let v1 := hmac k1 v0
  let k2 := hmac k1 (v1 ++ [1] ++ x)
  rfc6979Loop 64 k2 (hmac k2 v1)

/-- Signs a message: r then s. PRESUMED, assumption 97. -/
def ecdsaSign (d : Nat) (msg : Bytes) : Bytes :=
  let h := ofBe (sha256 msg)
  let k := rfc6979 d h
  let r := (match ecMul k ecG with | some (x, _) => x | none => 0) % p256N
  let s := invMod k p256N * ((h + r * d) % p256N) % p256N
  beBytes 32 r ++ beBytes 32 s

/-! ### AES-256 (FIPS 197) -/

/-- The S-box: byte i of the number is the substitute of i. -/
def aesSboxTable : Nat := 0x16bb54b00f2d99416842e6bf0d89a18cdf2855cee9871e9b948ed9691198f8e19e1dc186b95735610ef6034866b53e708a8bbd4b1f74dde8c6b4a61c2e2578ba08ae7a65eaf4566ca94ed58d6d37c8e779e4959162acd3c25c2406490a3a32e0db0b5ede14b8ee4688902a22dc4f816073195d643d7ea7c41744975fec130ccdd2f3ff1021dab6bcf5389d928f40a351a89f3c507f02f94585334d43fbaaefd0cf584c4a39becb6a5bb1fc20ed00d153842fe329b3d63b52a05a6e1b1a2c830975b227ebe28012079a059618c323c7041531d871f1e5a534ccf73f362693fdb7c072a49cafa2d4adf04759fa7dc982ca76abd7fe2b670130c56f6bf27b777c63

def aesSub (x : Byte) : Byte := BitVec.ofNat 8 (aesSboxTable / 2 ^ (8 * x.toNat))

/-- The inverse S-box. -/
def aesInvSub (y : Byte) : Byte :=
  BitVec.ofNat 8 (((List.range 256).find? fun i => aesSub (BitVec.ofNat 8 i) == y).getD 0)

def aesXtime (x : Byte) : Byte := (x <<< 1) ^^^ (if x.msb then 0x1b else 0)

/-- The product in AES's field with a constant below 16. -/
def aesMul (c : Nat) (x : Byte) : Byte :=
  let x2 := aesXtime x
  let x4 := aesXtime x2
  let x8 := aesXtime x4
  (if bitOf c 0 then x else 0) ^^^ (if bitOf c 1 then x2 else 0) ^^^ (if bitOf c 2 then x4 else 0) ^^^
    (if bitOf c 3 then x8 else 0)

def xorBytes (a b : Bytes) : Bytes := (a.zip b).map fun (x, y) => x ^^^ y

/-- Adds key schedule words (4 bytes each), oldest first, until 60 stand. -/
def aesExpand : Nat → Nat → List Bytes → List Bytes
  | 0, _, w => w
  | n + 1, i, w =>
    let t := w.getD (i - 1) []
    let t := if i % 8 = 0 then
        (xorBytes ((t.drop 1 ++ t.take 1).map aesSub) [BitVec.ofNat 8 (2 ^ (i / 8 - 1)), 0, 0, 0])
      else if i % 8 = 4 then t.map aesSub else t
    aesExpand n (i + 1) (w ++ [xorBytes (w.getD (i - 8) []) t])

/-- The round keys of a 32-byte key, 16 bytes each. -/
def aesKeys (key : Bytes) : List Bytes :=
  let w := aesExpand 52 8 ((List.range 8).map fun i => slice key (4 * i) 4)
  (List.range 15).map fun r => ((w.drop (4 * r)).take 4).flatten

def aesShift (s : Bytes) : Bytes := (List.range 16).map fun i => s.getD ((i + 4 * (i % 4)) % 16) 0
def aesUnshift (s : Bytes) : Bytes := (List.range 16).map fun i => s.getD ((i + 16 - 4 * (i % 4)) % 16) 0

/-- MixColumns, or its inverse, by the first row of its matrix. -/
def aesMix (row : List Nat) (s : Bytes) : Bytes :=
  (List.range 16).map fun i =>
    (List.range 4).foldl (fun a j =>
      a ^^^ aesMul (row.getD ((j + 4 - i % 4) % 4) 0) (s.getD (i / 4 * 4 + j) 0)) 0

def aesEncrypt (key block : Bytes) : Bytes :=
  let ks := aesKeys key
  let s := (List.range 13).foldl (fun s r =>
    xorBytes (aesMix [2, 3, 1, 1] (aesShift (s.map aesSub))) (ks.getD (r + 1) [])) (xorBytes block (ks.getD 0 []))
  xorBytes (aesShift (s.map aesSub)) (ks.getD 14 [])

def aesDecrypt (key block : Bytes) : Bytes :=
  let ks := aesKeys key
  let s := (List.range 13).foldl (fun s r =>
    aesMix [14, 11, 13, 9] (xorBytes ((aesUnshift s).map aesInvSub) (ks.getD (13 - r) [])))
    (xorBytes block (ks.getD 14 []))
  xorBytes ((aesUnshift s).map aesInvSub) (ks.getD 0 [])

/-! ### GMAC (SP 800-38D) -/

/-- The product in GCM's field, over n bits of x from the most significant; blocks are 128-bit numbers, bit 0 first. -/
def gfMulLoop : Nat → Nat → Nat → Nat → Nat
  | 0, _, _, z => z
  | n + 1, x, v, z =>
    let z := if bitOf x n then z ^^^ v else z
    gfMulLoop n x (if v % 2 = 1 then v / 2 ^^^ 0xe1000000000000000000000000000000 else v / 2) z

def gfMul (x y : Nat) : Nat := gfMulLoop 128 x y 0

def ghash (h : Nat) (b : Bytes) : Nat :=
  (List.range (b.length / 16)).foldl (fun a i => gfMul (a ^^^ beAt b (16 * i) 16) h) 0

/-- GMAC with AES-256 over a message, with a 12-byte IV. PRESUMED, assumption 97. -/
def gmac (key iv msg : Bytes) : Bytes :=
  let h := ofBe (aesEncrypt key (List.replicate 16 0))
  let padded := msg ++ List.replicate ((16 - msg.length % 16) % 16) 0 ++ beBytes 8 (8 * msg.length) ++ beBytes 8 0
  xorBytes (beBytes 16 (ghash h padded)) (aesEncrypt key (slice iv 0 12 ++ [0, 0, 0, 1]))

/-! ### Key wrap (SP 800-38F, KW) -/

/-- One step of the unwrapping: A and the semiblocks, step t of n semiblocks. -/
def kwStep (key : Bytes) (n : Nat) (x : Bytes × List Bytes) (t : Nat) : Bytes × List Bytes :=
  let i := (t - 1) % n
  let b := aesDecrypt key (xorBytes x.1 (beBytes 8 t) ++ x.2.getD i [])
  (b.take 8, x.2.set i (b.drop 8))

/-- Unwraps; none where the integrity check fails. PRESUMED, assumption 97. -/
def kwUnwrap (key wrapped : Bytes) : Option Bytes :=
  let n := wrapped.length / 8 - 1
  let r := (List.range n).map fun i => slice wrapped (8 * (i + 1)) 8
  let (a, r) := ((List.range (6 * n)).map fun k => 6 * n - k).foldl (kwStep key n) (wrapped.take 8, r)
  if a = List.replicate 8 0xA6 then some r.flatten else none

/-! ### Labels (R441) -/

def asciiBytes (s : String) : Bytes := s.toList.map fun c => BitVec.ofNat 8 c.toNat

/-- Whether a label has 1 to 64 bytes without 0x00. -/
def labelOk (l : Bytes) : Bool := l != [] && decide (l.length ≤ 64) && !l.contains 0

/-- Whether a label is the module's own. -/
def labelOwn (l : Bytes) : Bool := l.take 3 == asciiBytes "ZT-"

end Sys2Proof.Machine
end

