-- ==== Sys2Proof/Machine/Switch.lean ====
section
/-!
DEFINITION. The switch core (R147 to R168): classification, diversion, lookup, admission of copies, mirroring,
learning, the table commands.
-/

namespace Sys2Proof.Machine

/-! ### Ethernet frames -/

/-- The IEEE 802.1Q tag of a frame. -/
structure QTag where
  pcp : Nat
  dei : Nat
  vid : Nat
  deriving DecidableEq, Repr

/-- The fields of a frame that the switch reads. -/
structure Eth where
  dst : Nat
  src : Nat
  tag : Option QTag
  etype : Nat
  deriving DecidableEq, Repr

def ethOf (b : Bytes) : Eth :=
  let t := beAt b 12 2
  if t = 0x8100 then
    let c := beAt b 14 2
    ⟨beAt b 0 6, beAt b 6 6, some ⟨c / 2 ^ 13, c / 2 ^ 12 % 2, c % 2 ^ 12⟩, beAt b 16 2⟩
  else ⟨beAt b 0 6, beAt b 6 6, none, t⟩

/-- The bytes after the addresses and any tag, the EtherType first. -/
def ethRest (b : Bytes) : Bytes := if beAt b 12 2 = 0x8100 then b.drop 16 else b.drop 12

def tagBytes (t : QTag) : Bytes := beBytes 2 0x8100 ++ beBytes 2 (t.pcp * 2 ^ 13 + t.dei * 2 ^ 12 + t.vid % 2 ^ 12)

/-- A frame with another tag, or none. -/
def retag (b : Bytes) (t : Option QTag) : Bytes :=
  b.take 12 ++ (match t with | some q => tagBytes q | none => []) ++ ethRest b

/-- The group bit of a destination. -/
def isGroup (mac : Nat) : Bool := bitOf mac 40
def broadcast : Nat := 0xFFFFFFFFFFFF

/-- The cells of a frame whose bytes exclude the FCS (R163). -/
def cellsOf (b : Bytes) : Nat := ceilDiv (b.length + 4) 256

/-! ### Copy admission (R164) -/

/-- Whether an instance's HP queue refuses every copy: its receive ring is disabled (R327), or it is isolated (R342). -/
def Module.hpShut (m : Module) : QId → Bool
  | .hp i => !(m.hq i 2).en || m.isOn (R.INS_INST_STAT_ISOLATED i)
  | .cls _ _ => false

/-- The EtherTypes that a consumer behind EP takes: SV, GOOSE, LST, PTP, EAPOL and pair messages. -/
def epTypes : List Nat := [0x88BA, 0x88B8, 0x88B5, 0x88F7, 0x888E, 0x88B6]

/-- COPY_ADMISSION: offers a copy to a queue. What EP takes that no consumer there reads leaves no trace but its count
(DEDUCED, assumption 52). A port that is down after its hold window takes nothing (R137); a
refused copy is counted at its destination (R164); `mirror` copies are counted under k = 9 (R159). -/
def Module.offer (m : Module) (j : QId) (c : Copy) (mirror : Bool) : Module × Bool :=
  let p := j.port
  if p < 10 ∧ !m.portUp p ∧ !m.holding p then ((if mirror then m.swCnt p 9 else m).macCnt p 9, false)
  else if !m.hpShut j && m.admits j c.cells then
    let m := m.syncCredits p
    if p = 11 ∧ !epTypes.contains (ethOf c.bytes).etype then (m.swCnt p 1, true)
    else ((m.setQueue j (m.queue j ++ [{ c with admitted := m.tns, fid := m.sw.nextFid }])).swCnt p 1, true)
  else if mirror then (m.swCnt p 9, false)
  else match j with
    | .cls p _ => (m.swCnt p 2, false)
    | .hp i => (m.bump (R.SWC_HPQ_DROP_CNT_CNT i), false)

/-! ### Classification (R149, R150) -/

/-- A classified frame. -/
structure Classed where
  vid : Nat
  pcp : Nat
  dei : Nat
  tagged : Bool
  vlan : VlanEntry
  deriving DecidableEq, Repr

/-- VID and PCP of a frame at an input port. -/
def Module.vidPcp (m : Module) (p : Nat) (e : Eth) : Nat × Nat :=
  match e.tag with
  | none => (m.rd (R.SWC_PORT_CFG_PVID p), m.rd (R.SWC_PORT_CFG_DEF_PCP p))
  | some t => (if t.vid = 0 then m.rd (R.SWC_PORT_CFG_PVID p) else t.vid, t.pcp)

/-- Classification; none where R149 drops the frame. DEDUCED, assumption 57. -/
def Module.classify (m : Module) (p : Nat) (e : Eth) : Option Classed :=
  let (vid, pcp) := m.vidPcp p e
  match m.sw.vlans.get? vid with
  | none => none
  | some v =>
    if m.gone 1 vid ∨ vid = 4095 ∨ (m.isOn (R.SWC_PORT_CFG_ING_FILTER p) ∧ !bitOf v.member p) then none
    else some ⟨vid, pcp, (e.tag.map (·.dei)).getD 0, e.tag.isSome, v⟩

/-- The class of a received or host-sent frame: class 7 becomes 6 and is counted (R150). -/
def Module.classOf (m : Module) (p pcp : Nat) : Nat × Module :=
  let q := bitsOf (m.rd (R.SWC_PCP_MAP_MAP p)) (3 * pcp) 3
  if q = 7 then (6, m.swCnt p 12) else (q, m)

/-! ### Lookup (R152) -/

/-- The instances of an HP set. -/
def Module.hpSet (m : Module) (s : Nat) : List Nat :=
  (List.range 128).flatMap fun w =>
    let x := m.sw.hpSets.getD (s * 128 + w) 0
    if x = 0 then [] else ((List.range 32).filter fun b => bitOf x b).map fun b => 32 * w + b

/-- A lookup's result: port mask, HP instances, mirror sessions. -/
structure Lookup where
  mask : Nat
  hp : List Nat
  mirror : Nat
  deriving DecidableEq, Repr

def fdbKey (mac vid : Nat) : Nat := mac * 4096 + vid

/-- Whether a lookup meets a damaged entry: it drops its frame (R481). -/
def Module.lookupGone (m : Module) (dst vid : Nat) (v : VlanEntry) : Bool :=
  match m.sw.fdb.get? (fdbKey dst vid) with
  | some f =>
    m.gone 0 (fdbKey dst vid) || (f.mcast && (m.gone 2 f.mcg ||
      (let g := m.sw.mcg.getD f.mcg ⟨0, 0, false⟩; g.hpSetEn && m.gone 3 g.hpSet)))
  | none => v.hpSetEn && m.gone 3 v.hpSet

/-- Table 6.3, with the counts of k = 3 and 4. -/
def Module.lookup (m : Module) (p dst vid : Nat) (v : VlanEntry) : Lookup × Module :=
  let set (en : Bool) (ports s : Nat) : List Nat := if en && bitOf ports 10 then m.hpSet s else []
  if m.lookupGone dst vid v then (⟨0, [], 0⟩, m) else
  match (if dst = broadcast then none else m.sw.fdb.get? (fdbKey dst vid)) with
  | some f =>
    if f.mcast then
      let g := m.sw.mcg.getD f.mcg ⟨0, 0, false⟩
      (⟨g.ports, set g.hpSetEn g.ports g.hpSet, f.mirror⟩, m)
    else (⟨2 ^ f.dest, if f.dest = 10 then [f.hpInst] else [], f.mirror⟩, m)
  | none =>
    if isGroup dst ∧ dst ≠ broadcast then
      (⟨v.umc, set v.hpSetEn v.umc v.hpSet, 0⟩, if v.umc = 0 then m.swCnt p 4 else m)
    else (⟨v.flood, set v.hpSetEn v.flood v.hpSet, 0⟩, m.swCnt p 3)

/-- The destinations after the VLAN's members, R142, R147 and R148: ascending port index, HP instances ascending. -/
def Module.dests (m : Module) (p : Nat) (v : VlanEntry) (l : Lookup) : List (Nat ⊕ Nat) :=
  let ok (n : Nat) : Bool := bitOf l.mask n && bitOf v.member n && !(n == p && decide (p ≤ 10)) &&
    !(n == 11 && decide (10 ≤ p)) && !m.upperOfPair n && !(m.inPair n && decide (p < 10))
  ((List.range 10).filter ok).map Sum.inl ++ (if ok 10 then l.hp.map Sum.inr else []) ++
    (if ok 11 then [Sum.inl 11] else [])

/-! ### Forwarding -/

/-- The copy that leaves a port: untagged where the VLAN says so, else with the classified VID (Table 6.5's note). -/
def copyFor (b : Bytes) (c : Classed) (n : Nat) : Bytes :=
  if bitOf c.vlan.untag n then retag b none else retag b (some ⟨c.pcp, c.dei, c.vid⟩)

/-- The mirror copies of a frame (R159): `raw` as it entered at port p, `hits` the sessions that the forwarding entry
names, `out` the copies queued for front-panel ports and others, by port. -/
def Module.mirrors (m : Module) (p : Nat) (raw : Bytes) (ts hits : Nat) (out : List (Nat × Bytes)) : Module :=
  (List.range 4).foldl (fun m s =>
    let dest := m.rd (R.SWC_MIR0_DEST s)
    if !m.isOn (R.SWC_MIR0_EN s) ∨ 10 < dest ∨ m.inPair dest then m
    else
      let egr := m.rd (R.SWC_MIR1_EGR s)
      let src : Option Bytes :=
        if bitOf (m.rd (R.SWC_MIR1_ING s)) p || bitOf hits s then some raw
        else (out.find? fun (n, _) => bitOf egr n).map (·.2)
      match src with
      | none => m
      | some b =>
        let q := m.rd (R.SWC_MIR0_MIR_CLASS s)
        let j := if dest = 10 then QId.hp (m.rd (R.SWC_MIR0_DEST_INST s)) else QId.cls dest q
        let e := ethOf b
        (m.offer j ⟨b, cellsOf b, q, p, ts, 0, none, 0, (m.vidPcp p e).1, e.tag.isSome⟩ true).1) m

/-- Offers the copies of a frame to its destinations in order; answers what was queued for each port. -/
def Module.offerAll (m : Module) (p : Nat) (ds : List (Nat ⊕ Nat)) (cls ts : Nat) (stamp : Option (Nat × Nat))
    (vid : Nat) (tagged : Bool) (f : Nat → Bytes) : Module × List (Nat × Bytes) :=
  ds.foldl (fun (acc : Module × List (Nat × Bytes)) d =>
    let (n, j) := match d with
      | .inl n => (n, QId.cls n cls)
      | .inr i => (10, QId.hp i)
    let b := f n
    let (m, ok) := acc.1.offer j ⟨b, cellsOf b, cls, p, ts, 0, if n < 10 then stamp else none, 0, vid, tagged⟩ false
    (m, if ok then acc.2 ++ [(n, b)] else acc.2)) (m, [])

/-- LEARN (R153). -/
def Module.learn (m : Module) (p : Nat) (e : Eth) (vid : Nat) : Module :=
  if 10 ≤ p ∨ !m.isOn (R.SWC_PORT_CFG_LEARN p) ∨ isGroup e.src then m
  else
    let k := fdbKey e.src vid
    let new : FdbEntry := ⟨p, 0, 0, false, false, 0, m.mono⟩
    match m.sw.fdb.get? k with
    | some f => if f.static then m else { m with sw := { m.sw with fdb := m.sw.fdb.set k { new with mirror := f.mirror } } }
    | none =>
      if m.sw.fdb.length ≥ 65536 then m.swCnt p 10
      else { m with sw := { m.sw with fdb := m.sw.fdb.set k new } }

/-- The frames of Table 6.2; none for a frame that is not diverted. -/
def Module.divert (m : Module) (p : Nat) (b : Bytes) (e : Eth) (ts : Nat) : Option Module :=
  let (vid, pcp) := m.vidPcp p e
  if e.etype = 0x88F7 ∨ e.etype = 0x888E then
    let (q, m) := m.classOf p pcp
    if 10 ≤ p then some (m.swCnt p 7)
    else some ((m.offer (.cls 11 q) ⟨b, cellsOf b, q, p, ts, 0, none, 0, vid, e.tag.isSome⟩ false).1.swCnt p 7)
  else if e.etype = 0x88CC then
    match m.sw.vlans.get? vid with
    | none => some (m.swCnt p 11)
    | some v =>
      if !v.hpSetEn ∨ 10 ≤ p then some (m.swCnt p 11)
      else
        let (q, m) := m.classOf p pcp
        some ((m.hpSet v.hpSet).foldl (fun m i => (m.offer (.hp i) ⟨b, cellsOf b, q, p, ts, 0, none, 0, vid, e.tag.isSome⟩ false).1) m)
  else if 0x0180C2000000 ≤ e.dst ∧ e.dst ≤ 0x0180C200000F then some (m.swCnt p 6)
  else none

/-- The next frame takes cells of its own. -/
def Module.nextFrame (m : Module) : Module := { m with sw := { m.sw with nextFid := m.sw.nextFid + 1 } }

/-- A frame received at P0 to P9, from diversion to its copies (R149 to R159); under the minimal culture every frame goes to
instance 0 and a frame that it sends to every port that it may use (Table 4.4). -/
def Module.switchFrame (m : Module) (p : Nat) (b : Bytes) (ts : Nat) : Module :=
  let m := m.nextFrame
  let e := ethOf b
  match m.divert p b e ts with
  | some m => m.mirrors p b ts 0 []
  | none =>
    if m.isOn R.SYS_MODE_MINIMAL then
      ((m.swCnt p 0).offer (.hp 0) ⟨b, cellsOf b, 0, p, ts, 0, none, 0, (m.vidPcp p e).1, e.tag.isSome⟩ false).1
    else match m.classify p e with
    | none => (m.swCnt p 5).mirrors p b ts 0 []
    | some c =>
      let (q, m) := m.classOf p c.pcp
      let m := m.learn p e c.vid
      let (l, m) := (m.swCnt p 0).lookup p e.dst c.vid c.vlan
      let ds := m.dests p c.vlan l
      let m := if ds = [] then m.swCnt p 11 else m
      let (m, out) := m.offerAll p ds q ts none c.vid c.tagged (copyFor b c)
      m.mirrors p b ts l.mirror out

/-- A frame that host software sends at HP for instance i (R326): `want` asks for a timestamp. Answers whether the stamp is
possible and the SEQ_ID. DESIGN CHOICE, assumption 82. -/
def Module.sendHost (m : Module) (i : Nat) (b : Bytes) (want : Bool) : Module × Bool × Nat :=
  let m := m.nextFrame
  let e := ethOf b
  match m.divert 10 b e m.tns with
  | some m => (m.mirrors 10 b m.tns 0 [], false, 0)
  | none =>
    if m.isOn R.SYS_MODE_MINIMAL then
      let ds := ((List.range 10).filter (bitOf (m.cul.txPorts.getD i 0))).map Sum.inl
      ((m.offerAll 10 ds 0 m.tns none (m.vidPcp 10 e).1 e.tag.isSome fun _ => b).1, false, 0)
    else match m.classify 10 e with
    | none => ((m.swCnt 10 5).mirrors 10 b m.tns 0 [], false, 0)
    | some c =>
      let (q, m) := m.classOf 10 c.pcp
      let (l, m) := (m.swCnt 10 0).lookup 10 e.dst c.vid c.vlan
      let tx := m.cul.txPorts.getD i 0
      let ds := (m.dests 10 c.vlan l).filter fun d => match d with
        | .inl n => bitOf tx n
        | .inr _ => false
      let m := if ds = [] then m.swCnt 10 11 else m
      let stamp := match want, ds with
        | true, [.inl n] => some (i, m.sw.seqs.getD n 0)
        | _, _ => none
      let (m, out) := m.offerAll 10 ds q m.tns stamp c.vid c.tagged (copyFor b c)
      let m := match stamp, out with
        | some (_, s), [(n, _)] => { m with sw := { m.sw with seqs := m.sw.seqs.set n ((s + 1) % 2 ^ 16) } }
        | _, _ => m
      (m.mirrors 10 b m.tns l.mirror out, stamp.isSome, (stamp.map (·.2)).getD 0)

/-- A frame that the module originates at EP with its own tag and class (R150, R313): looked up like any other, and
queued with the tag it has. -/
def Module.originate (m : Module) (b : Bytes) (cls : Nat) : Module :=
  let m := m.nextFrame
  let e := ethOf b
  match m.classify 11 e with
  | none => (m.swCnt 11 5).mirrors 11 b m.tns 0 []
  | some c =>
    let (l, m) := (m.swCnt 11 0).lookup 11 e.dst c.vid c.vlan
    let ds := m.dests 11 c.vlan l
    let m := if ds = [] then m.swCnt 11 11 else m
    let (m, out) := m.offerAll 11 ds cls m.tns none c.vid true fun _ => b
    m.mirrors 11 b m.tns l.mirror out

/-- A raw frame of a FRAME entry goes to the port it names, as staged (R45, R150). -/
def Module.sendRaw (m : Module) (port cls : Nat) (b : Bytes) : Module :=
  let m := m.nextFrame
  let (m, ok) := m.offer (.cls port cls) ⟨b, cellsOf b, cls, 11, m.tns, 0, none, 0, 0, false⟩ false
  m.mirrors 11 b m.tns 0 (if ok then [(port, b)] else [])

/-! ### Table commands -/

def Module.tblKey (m : Module) : Nat × Nat :=
  (m.rd (R.SWC_TBL_DATA_DATA 0) + 2 ^ 32 * bitsOf (m.rd (R.SWC_TBL_DATA_DATA 1)) 0 16,
   bitsOf (m.rd (R.SWC_TBL_DATA_DATA 1)) 16 12)

def Module.tblData (m : Module) (l : List Nat) : Module :=
  (l.zipIdx).foldl (fun m (v, w) => m.wr (R.SWC_TBL_DATA_DATA w) v) m

/-- DEDUCED, assumption 56. -/
def Module.tblResult (m : Module) (r : Nat) : Module := m.wr R.SWC_TBL_STAT_RESULT r

/-- A key or index that a table does not have: VID 0 and 4,095, and numbers past the table's end. -/
def tblBad (table index vid : Nat) : Bool :=
  if table = 0 then vid == 0 || vid == 4095
  else if table = 1 then decide (8192 ≤ index)
  else if table = 2 then index == 0 || decide (4095 ≤ index)
  else decide (1024 * 128 ≤ index)

def FdbEntry.words (f : FdbEntry) : List Nat :=
  [f.dest + f.hpInst * 2 ^ 4 + f.mcg * 2 ^ 16 + b2n f.mcast * 2 ^ 29 + b2n f.static * 2 ^ 30 + 2 ^ 31, f.mirror]

def FdbEntry.ofWords (w2 w3 now : Nat) : FdbEntry :=
  ⟨bitsOf w2 0 4, bitsOf w2 4 12, bitsOf w2 16 13, bitOf w2 29, bitOf w2 30, bitsOf w3 0 4, now⟩

def VlanEntry.words (v : VlanEntry) : List Nat :=
  [v.member + v.untag * 2 ^ 12 + 2 ^ 31, v.flood + v.umc * 2 ^ 12, v.hpSet + b2n v.hpSetEn * 2 ^ 10]

def VlanEntry.ofWords (w0 w1 w2 : Nat) : VlanEntry :=
  ⟨bitsOf w0 0 12, bitsOf w0 12 12, bitsOf w1 0 12, bitsOf w1 12 12, bitsOf w2 0 10, bitOf w2 10⟩

def McGroup.ofWord (w : Nat) : McGroup := ⟨bitsOf w 0 12, bitsOf w 12 10, bitOf w 22⟩
def McGroup.word (g : McGroup) : Nat := g.ports + g.hpSet * 2 ^ 12 + b2n g.hpSetEn * 2 ^ 22

/-- TBL_READ: reads one item into SWC_TBL_DATA. -/
def mTblRead (table index : Nat) (m : Module) : Module :=
  if !m.swOn then m
  else
    let (mac, vid) := m.tblKey
    if tblBad table index vid then m.tblResult 3
    else if table = 0 then
      match m.sw.fdb.get? (fdbKey mac vid) with
      | none => m.tblResult 1
      | some f => (m.tblData ([m.rd (R.SWC_TBL_DATA_DATA 0), m.rd (R.SWC_TBL_DATA_DATA 1)] ++ f.words)).tblResult 0
    else if table = 1 then (m.tblData [(m.sw.mcg.getD index ⟨0, 0, false⟩).word]).tblResult 0
    else if table = 2 then
      (m.tblData (match m.sw.vlans.get? index with | some v => v.words | none => [0, 0, 0])).tblResult 0
    else (m.tblData [m.sw.hpSets.getD index 0]).tblResult 0

/-- TBL_WRITE (R155): the write takes effect for the next lookup; an item written with VALID 0 does not exist.
DEDUCED, assumption 56. -/
def mTblWrite (table index : Nat) (m : Module) : Module :=
  if !m.swOn then m
  else
    let (mac, vid) := m.tblKey
    let d (w : Nat) := m.rd (R.SWC_TBL_DATA_DATA w)
    if tblBad table index vid then m.tblResult 3
    else if table = 0 then
      let k := fdbKey mac vid
      if !bitOf (d 2) 31 then { m with sw := { m.sw with fdb := m.sw.fdb.erase k } }.tblResult 0
      else if (m.sw.fdb.get? k).isNone ∧ m.sw.fdb.length ≥ 65536 then m.tblResult 2
      else { m with sw := { m.sw with fdb := m.sw.fdb.set k (FdbEntry.ofWords (d 2) (d 3) m.mono) } }.tblResult 0
    else if table = 1 then { m with sw := { m.sw with mcg := m.sw.mcg.set index (McGroup.ofWord (d 0)) } }.tblResult 0
    else if table = 2 then
      let vl := if bitOf (d 0) 31 then m.sw.vlans.set index (VlanEntry.ofWords (d 0) (d 1) (d 2))
        else m.sw.vlans.erase index
      { m with sw := { m.sw with vlans := vl } }.tblResult 0
    else { m with sw := { m.sw with hpSets := if d 0 = 0 then m.sw.hpSets.erase index else m.sw.hpSets.set index (d 0) } }.tblResult 0

/-- TBL_DELETE: removes the forwarding entry whose key stands in SWC_TBL_DATA. -/
def mTblDelete (m : Module) : Module :=
  if !m.swOn then m
  else
    let (mac, vid) := m.tblKey
    if tblBad 0 0 vid then m.tblResult 3
    else
      let k := fdbKey mac vid
      match m.sw.fdb.get? k with
      | none => m.tblResult 1
      | some _ => { m with sw := { m.sw with fdb := m.sw.fdb.erase k } }.tblResult 0

/-- LEARN_AGE_OUT: a learned entry has not been refreshed for LEARN_AGE_S seconds (R153); 0: never. -/
def mLearnAgeOut (mac vid : Nat) (m : Module) : Module :=
  let k := fdbKey mac vid
  let s := m.rd R.SWC_CTRL_LEARN_AGE_S
  match m.sw.fdb.get? k with
  | none => m
  | some f =>
    if f.static ∨ s = 0 ∨ !m.swOn then m
    else
      let m := m.reachMono (f.refreshed + s * 1000000000 * nsUnit)
      { m with sw := { m.sw with fdb := m.sw.fdb.erase k } }

/-- FLUSH_LEARNED: removes every learned entry. -/
def mFlushLearned (m : Module) : Module :=
  { m with sw := { m.sw with fdb := m.sw.fdb.filter fun (_, f) => f.static } }

/-- MIN_CELLS_WRITE: a runtime write of a guaranteed minimum (R165). -/
def mMinCellsWrite (p q cells : Nat) (m : Module) : Module :=
  if !m.swOn then m
  else if m.minSum - m.guar (.cls p q) + cells > 60576 then m.flag R.SWC_STATUS_MIN_REFUSED_STK
  else m.wr (R.SWC_Q_CFG_MIN_CELLS p q) cells

def execTblRead (table index : Nat) (s : State) : Host.Outcome State Fault Refusal := s.upd (mTblRead table index)
def execTblWrite (table index : Nat) (s : State) : Host.Outcome State Fault Refusal := s.upd (mTblWrite table index)
def execTblDelete (s : State) : Host.Outcome State Fault Refusal := s.upd mTblDelete
def execLearnAgeOut (mac vid : Nat) (s : State) : Host.Outcome State Fault Refusal := s.upd (mLearnAgeOut mac vid)
def execFlushLearned (s : State) : Host.Outcome State Fault Refusal := s.upd mFlushLearned
def execMinCellsWrite (p q cells : Nat) (s : State) : Host.Outcome State Fault Refusal := s.upd (mMinCellsWrite p q cells)

end Sys2Proof.Machine
end

