-- ==== Sys2Proof/Machine/Claim.lean ====
section
/-!
DEFINITION. Claim numbers (R391 to R394), the send policy of a standby (R405), frame authentication (R447 to R450), and how
the module's own GOOSE and LST frames leave (R313).
-/

namespace Sys2Proof.Machine

/-! ### Claims -/

/-- wins(a, b) of R394: a outranks b. -/
def claimWins (a b : Nat) : Bool :=
  if bitOf a 31 != bitOf b 31 then bitOf a 31
  else
    let d := (a % 2 ^ 16 + 2 ^ 16 - b % 2 ^ 16) % 2 ^ 16
    if 1 ≤ d ∧ d ≤ 32767 then true else if d = 0 then decide (b / 2 ^ 24 < a / 2 ^ 24) else false

/-- What the claim rule of R394 makes of a frame. -/
inductive ClaimVerdict where
  | drop | accept | fresh
  deriving DecidableEq, Repr

/-- The claim rule for a receiver with C_ACC and PAIR_ACC, `waiting` in WAIT or LOST: dropped, accepted, or accepted as in
WAIT for the sequence check. -/
def claimRule (waiting : Bool) (cAcc pairAcc : Nat) (trailer : Option (Nat × Nat)) : ClaimVerdict :=
  match trailer with
  | none => .accept
  | some (c, p) =>
    if waiting ∨ p ≠ pairAcc then .fresh
    else if claimWins cAcc c then .drop
    else if claimWins c cAcc then .fresh else .accept

/-- The claim trailer (R393). -/
def Module.trailer (m : Module) : Bytes := beBytes 4 m.claim ++ beBytes 2 m.red.cfg.pairId ++ beBytes 2 0x5A43

/-! ### Frame authentication -/

def Module.setSlot (m : Module) (s : Nat) (x : KeySlot) : Module :=
  { m with keys := { m.keys with slots := m.keys.slots.set s x } }

/-- The tag of Table 18.3. PRESUMED, assumption 98. -/
def macOf (alg : Nat) (key iv msg : Bytes) : Bytes :=
  if alg = 0 then (hmac key msg).take 10
  else if alg = 1 then (hmac key msg).take 16
  else if alg = 2 then hmac key msg
  else if alg = 3 then (gmac key iv msg).take 8
  else gmac key iv msg

/-- Whether a received frame's authentication value verifies with the key of a slot (R448).
PRESUMED, assumption 98. -/
def Module.authOk (m : Module) (s : Nat) (a : Option AuthExt) : Bool :=
  match a with
  | none => false
  | some x =>
    let k := m.slot s
    k.attr == 1 && k.alg == x.alg && [0, 1].any fun h =>
      match k.keys.get? h with
      | some key => k.keyIds.getD h 0 == x.keyId && macOf k.alg key x.iv x.covered == x.tag
      | none => false

/-- The seconds until a scheduled switch; 0 if none. -/
def Module.toNextKey (m : Module) (s : Nat) : Nat :=
  match (m.slot s).pending with
  | some (t, _) => if tsLater t m.ts32 then (tsDiff t m.ts32).toNat / 1000000000 else 0
  | none => 0

/-- n fresh 4-byte words that the spec leaves open: random output, an IV. DESIGN CHOICE, assumption 18. -/
def Module.freshBytes : Nat → Module → Bytes × Module
  | 0, m => ([], m)
  | n + 1, m =>
    let (i, m) := m.freshIdx
    let (r, m) := Module.freshBytes n m
    (beBytes 4 (Config.freeWord i).toNat ++ r, m)

/-- The extension that the module appends to a frame it authenticates: Key ID, timeOfCurrentKey, timeToNextKey, the IV of a
GMAC, the tag over the frame so far; none where the sending half holds no material. PRESUMED, assumption 98. -/
def Module.authExt (m : Module) (s : Nat) (covered : Bytes) : Option (Bytes × Module) :=
  let k := m.slot s
  let h := m.sendHalf s
  match k.keys.get? h with
  | none => none
  | some key =>
    let (iv, m) := m.freshBytes (if k.alg < 3 then 0 else 3)
    let head := beBytes 4 (k.keyIds.getD h 0) ++ beBytes 4 (k.switched.getD h 0) ++ beBytes 4 (m.toNextKey s) ++ iv
    some (head ++ macOf k.alg key iv (covered ++ head), m)

/-! ### BER -/

/-- DEDUCED, assumption 114. -/
def berLen (n : Nat) : Bytes :=
  if n < 128 then beBytes 1 n else if n < 256 then [0x81] ++ beBytes 1 n else [0x82] ++ beBytes 2 n

def berTlv (tag : Byte) (b : Bytes) : Bytes := tag :: berLen b.length ++ b

/-- An INTEGER of at most 32 bits, not negative, in the fewest octets. -/
def berNat (tag : Byte) (n : Nat) : Bytes :=
  berTlv tag (if n < 2 ^ 7 then beBytes 1 n else if n < 2 ^ 15 then beBytes 2 n else if n < 2 ^ 23 then beBytes 3 n
    else if n < 2 ^ 31 then beBytes 4 n else beBytes 5 n)

def berBool (tag : Byte) (b : Bool) : Bytes := berTlv tag [if b then 0xFF else 0]

/-- A string without its padding of 0x00. -/
def unpad (b : Bytes) : Bytes := (b.reverse.dropWhile (· == 0)).reverse

/-! ### Frames of publications and connections -/

/-- Pads a frame to 60 bytes (the FCS not counted). -/
def padFrame (b : Bytes) : Bytes := b ++ List.replicate (60 - b.length) 0

/-- The header of a frame with one IEEE 802.1Q tag of DEI 0 (R313). DESIGN CHOICE, assumption 22. -/
def frameHead (dst src cls vid etype : Nat) : Bytes :=
  beBytes 6 dst ++ beBytes 6 src ++ tagBytes ⟨cls, 0, vid⟩ ++ beBytes 2 etype

/-- Whether a publication (or connection) is sent under R405, and frames leave at all (R418: none in FLUSH). -/
def Module.maySend (m : Module) (dual : Bool) : Bool :=
  m.mode != .reset && m.mode != .load && m.mode != .flush && (m.red.role != .standby || dual)

end Sys2Proof.Machine
end

