-- ==== Sys2Proof/Machine/Ladle.lean ====
section
/-!
DEFINITION. The Ladle's bookkeeping (R288 to R307) and the Press's discards (R47) and commit groups (R51, R52), which
answer each other: a cancelled cycle can fail a group, a failed group discards records, a discarded record loses a
cycle, a lost cycle cancels those that wait on it. Each is an `Act`; `Module.run` carries a list of them out.
-/

namespace Sys2Proof.Machine

/-! ### Tasks -/

def Module.task (m : Module) (t : Nat) : TaskSt := m.ladle.tasks.getD t (TaskSt.init false)

def Module.setTask (m : Module) (t : Nat) (x : TaskSt) : Module :=
  { m with ladle := { m.ladle with tasks := m.ladle.tasks.set t x } }

def Module.modTask (m : Module) (t : Nat) (f : TaskSt → TaskSt) : Module := m.setTask t (f (m.task t))

/-- The task's record; a task that was not admitted has none. -/
def Module.taskRec (m : Module) (t : Nat) : Option TaskRec := m.cul.tasks.get? t

def Module.taskInst (m : Module) (t : Nat) : Nat := ((m.taskRec t).map (·.inst)).getD 0xFFFF

/-- The commit group of a task (R49). -/
def Module.taskGroup (m : Module) (t : Nat) : Option Nat :=
  match m.taskRec t with
  | some r => if r.groupEn then some r.group else none
  | none => none

/-- The members of a commit group. -/
def Module.members (m : Module) (g : Nat) : List Nat :=
  (m.cul.tasks.filter fun (_, r) => r.groupEn && r.group == g).map (·.1)

/-! ### The scheduling trace (R315) -/

def Module.traceWords (m : Module) (w : List Word) : Module :=
  if !m.isOn R.SCH_CTRL_TRACE_EN then m
  else if m.ladle.trace.length < 2 ^ m.cul.traceLog2 then
    { m with ladle := { m.ladle with trace := m.ladle.trace ++ [w] } }
  else if m.isOn R.SCH_CTRL_TRACE_STOP then
    ((m.bump R.SCH_TRACE_LOST_CNT_CNT).bump (R.SCH_CNT_CNT 14)).flag R.SCH_TRACE_LEVEL_FULL_STK
  else { m with ladle := { m.ladle with trace := m.ladle.trace.drop 1 ++ [w] } }

/-- A decision record of Table 12.7. -/
def Module.trace (m : Module) (typ cause task ct eng ctx detail : Nat) : Module :=
  let inst := m.taskInst task
  let level := ((m.taskRec task).map (·.level)).getD 0
  m.traceWords [BitVec.ofNat 32 m.ts32, BitVec.ofNat 32 ct,
    BitVec.ofNat 32 (typ + task * 2 ^ 3 + cause * 2 ^ 16 + inst % 4096 * 2 ^ 20),
    BitVec.ofNat 32 (eng + ctx * 2 ^ 5 + level * 2 ^ 7 + m.gen inst * 2 ^ 13 + detail * 2 ^ 21)]

/-! ### Contexts -/

def Module.setEngine (m : Module) (e : Nat) (x : Engine) : Module := { m with engines := m.engines.set e x }

def Module.ctx? (m : Module) (e c : Nat) : Option Ctx := (m.engine e).ctxs.get? c

def Module.setCtx (m : Module) (e c : Nat) (x : Ctx) : Module :=
  let g := m.engine e
  m.setEngine e { g with ctxs := g.ctxs.set c x }

/-- Whether a protection-class cycle counts a miss on its engine, and SLOW after two in a row (R298): the fence is not
set on the last engine in service that is not SLOW, but the event is raised. -/
def Module.endOnEngine (m : Module) (e : Nat) (x : Ctx) : Module :=
  if !x.protectionClass then m
  else
    let g := m.engine e
    let m := m.setEngine e { g with prevMissed := x.missed }
    if !(g.prevMissed && x.missed) then m
    else
      let slow := m.rd R.SCH_SLOW_SLOW
      let others := (List.range 32).filter fun n => (m.engine n).state = .inService ∧ !bitOf slow n ∧ n ≠ e
      let m := if others = [] ∨ bitOf slow e then m
        else (m.wr R.SCH_SLOW_SLOW (slow + 2 ^ e)).bump (R.SCH_CNT_CNT 15)
      m.raiseIf R.SCH_CTRL_LOG_EN 6 1 0 0xFFFF 0xFFFF e

/-- Frees a context (R285, R246). -/
def Module.freeCtx (m : Module) (e c : Nat) : Module :=
  match m.ctx? e c with
  | none => m
  | some x =>
    let m := m.endOnEngine e x
    let g := m.engine e
    m.setEngine e { g with ctxs := g.ctxs.erase c, lastInst := g.lastInst.set c x.inst }

/-- The task's dispatched cycle ends: a DISABLING task becomes DISABLED, or ENABLED where an ENABLE is pending (R306,
R307). -/
def Module.endCycle (m : Module) (t ct : Nat) : Module :=
  (m.modTask t fun x =>
    let st := if x.state = .disabling then (if x.enablePending then .enabled else .disabled) else x.state
    { x with running := none, state := st, enablePending := if x.state = .disabling then false else x.enablePending }).wr
    (R.SCH_TASK_STAT1_LAST_CT t) ct

/-- A cycle that waits for its re-dispatch ends without one: so does the dispatched cycle of its task (R306). -/
def Module.endAttempt (m : Module) (t : Nat) (o : OpenCycle) : Module :=
  if o.avoid.isSome ∧ (m.task t).state = .disabling then m.endCycle t o.ct else m

/-- Aborts the attempt held in a context: its record is discarded under R47 with cause 0. -/
def Module.abortCtx (m : Module) (e c : Nat) : Module :=
  match m.ctx? e c with
  | none => m
  | some x => ((m.freeCtx e c).endCycle x.task x.ct).bump (R.PRS_DISC_CNT_CNT 0)

/-! ### The acts -/

/-- One consequence still to be carried out. -/
inductive Act where
  /-- Cancels an open or ready cycle of a task with a cause of R315. -/
  | cancelOpen (t ct cause : Nat)
  /-- A dispatched or handed-off cycle is lost: its CANCEL record (cause, engine, context, DETAIL) and what follows. -/
  | lost (t ct cause eng ctx detail : Nat)
  /-- Cancels the cycles that wait on the commit of a cycle (R293). -/
  | chain (t ct : Nat)
  /-- The Ladle reports a member's cycle as cancelled or stopped (R51). -/
  | report (t ct : Nat)
  | grpFail (g cause : Nat)
  /-- The Press discards a record for cause n of Table 2.4 (R47). -/
  | discard (r : CRec) (n : Nat)
  /-- Answers a task fault by FAULT_POLICY (Table 12.5). -/
  | fault (t ct code eng ctx : Nat)
  /-- Adds one to CONSEC_OVR and stops the instance at OVR_LIMIT (R303, R305). -/
  | consec (t : Nat)
  | stop (inst : Nat)
  deriving DecidableEq, Repr

/-- The tasks, ascending, whose cycle for an instant waits on the commit of task t and has not received it. -/
def Module.waiters (m : Module) (t ct : Nat) : List Nat :=
  (m.cul.tasks.filter fun (u, r) =>
    (m.task u).opens.any fun o => o.ct == ct &&
      ((List.range r.ops.length).any fun k =>
        match r.ops[k]? with
        | some p => p.kind == 5 && p.source == t && p.mode != 2 && !bitOf o.bits k
        | none => false)).map (·.1)

/-- Safe contents of a task's output image (SAFE_OFF of Table 12.9). -/
def Module.safeImage (m : Module) (r : TaskRec) : Bytes :=
  if r.safeOff = 0xFFFFFFFF then List.replicate r.outLen 0 else slice m.cul.tblob r.safeOff r.outLen

/-- Whether a publication belongs to a send connection with GOOSE carriage, which replaces its repetition (R419).
DEDUCED, assumption 48. -/
def Module.lstPub (m : Module) (p : Nat) : Bool :=
  m.lst.conns.any fun (c, x) => m.isOn (R.LST_CONN0_DIR c) && m.isOn (R.LST_CONN0_CARRIAGE c) && x.pub == p

/-- The entries that apply an instance's safe values (R305): the safe image of each task, the SAFE value of each
variable the instance publishes, one FRAME entry for each publication and send connection (R418) of its tasks.
DEDUCED, assumption 48. -/
def Module.safeEntries (m : Module) (i : Nat) : List Entry :=
  let ts := m.cul.tasks.filter fun (_, r) => r.inst == i
  (ts.map fun (t, r) => Entry.safeOut t (m.safeImage r)) ++
  ((m.cul.vars.filter fun (_, v) => v.inst == i).map fun (n, v) =>
    Entry.varPub n (BitVec.ofNat 32 v.safeQ) (BitVec.ofNat 64 v.safeValue) v.width) ++
  ((m.cul.pubs.filter fun (n, p) => ts.any (·.1 == p.task) && !m.lstPub n).map fun (n, _) => Entry.frame 0 n) ++
  ((m.lst.conns.filter fun (c, x) => m.isOn (R.LST_CONN0_DIR c) && ts.any (·.1 == x.task)).map fun (c, _) => Entry.frame 1 c)

/-- The safe-value record of an instance. -/
def Module.safeRecord (m : Module) (i : Nat) (extra : List Entry) : CRec :=
  let es := extra ++ m.safeEntries i
  ⟨i, m.gen i, none, 0, 0, 32 + entriesSize es, es, 32, 0, m.press.admitted + 1, m.mono, if extra = [] then .safe else .rewrite⟩

/-- Admits records as one epoch of their own: the epoch's writes end when the longest apply time has passed (R43). -/
def Module.openEpoch (m : Module) (recs : List CRec) (txn : Option (Nat × List (Nat × Nat))) (forces : List ForceApply)
    (cycles : Nat) : Module :=
  let n := m.press.admitted + 1
  { m with press := { m.press with
      admitted := n
      applying := m.press.applying ++ [⟨n, recs, txn, forces, m.mono + fabric cycles⟩] } }

def recCycles (r : CRec) : Nat := 2 + ceilDiv r.length 32

/-- Applies safe values in an epoch of their own (R53). -/
def Module.applySafe (m : Module) (is : List Nat) : Module :=
  let recs := is.map fun i => m.safeRecord i []
  m.openEpoch recs none [] (recs.foldl (fun a r => max a (recCycles r)) 2)

/-- The contexts that hold cycles of an instance. -/
def Module.ctxsOf (m : Module) (p : Ctx → Bool) : List (Nat × Nat × Ctx) :=
  m.engines.flatMap fun (e, g) => (g.ctxs.filter fun (_, x) => p x).map fun (c, x) => (e, c, x)

/-- A cycle that ends without an applied record: the active that forwards its instance's records sends a marker
(R408). DEDUCED, assumption 72. -/
def Module.noRecord (m : Module) (t ct : Nat) : Module :=
  match m.red.forward.get? (m.taskInst t) with
  | some j => if m.nsOfTs (ct % 2 ^ 32) < j then m.emit (.pair (.marker (m.taskInst t) ct t)) else m
  | none => m

/-- A commit group fails (R52): the cycle it failed, its count, its cause and the event. -/
def Module.grpFailed (m : Module) (g ct cause : Nat) : Module :=
  let m := { m with press := { m.press with lastFailed := m.press.lastFailed.set g ct } }
  (((m.bump (R.PRS_GRP_FAIL_CNT_CNT g)).wr (R.PRS_GRP_STAT_CAUSE g) cause).flag
    (R.PRS_GRP_STAT_FAIL_STK g)).raise' 8 2 cause g

/-- The group and the cycle of a complete group's records. -/
def grpOf (l : List CRec) : Nat × Nat := ((l.head?.bind (·.group)).getD 0, (l.head?.map (·.ct)).getD 0)

/-- Carries out one act; answers the module and the acts that follow from it, in order. -/
def Module.act (m : Module) : Act → Module × List Act
  | .cancelOpen t ct cause =>
    match (m.task t).opens.find? (·.ct == ct) with
    | some o =>
      let m := (m.modTask t fun x => { x with opens := x.opens.filter (·.ct != ct) }).endAttempt t o
      (((m.trace 4 cause t ct 0 0 0).bump (R.SCH_CNT_CNT 5)).noRecord t ct, [.report t ct, .chain t ct])
    | none => (m, [])
  | .lost t ct cause eng ctx detail =>
    let m := (m.modTask t fun x => { x with handed := if x.handed = some ct then none else x.handed })
    let m := m.trace 4 cause t ct eng ctx detail
    let m := m.bump (R.SCH_CNT_CNT (if cause = 8 then 7 else 5))
    (m.noRecord t ct, [.report t ct, .chain t ct])
  | .chain t ct => (m, (m.waiters t ct).map fun u => .cancelOpen u ct 2)
  | .report t ct =>
    match m.taskGroup t with
    | none => (m, [])
    | some g =>
      match m.press.groups.get? g with
      | some c =>
        if c.ct = ct then (m, [.grpFail g 3])
        else if tsLater ct c.ct then
          -- a report for a later cycle: the collected cycle is overtaken, and the later one fails at once (R51, R52)
          (m, [.grpFail g 5, .report t ct])
        else (m, [])
      | none =>
        if m.press.lastFailed.get? g = some ct then (m, [])
        else if (m.rd (R.PRS_GRP_CFG_EN g)) = 1 then
          ({ m with press := { m.press with
              groups := m.press.groups.set g ⟨ct, [], m.rd (R.PRS_GRP_CFG_DEADLINE g)⟩ } }, [.grpFail g 3])
        else (m, [])
  | .grpFail g cause =>
    match m.press.groups.get? g with
    | none => (m, [])
    | some c =>
      let m := { m with press := { m.press with groups := m.press.groups.erase g } }
      (m.grpFailed g c.ct cause, c.recs.map fun r => .discard r 3)
  | .discard r n =>
    let m := m.bump (R.PRS_DISC_CNT_CNT n)
    let m := m.modTask r.task fun x => { x with handed := if x.handed = some r.ct then none else x.handed }
    if n = 2 then (m, [.fault r.task r.ct 0 r.engine r.ctx])
    else (m, [.lost r.task r.ct 10 r.engine r.ctx n])
  | .fault t ct code eng ctx =>
    match m.taskRec t with
    | none => (m, [])
    | some r =>
      if r.faultStop then (m, [.lost t ct 7 eng ctx code, .stop r.inst])
      else (m, [.lost t ct 7 eng ctx code, .consec t])
  | .consec t =>
    match m.taskRec t with
    | none => (m, [])
    | some r =>
      let m := m.modTask t fun x => { x with consecOvr := min 255 (x.consecOvr + 1) }
      (m, if (m.task t).consecOvr ≥ r.ovrLimit then [.stop r.inst] else [])
  | .stop i =>
    if m.rd (R.INS_INST_STAT_STATE i) = 3 then (m, [])
    else
      let ts := (m.cul.tasks.filter fun (_, r) => r.inst == i).map (·.1)
      let held := m.ctxsOf fun x => x.inst == i
      let opens := ts.flatMap fun t => (m.task t).opens.map fun o => (t, o.ct)
      let recs := m.press.pending.filter fun r => r.inst == i
      let m := held.foldl (fun m (e, c, _) => m.abortCtx e c) m
      let m := ts.foldl (fun m t => m.modTask t fun x => { x with state := .stopped, enablePending := false }) m
      let m := { m with press := { m.press with pending := m.press.pending.filter fun r => r.inst != i } }
      let m := m.wr (R.INS_INST_STAT_STATE i) 3
      let m := m.raiseIf R.SCH_CTRL_LOG_EN 6 2 0 i 0xFFFF i
      let grps := (m.press.groups.map (·.1)).filter fun g => (m.members g).any fun t => ts.contains t
      let full := m.press.complete.filter fun l => l.any fun r => r.inst == i
      let m := { m with press := { m.press with
        complete := m.press.complete.filter fun l => !(l.any fun r => r.inst == i) } }
      let m := full.foldl (fun m l => m.grpFailed (grpOf l).1 (grpOf l).2 3) m
      (m.applySafe [i],
        (held.map fun (e, c, x) => Act.lost x.task x.ct 6 e c 0) ++
        (opens.map fun (t, ct) => Act.cancelOpen t ct 6) ++
        (recs.map fun r => Act.discard r 6) ++
        (full.flatMap fun l => l.map fun r => Act.discard r (if r.inst = i then 6 else 3)) ++
        (grps.map fun g => Act.grpFail g 3))

/-- Carries out acts and what follows from them, depth first. -/
def Module.run : Nat → List Act → Module → Module
  | 0, _, m => m
  | _ + 1, [], m => m
  | k + 1, a :: r, m => let (m', l) := m.act a; run k (l ++ r) m'

/-- Enough steps for every chain of consequences: each act removes a cycle, a record, a group or a stop. -/
def actFuel : Nat := 1000000

def Module.doActs (m : Module) (l : List Act) : Module := m.run actFuel l

/-! ### Operand arrivals (R290 to R294) -/

/-- The operand slots that an arrival of a kind and source reaches, in ascending task and slot (R294). -/
def Module.slotsFor (m : Module) (kind source : Nat) : List (Nat × Nat) :=
  m.cul.tasks.flatMap fun (t, r) =>
    ((List.range r.ops.length).filter fun k =>
      match r.ops[k]? with
      | some p => p.kind == kind && p.source == source
      | none => false).map fun k => (t, k)

/-- Delivers an operand: an arrival at every slot that waits on it. -/
def Module.deliver (m : Module) (kind source instant : Nat) : Module :=
  { m with ladle := { m.ladle with
      arrivals := m.ladle.arrivals ++ (m.slotsFor kind source).map fun (t, k) => (t, k, instant % 2 ^ 32) } }

/-- The TRIGGER and SYNC slots of a task. -/
def TaskRec.waitMask (r : TaskRec) : Nat :=
  (List.range r.ops.length).foldl (fun a k =>
    match r.ops[k]? with
    | some p => if p.kind ≠ 0 ∧ p.mode ≠ 2 then a + 2 ^ k else a
    | none => a) 0

/-- Puts an open cycle into a task's list, in ascending instant (R14). -/
def insOpen (o : OpenCycle) : List OpenCycle → List OpenCycle
  | [] => [o]
  | x :: r => if tsLater x.ct o.ct then o :: x :: r else x :: insOpen o r

/-- Sets the bit of an arrival; a cycle whose TRIGGER and SYNC bits are all set is ready. -/
def Module.setBit (m : Module) (t k ct : Nat) (r : TaskRec) : Module :=
  let x := m.task t
  let was := (x.opens.find? (·.ct == ct)).map (·.ready)
  let opens := x.opens.map fun o =>
    if o.ct = ct then
      let b := o.bits ||| 2 ^ k
      { o with bits := b, ready := b &&& r.waitMask == r.waitMask }
    else o
  let m := m.setTask t { x with opens := opens }
  let now := (opens.find? (·.ct == ct)).map (·.ready)
  if was = some false ∧ now = some true then (m.trace 0 0 t ct 0 0 0).bump (R.SCH_CNT_CNT 1) else m

/-- Whether tasks are dispatched and cycles opened in a mode (Table 1.5). -/
def Module.tasksRun (m : Module) : Bool :=
  m.mode == .ripen || m.mode == .active || m.mode == .standby || m.mode == .test

/-- An operand arrival at a slot (R291, R292): it sets its bit, opening, superseding or readying a cycle, or is dropped.
DEDUCED, assumption 75. -/
def Module.arrive (m : Module) (t k ct : Nat) : Module :=
  if m.gone 6 t then m else
  match m.taskRec t with
  | none => m
  | some r =>
    let x := m.task t
    match r.ops[k]? with
    | none => m
    | some p =>
      if p.mode = 2 then m.setTask t { x with latest := x.latest ||| 2 ^ k }
      else if x.state ≠ .enabled ∨ !m.tasksRun ∨ !m.ready 5 then m
      else if x.opens.any (·.ct == ct) then m.setBit t k ct r
      else if (match x.lastDispatched with | some l => !tsLater ct l | none => false) then m.bump (R.SCH_CNT_CNT 10)
      else
        let o : OpenCycle := ⟨ct, 0, false, 0, none, none⟩
        let open' (m : Module) : Module :=
          ((m.modTask t fun x => { x with opens := insOpen o x.opens }).bump (R.SCH_CNT_CNT 0)).setBit t k ct r
        if x.opens.length < r.maxOpen then open' m
        else
          match x.opens.head? with
          | some old => if tsLater ct old.ct then open' (m.doActs [.cancelOpen t old.ct 1]) else m.bump (R.SCH_CNT_CNT 10)
          | none => m

/-- A standby that joins an instance cancels its own cycles with an instant earlier than T_join with cause 1; the task waits
for the end of the latest of them on the active (R408). DEDUCED, assumption 76. -/
def Module.joinCancel (m : Module) (t : Nat) : Module :=
  match (m.red.xfers.get? (m.taskInst t)).bind (·.tJoin) with
  | none => m
  | some j =>
    let old := (m.task t).opens.filter fun o => decide (m.nsOfTs (o.ct % 2 ^ 32) < j)
    let m := m.doActs (old.map fun o => .cancelOpen t o.ct 1)
    match old.getLast? with
    | none => m
    | some o => m.modTask t fun x => { x with handed := match x.handed with
        | some h => some (if tsLater o.ct h then o.ct else h)
        | none => some o.ct }

/-- OPERAND_ARRIVAL: the next arrival reaches the matching store. DEDUCED, assumption 71. -/
def mOperandArrival (m : Module) : Module :=
  match m.ladle.arrivals with
  | [] => m
  | (t, k, ct) :: r => ({ m with ladle := { m.ladle with arrivals := r } }.arrive t k ct).joinCancel t

/-- The first instant of a tick operand later than a given one. The instants S × 10^9 + PHASE_US × 1,000 +
k × PERIOD_US × 1,000 (Table 12.1) are those congruent to the phase modulo the period, which divides 10^9 ns. -/
def nextTick (p : Operand) (after : Nat) : Nat :=
  let per := p.p1 * 1000
  let ph := p.p2 * 1000
  if after < ph then ph else ph + ((after - ph) / per + 1) * per

/-- Every tick operand's instants are reached from here on: the first is the first later than t (ns). At the readiness of the
Ladle, and after a step of the clock, which passes instants over or reaches them again (R189).
DEDUCED, assumption 121. -/
def Module.tickFrom (m : Module) (t : Nat) : Module :=
  let keys := m.cul.tasks.flatMap fun (k, r) =>
    ((List.range r.ops.length).filter fun n => (r.ops[n]?).any (·.kind == 4)).map fun n => (k * 8 + n, t)
  { m with ladle := { m.ladle with lastTick := keys } }

/-- TICK: the next instant of a tick operand is reached, and it arrives for the task that waits on it (Table 12.1). -/
def mTick (task slot : Nat) (m : Module) : Module :=
  match (m.taskRec task).bind fun r => r.ops[slot]? with
  | none => m
  | some p =>
    if p.kind ≠ 4 ∨ !m.tasksRun ∨ !m.ready 5 then m
    else
      let t := nextTick p (m.ladle.lastTick.getD (task * 8 + slot) m.tns)
      let m := m.reach t
      { m with ladle := { m.ladle with
          arrivals := m.ladle.arrivals ++ [(task, slot, t % 2 ^ 32)]
          lastTick := m.ladle.lastTick.set (task * 8 + slot) t } }

def execOperandArrival (s : State) : Host.Outcome State Fault Refusal := s.upd mOperandArrival
def execTick (task slot : Nat) (s : State) : Host.Outcome State Fault Refusal := s.upd (mTick task slot)

end Sys2Proof.Machine
end

