-- ==== Sys2Proof/Machine/Ports.lean ====
section
/-!
DEFINITION. The frame MACs (R125 to R145): link and cage, pause, the hold window, transmission, the timestamp queue,
cut-through.
-/

namespace Sys2Proof.Machine

/-! ### Link and cage -/

/-- Takes the copies out of every class queue of a port; each is counted under k = 8 (R137). -/
def Module.flushPort (m : Module) (p : Nat) : Module :=
  (List.range 8).foldl (fun m q =>
    let n := (m.queue (.cls p q)).length
    (m.setQueue (.cls p q) []).bumpBy (R.MAC_CNT_CNT p 8) n) m

/-- The hold window of a port ends: what is queued is flushed unless the port's pair still has a link. -/
def Module.endHold (m : Module) (p : Nat) : Module :=
  let m := { m with sw := { m.sw with holdEnd := m.sw.holdEnd.erase p } }.wr (R.MAC_STATUS_HOLDING p) 0
  if m.portUp (if m.inPair p then p / 2 * 2 else p) then m else m.flushPort p

/-- Clears every pause timer of a port (R136). -/
def Module.clearPauses (m : Module) (p : Nat) : Module :=
  { m with sw := { m.sw with pauses := m.sw.pauses.filter fun (k, _) => k / 8 != p } }

/-- Link down (R127, R136, R137, R161). -/
def Module.portDown (m : Module) (p : Nat) : Module :=
  if !m.isOn (R.MAC_STATUS_LINK p) then m
  else
    let m := ((m.wr (R.MAC_STATUS_LINK p) 0).wr (R.MAC_STATUS_RATE p) 0).flag (R.MAC_STATUS_LINK_DOWN_STK p)
    let m := (m.clearPauses p).wr (R.MAC_SEC_STAT_SECURE p) 0
    let m := { m with sw := { m.sw with
      credits := m.sw.credits.filter fun (k, _) => k / 8 != p, wire := m.sw.wire.erase p } }
    let h := m.rd (R.MAC_HOLD_HOLD_US p)
    if h = 0 then m.endHold p
    else { m with sw := { m.sw with holdEnd := m.sw.holdEnd.set p (m.mono + h * 1000 * nsUnit) } }.flag
      (R.MAC_STATUS_HOLDING p)

/-- A port whose link may come up: enabled, a module fitted that declares its rate, no fault, transmitters on. -/
def Module.mayLink (m : Module) (p : Nat) : Bool :=
  m.swOn && m.isOn (R.MAC_CTRL_EN p) && m.isOn (R.MAC_STATUS_MOD_PRESENT p) && !m.isOn (R.MAC_STATUS_TX_FAULT p) &&
    !m.mismatch p && m.wantedRate p != 0

/-- The slopes scaled at link up (R161) and the class-7 bound (R162). -/
def Module.linkShaping (m : Module) (p code : Nat) : Module :=
  let sum := [4, 5, 6].foldl (fun a q => a + m.rd (R.SWC_Q_SHAPE_IDLE_SLOPE p q) * 1000000) 0
  let lim := rateOf code * 750000000
  let m := if lim < sum then
      { m with sw := { m.sw with scale := m.sw.scale.set p (lim, sum) } }.flag (R.SWC_PORT_STAT_SLOPE_CUT_STK p)
    else { m with sw := { m.sw with scale := m.sw.scale.erase p } }
  let ok := code == 3 || (code == 2 && decide (m.rd (R.MAC_CTRL_MAX_LEN p) ≤ 3730))
  if ok then m.wr (R.SWC_PORT_STAT_BOUND_LOST p) 0
  else if m.isOn (R.SWC_PORT_STAT_BOUND_LOST p) then m
  else ((m.flag (R.SWC_PORT_STAT_BOUND_LOST p)).flag (R.SWC_PORT_STAT_BOUND_LOST_STK p)).raise' 3 1 0 p

/-- Link up (R127, R136, R137): inside the hold window the queues stand; at its end or later they are flushed. -/
def Module.portLinkUp (m : Module) (p : Nat) : Module :=
  if !m.mayLink p ∨ m.isOn (R.MAC_STATUS_LINK p) then m
  else
    let late := match m.sw.holdEnd.get? p with
      | some e => decide (e ≤ m.mono)
      | none => false
    let m := if late then m.endHold p else m
    let code := m.wantedRate p
    let m := ((m.flag (R.MAC_STATUS_LINK p)).wr (R.MAC_STATUS_RATE p) code).wr (R.MAC_STATUS_HOLDING p) 0
    let m := { m with sw := { m.sw with holdEnd := m.sw.holdEnd.erase p } }.clearPauses p
    if p < 10 then m.linkShaping p code else m

/-- CAGE_SIGNAL_CHANGE: the cage's MOD_ABS, TX_FAULT and RX_LOS, and the rates that a fitted module declares (bit s
for SPEED s) with its 1000BASE-T identity (R125, R127, R128, R73). -/
def mCageSignalChange (p : Nat) (absent fault los copper : Bool) (rates : Nat) (m : Module) : Module :=
  let m := { m with sw := { m.sw with declared := m.sw.declared.set p (if absent then 0 else if copper then 2 else rates % 16) } }
  let m := (m.wr (R.MAC_STATUS_MOD_PRESENT p) (b2n !absent)).wr (R.MAC_STATUS_TX_FAULT p) (b2n fault)
  let m := (m.wr (R.MAC_STATUS_RX_LOS p) (b2n los)).wr (R.MAC_STATUS_COPPER p) (b2n (copper && !absent))
  let m := m.wr (R.MAC_STATUS_RATE_MISMATCH p) (b2n (m.mismatch p))
  if absent || fault || m.mismatch p then m.portDown p else m

/-- SFP_DIAG_READ: the module's diagnostics, once per second (R72, R128). -/
def mSfpDiagRead (p temp rxPwr : Nat) (alarm : Bool) (m : Module) : Module :=
  if !m.isOn (R.MAC_STATUS_MOD_PRESENT p) then m
  else
    let m := (m.wr (R.MAC_SFP_DIAG_TEMP p) temp).wr (R.MAC_SFP_DIAG_RX_PWR p) rxPwr
    if alarm then m.flag (R.MAC_STATUS_TEMP_ALARM_STK p) else m

/-- MAC_CTRL_WRITE: a change of EN, SPEED or FEC restarts the link (R126, R127); PL keeps its SPEED and FEC. -/
def mMacCtrlWrite (p v : Nat) (m : Module) : Module :=
  if m.mode = .reset then m
  else
    let sp := if p = 10 then m.rd (R.MAC_CTRL_SPEED p) else bitsOf v 1 2
    let fec := if p = 10 then m.rd (R.MAC_CTRL_FEC p) else bitsOf v 3 2
    let restart := sp != m.rd (R.MAC_CTRL_SPEED p) || fec != m.rd (R.MAC_CTRL_FEC p) || !bitOf v 0
    let m := (((m.wr (R.MAC_CTRL_EN p) v).wr (R.MAC_CTRL_SPEED p) sp).wr (R.MAC_CTRL_FEC p) fec).wr
      (R.MAC_CTRL_MAX_LEN p) (bitsOf v 8 14)
    let m := m.wr (R.MAC_STATUS_RATE_MISMATCH p) (b2n (m.mismatch p))
    if restart then m.portDown p else m

/-- HOLD_END: the window [down, down + HOLD_US) of a port ends (R137). -/
def mHoldEnd (p : Nat) (m : Module) : Module :=
  match m.sw.holdEnd.get? p with
  | none => m
  | some e => (m.reachMono e).endHold p

/-! ### Pause (R134 to R136) -/

/-- PAUSE_FRAME: a PAUSE (`enable` = 0xFF, the same time for each class) or PFC frame that passed its checks.
DEDUCED, assumption 51. -/
def mPauseFrame (p : Nat) (pfc : Bool) (enable : Nat) (times : List Nat) (t : Nat) (m : Module) : Module :=
  let m := m.reach t
  if !m.isOn (R.MAC_STATUS_LINK p) then m
  else
    let m := m.macCnt p 5
    let on := if pfc then m.isOn (R.MAC_PAUSE_CFG_RX_PFC_EN p) else m.isOn (R.MAC_PAUSE_CFG_RX_PAUSE_EN p)
    if p = 10 ∨ !on then m
    else
      let m := m.syncCredits p
      let rate := m.runRate p
      (List.range 8).foldl (fun m q =>
        if bitOf (m.rd (R.MAC_PAUSE_CFG_IGN_PAUSE p)) q ∨ (pfc ∧ !bitOf enable q) then m
        else
          let n := times.getD (if pfc then q else 0) 0
          let pz := if n = 0 then m.sw.pauses.erase (8 * p + q)
            else m.sw.pauses.set (8 * p + q) (m.mono + n * 512 * nsUnit / rate)
          { m with sw := { m.sw with pauses := pz } }) m

/-- PAUSE_EXPIRY: a class's pause time ends. -/
def mPauseExpiry (p q : Nat) (m : Module) : Module :=
  match m.sw.pauses.get? (8 * p + q) with
  | none => m
  | some e =>
    let m := (m.reachMono e).syncCredits p
    { m with sw := { m.sw with pauses := m.sw.pauses.erase (8 * p + q) } }

/-! ### Transmission (R132, R133, R160) -/

/-- AGE_DROP: takes frames whose start falls outside their age window off the head of a class queue (R133). -/
def Module.dropAged (p q : Nat) : Nat → Module → Module
  | 0, m => m
  | k + 1, m =>
    match m.queue (.cls p q) with
    | [] => m
    | c :: r =>
      let lim := m.rd (R.MAC_AGE_AGE_US p q) * 1000
      if lim = 0 ∨ m.tns < c.admitted + lim then m
      else dropAged p q k ((m.setQueue (.cls p q) r).macCnt p 7)

/-- The frame at the head of a class that may start, after the age drops. -/
def Module.headOf (m : Module) (p q : Nat) : Option Copy × Module :=
  if m.paused p q then (none, m)
  else
    let m := m.dropAged p q (m.queue (.cls p q)).length
    ((m.queue (.cls p q)).head?, m)

/-- Deficit weighted round robin over classes 0 to 3, ascending, with a quantum of WRR × 256 bytes.
DEDUCED, assumption 53. -/
def Module.roundRobin (p : Nat) : Nat → Nat → Module → Option Nat × Module
  | 0, _, m => (none, m)
  | k + 1, empties, m =>
    let (c, has) := m.sw.rr.getD p (0, false)
    let next (m : Module) := { m with sw := { m.sw with rr := m.sw.rr.set p ((c + 1) % 4, false) } }
    match m.headOf p c with
    | (none, m) =>
      let m := next { m with sw := { m.sw with deficits := m.sw.deficits.erase (8 * p + c) } }
      if 3 ≤ empties then (none, m) else roundRobin p k (empties + 1) m
    | (some x, m) =>
      let d := m.sw.deficits.getD (8 * p + c) 0 + (if has then 0 else m.rd (R.SWC_Q_CFG_WRR p c) * 256)
      let len := x.bytes.length + 4
      if len ≤ d then
        (some c, { m with sw := { m.sw with deficits := m.sw.deficits.set (8 * p + c) (d - len), rr := m.sw.rr.set p (c, true) } })
      else roundRobin p k 0 (next { m with sw := { m.sw with deficits := m.sw.deficits.set (8 * p + c) d } })

/-- The class whose frame starts next (R160). DEDUCED, assumption 53. -/
def Module.pickClass (m : Module) (p : Nat) : Option Nat × Module :=
  let tryq (acc : Option Nat × Module) (q : Nat) : Option Nat × Module :=
    match acc with
    | (some q', m) => (some q', m)
    | (none, m) =>
      if q < 7 ∧ m.rd (R.SWC_Q_SHAPE_IDLE_SLOPE p q) ≠ 0 ∧ m.creditNow p q < 0 then (none, m)
      else match m.headOf p q with
        | (some _, m) => (some q, m)
        | (none, m) => (none, m)
  match [7, 6, 5, 4].foldl tryq (none, m) with
  | (some q, m) => (some q, m)
  | (none, m) => m.roundRobin p 400 0

/-- TIMESTAMP_ENTRY (R138, R139): an entry of Table 5.4 into a port's queue of 512. -/
def Module.stampEntry (m : Module) (p inst seq cls : Nat) : Module :=
  let l := m.sw.tsq.getD p []
  let w := [m.tns % 1000000000, m.tns / 1000000000 % 2 ^ 32, m.tns / 1000000000 / 2 ^ 32 % 2 ^ 16 + seq % 2 ^ 16 * 2 ^ 16,
    inst + cls * 2 ^ 12]
  if l.length ≥ 512 then (m.macCnt p 10).flag (R.MAC_STATUS_TSQ_OVF_STK p)
  else { m with sw := { m.sw with tsq := m.sw.tsq.set p (l ++ [w]) } }

/-- A frame with its PRP trailer or HSR tag (R142; IEC 62439-3: sequence number, LAN or path, size of the LSDU).
PRESUMED, assumption 49; DEDUCED, assumption 55. -/
def redFrame (mode lan seq : Nat) (b : Bytes) : Bytes :=
  let rest := ethRest b
  let size := (rest.length - 2 + 6) % 4096
  if mode = 1 then b ++ beBytes 2 seq ++ beBytes 2 ((10 + lan) * 4096 + size) ++ beBytes 2 0x88FB
  else b.take 12 ++ beBytes 2 0x892F ++ beBytes 2 (lan * 4096 + size) ++ beBytes 2 seq ++ b.drop 12

/-- The frame that leaves one MAC: sent with what its pair adds, counted, stamped. DEDUCED, assumption 55. -/
def Module.transmit (m : Module) (p : Nat) (c : Copy) : Module :=
  if !m.linkUp p then m
  else
    let low := p / 2 * 2
    let b := if m.inPair p then redFrame (m.redund low) (p % 2) (m.sw.redSeq.getD low 0) c.bytes else c.bytes
    let m := (m.emit (.frame p b m.tns)).macCnt p 6
    match c.stamp with
    | some (i, s) => m.stampEntry p i s c.cls
    | none => m

/-- The bytes that a frame occupies on a port's wire, with preamble, SFD and gap, and what the port adds. -/
def Module.wireBytes (m : Module) (p : Nat) (c : Copy) : Nat :=
  c.bytes.length + 4 + 20 + (if m.isOn (R.MAC_CTRL_MACSEC_EN p) then 32 else 0) + (if m.inPair p then 6 else 0)

/-- FRAME_START: at a free wire the scheduler's next frame starts. On a redundant pair both MACs send it (R142).
DEDUCED, assumption 53. -/
def mFrameStart (p : Nat) (m : Module) : Module :=
  if !m.swOn ∨ m.sys.held ∨ 10 ≤ p ∨ m.upperOfPair p ∨ !m.portUp p then m
  else
    let m := match m.sw.wire.get? p with
      | some (e, _) => m.reachMono e
      | none => m
    let m := m.syncCredits p
    match m.pickClass p with
    | (none, m) => m
    | (some q, m) =>
      match m.queue (.cls p q) with
      | [] => m
      | c :: r =>
        let m := m.setQueue (.cls p q) r
        let rate := max 1 (max (m.runRate p) (if m.redund p ≠ 0 then m.runRate (p + 1) else 0))
        let m := { m with sw := { m.sw with wire := m.sw.wire.set p (m.mono + m.wireBytes p c * 8 * nsUnit / rate, q) } }
        let m := m.transmit p c
        if m.redund p ≠ 0 then
          let m := m.transmit (p + 1) c
          { m with sw := { m.sw with redSeq := m.sw.redSeq.set p ((m.sw.redSeq.getD p 0 + 1) % 2 ^ 16) } }
        else m

/-- TSQ_POP: removes the oldest timestamp entry. DEDUCED, assumption 114. -/
def mTsqPop (p : Nat) (m : Module) : Module :=
  if m.mode = .reset then m else { m with sw := { m.sw with tsq := m.sw.tsq.set p ((m.sw.tsq.getD p []).drop 1) } }

/-! ### Redundant pairs (R142) -/

/-- SUPERVISION_SEND: a redundant pair sends its supervision frame on both ports. -/
def mSupervisionSend (p : Nat) (m : Module) : Module :=
  if m.redund p = 0 ∨ !m.swOn then m
  else
    let one (m : Module) (n : Nat) : Module :=
      if m.linkUp n then (m.emit (.supervision n (m.redund p))).macCnt n 6 else m
    one (one m p) (p + 1)

/-- DUPLICATE_ENTRY_EXPIRY: the oldest entry of a pair's duplicate table is forgotten, 400 ms after it was made. -/
def mDuplicateEntryExpiry (p : Nat) (m : Module) : Module :=
  match m.sw.dups.getD p [] with
  | [] => m
  | (_, _, e) :: r => { m.reachMono e with sw := { m.sw with dups := m.sw.dups.set p r } }

/-! ### Cut-through (R157) -/

/-- CUT_THROUGH_LOOKUP: at a frame's first 64 bytes at P0 to P9 the lookup and admission are made where every
condition of R157 holds. DEDUCED, assumption 54. -/
def mCutThroughLookup (p : Nat) (head : Bytes) (t : Nat) (m : Module) : Module :=
  let m := m.reach t
  let e := ethOf head
  if 10 ≤ p ∨ !m.swOn ∨ !m.linkUp p ∨ !m.isOn (R.SWC_PORT_CFG_CUT_THRU p) ∨ m.inPair p ∨ (m.divert p head e t).isSome then m
  else
    match m.classify p e with
    | none => m
    | some c =>
      let (q, m1) := m.classOf p c.pcp
      let (l, m1) := m1.lookup p e.dst c.vid c.vlan
      match m.dests p c.vlan l with
      | [.inl n] =>
        let mirrored := (List.range 4).any fun s => m.isOn (R.SWC_MIR0_EN s) &&
          (bitOf (m.rd (R.SWC_MIR1_ING s)) p || bitOf (m.rd (R.SWC_MIR1_EGR s)) n || bitOf l.mirror s)
        let idle := (List.range 8).all (fun k => decide (k < q) || (m.queue (.cls n k)).isEmpty) &&
          (match m.sw.wire.get? n with | some (e, _) => decide (e ≤ m.mono) | none => true)
        if 10 ≤ n ∨ mirrored ∨ !idle ∨ !m.portUp n ∨ m.runRate p < m.runRate n then m
        else
          let cells := ceilDiv (m.rd (R.MAC_CTRL_MAX_LEN p)) 256
          let ok := m1.admits (.cls n q) cells
          let m1 := (m1.swCnt p 0).swCnt p 8
          let m1 := if ok then m1 else m1.swCnt n 2
          { m1 with sw := { m1.sw with cuts := m1.sw.cuts.set p ⟨n, q, c.vid, c.pcp, cells, ok⟩ } }
      | _ => m

def execCageSignalChange (p : Nat) (absent fault los copper : Bool) (rates : Nat) (s : State) :
    Host.Outcome State Fault Refusal := s.upd (mCageSignalChange p absent fault los copper rates)
def execSfpDiagRead (p temp rxPwr : Nat) (alarm : Bool) (s : State) : Host.Outcome State Fault Refusal :=
  s.upd (mSfpDiagRead p temp rxPwr alarm)
def execMacCtrlWrite (p v : Nat) (s : State) : Host.Outcome State Fault Refusal := s.upd (mMacCtrlWrite p v)
def execHoldEnd (p : Nat) (s : State) : Host.Outcome State Fault Refusal := s.upd (mHoldEnd p)
def execPauseFrame (p : Nat) (pfc : Bool) (enable : Nat) (times : List Nat) (t : Nat) (s : State) :
    Host.Outcome State Fault Refusal := s.upd (mPauseFrame p pfc enable times t)
def execPauseExpiry (p q : Nat) (s : State) : Host.Outcome State Fault Refusal := s.upd (mPauseExpiry p q)
def execFrameStart (p : Nat) (s : State) : Host.Outcome State Fault Refusal := s.upd (mFrameStart p)
def execTsqPop (p : Nat) (s : State) : Host.Outcome State Fault Refusal := s.upd (mTsqPop p)
def execSupervisionSend (p : Nat) (s : State) : Host.Outcome State Fault Refusal := s.upd (mSupervisionSend p)
def execDuplicateEntryExpiry (p : Nat) (s : State) : Host.Outcome State Fault Refusal := s.upd (mDuplicateEntryExpiry p)
def execCutThroughLookup (p : Nat) (head : Bytes) (t : Nat) (s : State) : Host.Outcome State Fault Refusal :=
  s.upd (mCutThroughLookup p head t)

end Sys2Proof.Machine
end

