-- ==== Sys2Proof/Machine/Time.lean ====
section
/-!
DEFINITION. The Timekeeper (R169 to R191): clock reads, virtual clocks, sources, their selection and loss, the
servo's arithmetic. The step of the clock (R188, R189) is completed where every window's owner is known.
-/

namespace Sys2Proof.Machine

def Module.timCnt (m : Module) (k : Nat) : Module := m.bump (R.TIM_CNT_CNT k)

/-- Latches a word for the reading function (R19, R171). -/
def Module.setLatch (m : Module) (fn addr v : Nat) : Module :=
  { m with latch := m.latch.set (fn * 2 ^ 33 + addr) (v % 2 ^ 32) }

/-! ### Reads -/

/-- NOW_READ: the nanoseconds, with seconds, fraction and TS32 of the same tick latched (R171).
DEDUCED, assumption 64. -/
def mNowRead (fn : Nat) (m : Module) : Module :=
  if m.mode = .reset then { m with rdata := 0 }
  else
    let s := m.tns / 1000000000
    let m := (((m.setLatch fn 0x200008 s).setLatch fn 0x20000c (s / 2 ^ 32 % 2 ^ 16)).setLatch fn 0x200010 (m.clk % 2 ^ 32)).setLatch
      fn 0x200014 m.ts32
    { m with rdata := BitVec.ofNat 32 (m.tns % 1000000000) }

/-- VC_NOW_READ: a virtual clock's nanoseconds, with its seconds latched (R177); 0 while EN is 0.
DEDUCED, assumption 64. -/
def mVcNowRead (fn v : Nat) (m : Module) : Module :=
  if m.mode = .reset then { m with rdata := 0 }
  else
    let x := if m.isOn (R.TIM_VC_CFG_EN v) then m.vcNow v else 0
    let s := unsignedOf (x / 1000000000) 48
    let m := (m.setLatch fn (0x200114 + 0x20 * v) s).setLatch fn (0x200118 + 0x20 * v) (s / 2 ^ 32)
    { m with rdata := BitVec.ofNat 32 (unsignedOf (x % 1000000000) 32) }

/-! ### Virtual clock writes -/

/-- Folds the rate term into OFF_v (R177). -/
def Module.vcFold (m : Module) (v : Nat) : Module :=
  let off := unsignedOf (m.vcNow v - m.tns) 64
  let m := m.wr64 (R.TIM_VC_OFF_LO_OFF v) (R.TIM_VC_OFF_HI_OFF v) off
  { m with tim := { m.tim with vcAt := m.tim.vcAt.set v m.tns } }

def Module.vcSetRate (m : Module) (v rate : Nat) : Module := (m.vcFold v).wr (R.TIM_VC_RATE_RATE v) rate

def Module.vcSetOff (m : Module) (v off : Nat) : Module :=
  let m := m.wr64 (R.TIM_VC_OFF_LO_OFF v) (R.TIM_VC_OFF_HI_OFF v) off
  { m with tim := { m.tim with vcAt := m.tim.vcAt.set v m.tns } }

/-- VC_RATE_WRITE by the PF; ignored with BIND 1 (R178). DEDUCED, assumption 64. -/
def mVcRateWrite (v rate : Nat) (m : Module) : Module :=
  if m.mode = .reset ∨ m.isOn (R.TIM_VC_CFG_BIND v) then m else m.vcSetRate v rate

/-- VC_OFF_WRITE: the write of the high word commits both words (R19, R177); ignored with BIND 1.
DEDUCED, assumption 64. -/
def mVcOffWrite (fn v hi : Nat) (m : Module) : Module :=
  if m.mode = .reset ∨ m.isOn (R.TIM_VC_CFG_BIND v) then m
  else
    let lo := m.wlatch.getD (fn * 2 ^ 33 + (0x200104 + 0x20 * v)) (m.rd (R.TIM_VC_OFF_LO_OFF v))
    m.vcSetOff v (lo + 2 ^ 32 * (hi % 2 ^ 32))

/-! ### Sources (R186, R191) -/

def Module.srcEnabled (m : Module) (s : Nat) : Bool := bitOf (m.rd R.TIM_LOCK_SRC_EN) (s - 1)

/-- Whether a PTP port is in SLAVE state. -/
def Module.ptpSlave (m : Module) : Bool := (List.range 10).any fun n => bitsOf (m.rd R.TIM_PTP_PORTS_STATE) (2 * n) 2 == 3

/-- Whether a source is qualified and may be selected. -/
def Module.srcQualified (m : Module) (s : Nat) : Bool :=
  m.srcEnabled s && (match m.tim.runs.get? s with | some r => r.qualified | none => false) && (s != 1 || m.ptpSlave)

/-- The qualified source of highest priority (Table 7.3). -/
def Module.bestSrc (m : Module) : Option Nat := [1, 2, 3].find? m.srcQualified

/-- INCR from y, rounded to the nearest unit (R187). -/
def incrOf (y : Int) : Nat :=
  ((nominalIncr : Int) + divRne ((nominalIncr : Int) * y) (65536 * 1000000000)).toNat

/-- Sets y and INCR. -/
def Module.setY (m : Module) (y : Int) : Module := { m with tim := { m.tim with y := y, incr := incrOf y } }

def Module.maxPpb (m : Module) : Int := m.rd R.TIM_LIMITS_MAX_PPB * 65536

def clampTo (lim x : Int) : Int := if lim < x then lim else if x < -lim then -lim else x

/-- y = -I / τ (R188, R191). -/
def Module.freqOnly (m : Module) (tau : Nat) : Int :=
  clampTo m.maxPpb (divRne (-(m.tim.integ * 1000000000)) (max 1 tau))

/-- Clears LOCKED and what counts towards it. -/
def Module.unlock (m : Module) : Module :=
  { m.wr R.TIM_STATUS_LOCKED 0 with tim := { m.tim with near := 0, far := 0 } }

/-- Selects again after a source qualified, was lost or enabled: a change counts; with none left after the first
selection the servo enters holdover. -/
def Module.reselect (m : Module) : Module :=
  let best := m.bestSrc
  if best = m.tim.selected then m
  else match best with
    | some s =>
      let m := { m with tim := { m.tim with selected := some s, ever := true } }
      ((((m.unlock.timCnt 4).flag R.TIM_STATUS_SRC_CHG_STK).wr R.TIM_STATUS_SRC s).wr R.TIM_STATUS_HOLDOVER 0).wr
        R.TIM_STATUS_FREERUN 0
    | none =>
      let m := { m with tim := { m.tim with selected := none } }
      let m := (m.unlock.timCnt 3).flag R.TIM_STATUS_HOLDOVER_STK
      let m := ((m.flag R.TIM_STATUS_HOLDOVER).wr R.TIM_STATUS_SRC 0).wr R.TIM_STATUS_SLEWING 0
      m.setY (m.freqOnly m.tim.tau)

/-- Ends a source's run and selects again. -/
def Module.loseSource (m : Module) (s : Nat) : Module :=
  { m with tim := { m.tim with runs := m.tim.runs.erase s, offsets := m.tim.offsets.filter fun o => o.src != s } }.reselect

/-- SOURCE_LOST: the window [last offset, last + HOLD_TMO_MS) of a source ends (Table 7.3). -/
def mSourceLost (src : Nat) (m : Module) : Module :=
  match m.tim.runs.get? src with
  | none => m
  | some r => (m.reachMono (r.last + m.rd R.TIM_HOLD_HOLD_TMO_MS * 1000000 * nsUnit)).loseSource src

/-- A source's offset waits for the servo. -/
def Module.handOffset (m : Module) (o : TimeOffset) : Module :=
  if m.ready 0 then { m with tim := { m.tim with offsets := m.tim.offsets ++ [o] } } else m

/-- A valid offset of a source: its run begins or goes on, and may qualify (R186). -/
def Module.runOffset (m : Module) (s : Nat) : Module :=
  let q := (m.rd R.TIM_LOCK_QUAL_S - 1) * 1000000000 * nsUnit
  let tmo := m.rd R.TIM_HOLD_HOLD_TMO_MS * 1000000 * nsUnit
  let m := match m.tim.runs.get? s with
    | some r => if r.last + tmo ≤ m.mono then m.loseSource s else m
    | none => m
  let r := match m.tim.runs.get? s with
    | some r => { r with last := m.mono }
    | none => ⟨m.mono, m.mono, false⟩
  let r := { r with qualified := r.qualified || decide (r.first + q ≤ m.mono) }
  { m with tim := { m.tim with runs := m.tim.runs.set s r } }.reselect

/-! ### The servo (R187, R190) -/

/-- LOCKED after an offset of the selected source (R190). -/
def Module.lockAfter (m : Module) (theta : Int) : Module :=
  let lim : Int := m.rd R.TIM_LOCK_LOCK_NS * 65536
  let a : Int := theta.natAbs
  let near := if a < lim then m.tim.near + 1 else 0
  let far := if 10 * lim ≤ a then m.tim.far + 1 else 0
  let m := { m with tim := { m.tim with near := near, far := far } }
  if 2 ≤ far then m.wr R.TIM_STATUS_LOCKED 0
  else if m.rd R.TIM_LOCK_LOCK_N ≤ near then m.flag R.TIM_STATUS_LOCKED
  else m

/-- The equations of R187, in units of 2^-16 ns and 2^-16 ppb. DEDUCED, assumption 61. -/
def Module.servo (m : Module) (theta : Int) (tau : Nat) : Module :=
  let ki : Int := m.rd R.TIM_SERVO_KI
  let kp : Int := m.rd R.TIM_SERVO_KP
  let i := clampTo (m.maxPpb * tau / 1000000000) (m.tim.integ + divRne (ki * theta) 65536)
  let y := clampTo m.maxPpb (divRne (-((divRne (kp * theta) 65536 + i) * 1000000000)) (max 1 tau))
  ({ m with tim := { m.tim with integ := i, tau := tau } }.wr R.TIM_STATUS_SLEWING 0).setY y

/-- SLEW_START (R188): the rate is held at its limit against the offset, and I is held. -/
def Module.slew (m : Module) (theta : Int) (tau : Nat) : Module :=
  let m := if m.isOn R.TIM_STATUS_SLEWING then m else (m.timCnt 2).flag R.TIM_STATUS_SLEWING
  ({ m with tim := { m.tim with tau := tau } }.unlock).setY (if 0 < theta then -m.maxPpb else m.maxPpb)

/-- The clock's part of a step by -θ (R188): the time that windows are judged by moves with it, what does not is kept
in its place (R189). -/
def Module.moveClock (m : Module) (theta : Int) (tau : Nat) : Module :=
  let d := theta * 65536
  let sh (x : Nat) : Nat := ((x : Int) - d).toNat
  let wire := m.sw.wire.map fun (k, e, q) => (k, sh e, q)
  let credits := m.sw.credits.map fun (k, v, t) => (k, v, sh t)
  let pauses := m.sw.pauses.map fun (k, e) => (k, sh e)
  let applying := m.press.applying.map fun e => { e with ends := sh e.ends }
  let pending := m.press.pending.map fun r => { r with handed := sh r.handed }
  let runs := m.tim.runs.map fun (k, r) => (k, { r with first := sh r.first, last := sh r.last })
  let m := { m with
    clk := sh m.clk
    mono := sh m.mono
    sw := { m.sw with wire := wire, credits := credits, pauses := pauses }
    press := { m.press with applying := applying, pending := pending, lastTxn := m.press.lastTxn.map sh }
    tim := { m.tim with runs := runs } }
  let ns := unsignedOf (-(divRne theta 65536)) 64
  let m := ((m.timCnt 1).flag R.TIM_STATUS_STEP_STK).wr64 R.TIM_STEP_LAST_LO_STEP R.TIM_STEP_LAST_HI_STEP ns
  let m := (m.unlock.wr R.TIM_STEP_AT_TS32 m.ts32).raise' 1 1 0 ns
  ({ m with tim := { m.tim with tau := tau } }.wr R.TIM_STATUS_SLEWING 0).setY (m.freqOnly tau)

/-! ### PTP (R178 to R181) -/

/-- Takes the first copy of a frame of an EtherType out of EP's queues, highest class first.
DEDUCED, assumption 52. -/
def Module.takeEp (m : Module) (p : Copy → Bool) : Module :=
  (([7, 6, 5, 4, 3, 2, 1, 0].find? fun q => (m.queue (.cls 11 q)).any p).map fun q =>
    m.setQueue (.cls 11 q) ((m.queue (.cls 11 q)).eraseP p)).getD m

/-- PTP_MESSAGE: the Steward takes a message; a bad one is counted under k = 7. DEDUCED, assumption 52. -/
def mPtpMessage (x : PtpMsg) (t : Nat) (m : Module) : Module :=
  let m := (m.reach t).takeEp fun c => (ethOf c.bytes).etype == 0x88F7
  if !m.ready 0 then m
  else if !x.sound ∨ !bitOf m.tim.cfg.ptpPorts x.port then m.timCnt 7
  else
    let bound := (List.range 4).find? fun v => m.isOn (R.TIM_VC_CFG_EN v) && m.isOn (R.TIM_VC_CFG_BIND v) &&
      m.rd (R.TIM_VC_CFG_DOMAIN v) == x.domain
    if x.domain = m.tim.cfg.domain then
      let m := m.wr R.TIM_PTP_PORTS_STATE x.states
      let m := x.replies.foldl (fun m (p, b) => if m.linkUp p then (m.emit (.frame p b m.tns)).macCnt p 6 else m) m
      match x.offset with
      | some o => m.handOffset { o with src := 1 }
      | none => m
    else match bound, x.vc with
      | some v, some (_, off, rate) => (m.vcSetOff v (unsignedOf off 64)).vcSetRate v (unsignedOf rate 32)
      | some _, none => m
      | none, _ => m.timCnt 7

/-- SYNC_SEND: with ROLE 1 the Steward sends Sync on a port in master state (R179). -/
def mSyncSend (p : Nat) (m : Module) : Module :=
  if m.tim.cfg.role = 1 ∧ bitOf m.tim.cfg.ptpPorts p ∧ bitsOf (m.rd R.TIM_PTP_PORTS_STATE) (2 * p) 2 = 2 ∧ m.linkUp p ∧ m.ready 0 then
    (m.emit (.ptpSync p m.tns)).macCnt p 6
  else m

/-! ### The Haulato bus (R182 to R184) -/

def Module.haulOrig (m : Module) : Bool := m.isOn R.TIM_HOLD_HAUL_ORIG

/-- HAULATO_EDGE: an edge on IN at an instant; relayed to OUT 160 ns later unless the module is the originator. -/
def mHaulatoEdge (t : Nat) (m : Module) : Module :=
  let m := m.reach t
  if m.mode = .reset ∨ m.haulOrig then m
  else { m with tim := { m.tim with edge := some t } }.emit (.edge (t + 160))

/-- A sound frame of the bus: SYNC, TYPE and CRC-16 over the bytes between. -/
def haulOk (b : Bytes) (typ : Nat) : Bool :=
  beAt b 0 1 == 0xA5 && beAt b 1 1 == typ && beAt b (b.length - 2) 2 == crc16 ((b.drop 1).take (b.length - 3))

/-- HAULATO_TIME_FRAME: a frame of Table 7.2 after its edge; relayed with HOPS + 1 and the delay added. -/
def mHaulatoTimeFrame (b : Bytes) (t : Nat) (m : Module) : Module :=
  let m := m.reach t
  if m.mode = .reset ∨ m.haulOrig then m
  else if b.length ≠ 18 ∨ !haulOk b 1 ∨ 16 ≤ beAt b 12 1 then m.timCnt 5
  else
    let sec := beAt b 2 6
    let acc := beAt b 8 4
    let dly := m.rd R.SYS_HAUL_IN_DLY_NS
    let body := (b.take 8).drop 1 ++ beBytes 4 (acc + dly + 160) ++ beBytes 1 (beAt b 12 1 + 1) ++ (b.drop 13).take 3
    let m := m.emit (.haulato 0 ([0xA5] ++ body ++ beBytes 2 (crc16 body)))
    let qual := beAt b 13 1 % 4
    match m.tim.edge with
    | none => m
    | some e =>
      let m := { m with tim := { m.tim with edge := none } }
      if 2 ≤ qual then m.loseSource 2
      else
        let theta : Int := ((e : Int) - (sec * 1000000000 + acc + dly : Nat)) * 65536
        m.handOffset ⟨2, theta, 1000000000, some (beAt b 14 2, false, false)⟩

/-- The originator's source quality (Table 7.2). -/
def Module.haulQual (m : Module) : Nat :=
  if m.isOn R.TIM_STATUS_LOCKED ∧ m.tim.selected = some 1 then 0
  else if m.isOn R.TIM_STATUS_LOCKED ∧ m.tim.selected = some 3 then 1
  else if m.isOn R.TIM_STATUS_HOLDOVER then 2 else 3

/-- HAULATO_ORIGIN_EDGE: with HAUL_ORIG 1, the edge and frame on OUT at the module's next second boundary (R183). -/
def mHaulatoOriginEdge (m : Module) : Module :=
  if m.mode = .reset ∨ !m.haulOrig then m
  else
    let s := m.tns / 1000000000 + 1
    let m := (m.reach (s * 1000000000)).emit (.edge (s * 1000000000))
    let body := beBytes 1 1 ++ beBytes 6 s ++ beBytes 4 0 ++ beBytes 1 0 ++ beBytes 1 m.haulQual ++
      beBytes 2 (m.rd R.TIM_UTC_UTC_OFFSET)
    m.emit (.haulato 0 ([0xA5] ++ body ++ beBytes 2 (crc16 body)))

def echoFrame (typ token : Nat) : Bytes :=
  let body := beBytes 1 typ ++ beBytes 2 token
  [0xA5] ++ body ++ beBytes 2 (crc16 body)

/-- ECHO_REQUEST: the module's request on IN with a token of its choice. -/
def mEchoRequest (token : Nat) (m : Module) : Module :=
  if m.mode = .reset then m
  else { m with tim := { m.tim with echo := some (token % 65536, m.tns) } }.emit (.haulato 1 (echoFrame 5 token))

/-- A failed echo: counted; after three in a row IN_LINK falls and the source is lost (R184, Table 7.3). -/
def Module.echoFail (m : Module) : Module :=
  let n := m.tim.echoFails + 1
  let m := { m with tim := { m.tim with echo := none, echoFails := n } }.timCnt 5
  if n < 3 then m else ((m.wr R.SYS_HAUL_IN_LINK 0).wr R.SYS_HAUL_IN_DLY_NS 0).loseSource 2

/-- ECHO_ANSWER: a frame on IN at an instant; taken where its token matches within [request, request + 10 µs). -/
def mEchoAnswer (b : Bytes) (t : Nat) (m : Module) : Module :=
  match m.tim.echo with
  | none => m
  | some (tok, t0) =>
    let m := m.reach t
    if b.length ≠ 6 ∨ !haulOk b 6 then m.echoFail
    else if beAt b 2 2 ≠ tok ∨ t < t0 ∨ t0 + 10000 ≤ t then m
    else
      let m := { m with tim := { m.tim with echo := none, echoFails := 0 } }
      (m.wr R.SYS_HAUL_IN_DLY_NS ((t - t0 - 2000) / 2)).flag R.SYS_HAUL_IN_LINK

/-- ECHO_TIMEOUT: no answer within 10 µs. -/
def mEchoTimeout (m : Module) : Module :=
  match m.tim.echo with
  | none => m
  | some (_, t0) => (m.reach (t0 + 10000)).echoFail

/-- ECHO_REQUEST_RECEIVE: a request on OUT is answered 2,000 ns later and sets OUT_LINK (R184). -/
def mEchoRequestReceive (b : Bytes) (t : Nat) (m : Module) : Module :=
  let m := m.reach t
  if m.mode = .reset then m
  else if b.length ≠ 6 ∨ !haulOk b 5 then m.timCnt 5
  else
    { m with tim := { m.tim with outUntil := t + 2000000000 } }.flag R.SYS_HAUL_OUT_LINK
      |>.emit (.haulato 0 (echoFrame 6 (beAt b 2 2)))

/-- OUT_LINK_EXPIRY: no request within the latest 2 s. -/
def mOutLinkExpiry (m : Module) : Module :=
  if m.isOn R.SYS_HAUL_OUT_LINK then (m.reach m.tim.outUntil).wr R.SYS_HAUL_OUT_LINK 0 else m

/-- IRIGB_FRAME (R185): the on-time edge at an instant, the frame's time in UTC seconds after the IEEE 1344 local
offset, none for a code without a year. PRESUMED, assumption 59. -/
def mIrigbFrame (utcSec : Option Nat) (t : Nat) (m : Module) : Module :=
  let m := m.reach t
  if m.mode = .reset then m
  else match utcSec with
    | none => m.timCnt 6
    | some s =>
      let m := m.flag R.SYS_HAUL_IRIGB_PRESENT
      m.handOffset ⟨3, ((t : Int) - ((s + m.rd R.TIM_UTC_UTC_OFFSET) * 1000000000 : Nat)) * 65536, 1000000000, none⟩

def execNowRead (fn : Nat) (s : State) : Host.Outcome State Fault Refusal := s.upd (mNowRead fn)
def execVcNowRead (fn v : Nat) (s : State) : Host.Outcome State Fault Refusal := s.upd (mVcNowRead fn v)
def execVcRateWrite (v rate : Nat) (s : State) : Host.Outcome State Fault Refusal := s.upd (mVcRateWrite v rate)
def execVcOffWrite (fn v hi : Nat) (s : State) : Host.Outcome State Fault Refusal := s.upd (mVcOffWrite fn v hi)
def execSourceLost (src : Nat) (s : State) : Host.Outcome State Fault Refusal := s.upd (mSourceLost src)
def execPtpMessage (x : PtpMsg) (t : Nat) (s : State) : Host.Outcome State Fault Refusal := s.upd (mPtpMessage x t)
def execSyncSend (p : Nat) (s : State) : Host.Outcome State Fault Refusal := s.upd (mSyncSend p)
def execHaulatoEdge (t : Nat) (s : State) : Host.Outcome State Fault Refusal := s.upd (mHaulatoEdge t)
def execHaulatoTimeFrame (b : Bytes) (t : Nat) (s : State) : Host.Outcome State Fault Refusal := s.upd (mHaulatoTimeFrame b t)
def execHaulatoOriginEdge (s : State) : Host.Outcome State Fault Refusal := s.upd mHaulatoOriginEdge
def execEchoRequest (token : Nat) (s : State) : Host.Outcome State Fault Refusal := s.upd (mEchoRequest token)
def execEchoAnswer (b : Bytes) (t : Nat) (s : State) : Host.Outcome State Fault Refusal := s.upd (mEchoAnswer b t)
def execEchoTimeout (s : State) : Host.Outcome State Fault Refusal := s.upd mEchoTimeout
def execEchoRequestReceive (b : Bytes) (t : Nat) (s : State) : Host.Outcome State Fault Refusal := s.upd (mEchoRequestReceive b t)
def execOutLinkExpiry (s : State) : Host.Outcome State Fault Refusal := s.upd mOutLinkExpiry
def execIrigbFrame (utcSec : Option Nat) (t : Nat) (s : State) : Host.Outcome State Fault Refusal := s.upd (mIrigbFrame utcSec t)

end Sys2Proof.Machine
end

