-- ==== Sys2Proof/Machine/Goose.lean ====
section
/-!
DEFINITION. GOOSE publications and subscriptions (R312 to R314).
-/

namespace Sys2Proof.Machine

/-! ### Publications -/

def Module.setPub (m : Module) (p : Nat) (x : PubSt) : Module := { m with pubs := m.pubs.set p x }

/-- A commit instant in UTC through TIM_UTC (R312), in ns. -/
def Module.utcOf (m : Module) (ns : Nat) : Nat := ns - m.rd R.TIM_UTC_UTC_OFFSET * 1000000000

/-- UtcTime: seconds, the binary fraction, and the quality. -/
def utcTime (ns q : Nat) : Bytes :=
  beBytes 4 (ns / 1000000000) ++ beBytes 3 (ns % 1000000000 * 2 ^ 24 / 1000000000) ++ beBytes 1 q

/-- Time quality: ClockNotSynchronized, or TimeAccuracy 23. DEDUCED, assumption 114. -/
def Module.timeQuality (m : Module) : Nat := if m.isOn R.TIM_STATUS_LOCKED then 23 else 0x20

/-- The goosePdu of IEC 61850-8-1. -/
def Module.goosePdu (m : Module) (r : PubRec) (st : PubSt) (stNum sqNum ttlMs : Nat) : Bytes :=
  berTlv 0x61 (berTlv 0x80 (unpad r.gocbRef) ++ berNat 0x81 ttlMs ++ berTlv 0x82 (unpad r.datSet) ++
    berTlv 0x83 (unpad r.goId) ++ berTlv 0x84 (utcTime st.utcNs st.quality) ++ berNat 0x85 stNum ++ berNat 0x86 sqNum ++
    berBool 0x87 (decide (m.mode = .test)) ++ berNat 0x88 r.confRev ++ berBool 0x89 false ++ berNat 0x8A r.numEnt ++
    berTlv 0xAB st.data)

/-- The frame's bytes up to its PDU. -/
def Module.gooseFrame (r : PubRec) (pdu : Bytes) : Bytes :=
  frameHead r.dst Config.stationMac r.cls r.vid 0x88B8 ++ beBytes 2 r.appid ++ beBytes 2 (8 + pdu.length) ++
    beBytes 4 0 ++ pdu

/-- A publication whose sending half holds no material is withheld (R450). -/
def Module.withhold (m : Module) (p : Nat) : Module :=
  let m := m.bump (R.KEY_CNT_CNT 4)
  let sec := m.tns / 1000000000 + 1
  if m.keys.withheld.getD p 0 = sec then m
  else ({ m with keys := { m.keys with withheld := m.keys.withheld.set p sec } }).raiseIf R.KEY_STATUS_LOG_EN 13 5 0 0xFFFF
    0xFFFF p

/-- Sends a built frame of publication p: authenticated where AUTH is set, with the claim trailer (R393, R405, R448). -/
def Module.sendPub (m : Module) (p : Nat) (r : PubRec) (frame : Bytes) : Module :=
  if !m.maySend (bitOf m.red.cfg.pubDual p) then m
  else if r.auth then
    match m.authExt r.keySlot frame with
    | none => m.withhold p
    | some (ext, m) => m.originate (padFrame (frame ++ ext ++ m.trailer)) r.cls
  else m.originate (padFrame (frame ++ m.trailer)) r.cls

/-- The number after n: 4,294,967,295 rolls over to 1 (R312). -/
def nextNum (n : Nat) : Nat := if n = 2 ^ 32 - 1 then 1 else n + 1

/-- timeAllowedtoLive: twice the interval to the next transmission. -/
def Module.sendState (m : Module) (p : Nat) (r : PubRec) (st : PubSt) : Module :=
  let pdu := m.goosePdu r st (m.rd (R.SCH_GPUB0_ST_NUM p)) (m.rd (R.SCH_GPUB1_SQ_NUM p)) (2 * st.intervalMs)
  m.sendPub p r (Module.gooseFrame r pdu)

/-- A new state of a publication at a commit instant (ns): its contents, stNum, and the repetition starts over (R312). -/
def Module.newPubState (m : Module) (p : Nat) (data : Bytes) (ns : Nat) : Module :=
  match m.cul.pubs.get? p with
  | none => m
  | some r =>
    if !r.en then m
    else
      let st : PubSt := ⟨data, m.utcOf ns, m.timeQuality, m.mono + r.minMs * 1000000 * nsUnit, r.minMs⟩
      let m := ((m.wr (R.SCH_GPUB0_ST_NUM p) (nextNum (m.rd (R.SCH_GPUB0_ST_NUM p)))).wr (R.SCH_GPUB1_SQ_NUM p) 0).wr
        (R.SCH_GPUB2_CHANGE_TS p) (ns % 2 ^ 32)
      ((m.wr (R.SCH_GPUB3_INTERVAL_MS p) r.minMs).setPub p st).sendState p r st

/-- GOOSE_REPEAT: publication p's repetition interval ends (R312). -/
def mGooseRepeat (p : Nat) (m : Module) : Module :=
  match m.cul.pubs.get? p, m.pubs.get? p with
  | some r, some st =>
    if !r.en ∨ m.lstPub p ∨ !m.ready 7 ∨ m.mode = .flush then m
    else
      let m := m.reachMono st.nextAt
      let iv := min (2 * st.intervalMs) r.maxMs
      let st := { st with intervalMs := iv, nextAt := st.nextAt + iv * 1000000 * nsUnit }
      let m := (m.wr (R.SCH_GPUB1_SQ_NUM p) (nextNum (m.rd (R.SCH_GPUB1_SQ_NUM p)))).wr (R.SCH_GPUB3_INTERVAL_MS p) iv
      (m.setPub p st).sendState p r st
  | _, _ => m

/-! ### Subscriptions -/

def Module.gsubCnt (m : Module) (j k : Nat) : Module := m.bump (R.SCH_GSUB_CNT_CNT j k)
def Module.gsubSt (m : Module) (j : Nat) : GSubSt := m.gsubs.getD j ⟨0, [], 0⟩
def Module.setGsub (m : Module) (j : Nat) (x : GSubSt) : Module := { m with gsubs := m.gsubs.set j x }

/-- A failed check of Table 12.6. -/
def Module.gooseCause (m : Module) (j cause k : Nat) : Module :=
  ((m.wr (R.SCH_GSUB0_LAST_CAUSE j) cause).flag (R.SCH_GSUB0_CAUSE_STK j)).gsubCnt j k

/-- a later than b, as 32-bit counts under R14. -/
def laterCount (a b : Nat) : Bool := decide (0 < signedOf (a + 2 ^ 32 - b % 2 ^ 32) 32)

/-- Whether a frame's key is a subscription's (check 1). -/
def Module.gooseKey (m : Module) (x : GooseFrame) (r : GSubRec) : Bool :=
  r.dst == x.dst && r.appid == x.appid &&
    (if r.vid = 0 then m.rd (R.SWC_PORT_CFG_PVID x.port) else r.vid) == x.vid

/-- Checks 2 to 6, with the counter of the first that fails. -/
def Module.gooseCheck (m : Module) (x : GooseFrame) (j : Nat) (r : GSubRec) : Option (Nat × Nat) :=
  let simOk := if m.mode = .test ∧ r.simAccept then x.sim || !m.isOn (R.SCH_GSUB0_SIM_LATCHED j) else !x.sim
  if !x.sound then some (2, 2)
  else if x.gocbRef ≠ unpad r.gocbRef ∨ x.datSet ≠ unpad r.datSet then some (3, 2)
  else if x.confRev ≠ r.confRev ∨ x.ndsCom ∨ x.numEnt ≠ r.numEnt ∨ x.allData.length ≠ r.dsLen ∨ x.ttlMs = 0 then
    some (4, 2)
  else if r.auth ∧ !m.authOk r.keySlot x.auth then some (5, 3)
  else if !simOk ∨ (x.test ∧ m.mode ≠ .test) then some (6, 4)
  else none

/-- The sequence check for a subscription that is VALID (check 8). -/
def Module.gooseSeqOk (m : Module) (x : GooseFrame) (j : Nat) : Bool :=
  let st := m.rd (R.SCH_GSUB1_ST_NUM j)
  laterCount x.stNum st || (x.stNum == st && laterCount x.sqNum (m.rd (R.SCH_GSUB2_SQ_NUM j))) ||
    (x.stNum == 1 && x.sqNum == 0)

/-- Whether a subscription is VALID now: its window is half-open (R314). -/
def Module.gsubValid (m : Module) (j : Nat) : Bool :=
  m.rd (R.SCH_GSUB0_STATE j) == 1

/-- The window of a subscription closes (R314): LOST, an operand with the close as its instant. -/
def Module.loseGsub (m : Module) (j : Nat) (r : GSubRec) (close : Nat) : Module :=
  let s := m.gsubSt j
  let s := if r.subst then
      { s with data := slice m.cul.gblob r.safeOff r.dsLen, flags := s.flags ||| 4 } else s
  let m := (((m.setGsub j s).wr (R.SCH_GSUB0_STATE j) 2).wr (R.RED_SUB_CLAIM0_C_ACC j) 0).wr (R.RED_SUB_CLAIM1_PAIR_ACC j) 0
  let m := (m.gsubCnt j 7).raiseIf R.SCH_CTRL_LOG_EN 6 4 0 0xFFFF 0xFFFF j
  m.deliver 2 j close

/-- GOOSE_TAL_EXPIRY: subscription j's time-allowed-to-live window closes. -/
def mGooseTalExpiry (j : Nat) (m : Module) : Module :=
  match m.cul.gsubs.get? j with
  | none => m
  | some r =>
    if !m.gsubValid j ∨ r.lst then m
    else
      let close := (m.gsubSt j).close
      (m.reach close).loseGsub j r close

/-- The subscriptions of a frame: those enabled whose key it carries. DEDUCED, assumption 115. -/
def Module.gooseSubs (m : Module) (x : GooseFrame) : List (Nat × GSubRec) :=
  m.cul.gsubs.filter fun (_, r) => r.en && m.gooseKey x r

/-- An accepted frame of a subscription without LST (checks 7 and 8 passed): it replaces the status block and the dataset. -/
def Module.acceptGoose (m : Module) (x : GooseFrame) (j : Nat) (r : GSubRec) (change : Bool) : Module :=
  let s : GSubSt := ⟨b2n x.test + 2 * b2n x.sim, x.allData, x.ingress + x.ttlMs * 1000000⟩
  let m := (m.setGsub j s).wr (R.SCH_GSUB0_STATE j) 1
  let m := ((m.wr (R.SCH_GSUB1_ST_NUM j) x.stNum).wr (R.SCH_GSUB2_SQ_NUM j) x.sqNum).wr (R.SCH_GSUB3_ARRIVAL j)
    (x.ingress % 2 ^ 32)
  let m := if x.sim then m.flag (R.SCH_GSUB0_SIM_LATCHED j) else m
  let m := m.gsubCnt j 0
  let m := if change then m.gsubCnt j 1 else m
  if change ∨ r.trigAll then m.deliver 2 j x.ingress else m

/-- Judges a frame for one subscription under Table 12.6. The answer says whether it was accepted: for a subscription
with LST, whether its octet string goes to the LST engine. DEDUCED, assumption 115. -/
def Module.judgeGoose (m : Module) (x : GooseFrame) (j : Nat) (r : GSubRec) : Module × Bool :=
  match m.gooseCheck x j r with
  | some (cause, k) => (m.gooseCause j cause k, false)
  | none =>
    if r.lst then
      let m := if x.sim then m.flag (R.SCH_GSUB0_SIM_LATCHED j) else m
      (m.gsubCnt j 0, true)
    else
      -- a window that has closed before the ingress makes the subscription LOST first
      let m := if m.gsubValid j ∧ (m.gsubSt j).close ≤ x.ingress then m.loseGsub j r (m.gsubSt j).close else m
      let waiting := !m.gsubValid j
      match claimRule waiting (m.rd (R.RED_SUB_CLAIM0_C_ACC j)) (m.rd (R.RED_SUB_CLAIM1_PAIR_ACC j)) x.trailer with
      | .drop => (m.gooseCause j 7 5, false)
      | v =>
        let m := match x.trailer with
          | some (c, p) => (m.wr (R.RED_SUB_CLAIM0_C_ACC j) c).wr (R.RED_SUB_CLAIM1_PAIR_ACC j) p
          | none => m
        let anew := waiting || v == .fresh
        if !anew ∧ !m.gooseSeqOk x j then (m.gooseCause j 8 6, false)
        else (m.acceptGoose x j r (anew || x.stNum != m.rd (R.SCH_GSUB1_ST_NUM j)), true)

/-- Leaving TEST clears the latches of the simulation rule (R202). -/
def Module.gooseLeaveTest (m : Module) : Module :=
  m.cul.gsubs.foldl (fun m (j, _) => m.wr (R.SCH_GSUB0_SIM_LATCHED j) 0) m

/-- A clock step closes the windows that have closed by it (R189), or all with a step of 1 s or more. -/
def Module.gooseStep (m : Module) (all : Bool) : Module :=
  m.cul.gsubs.foldl (fun m (j, r) =>
    if m.gsubValid j ∧ !r.lst ∧ (all ∨ (m.gsubSt j).close ≤ m.tns) then m.loseGsub j r m.tns else m) m

def execGooseRepeat (p : Nat) (s : State) : Host.Outcome State Fault Refusal := s.upd (mGooseRepeat p)
def execGooseTalExpiry (j : Nat) (s : State) : Host.Outcome State Fault Refusal := s.upd (mGooseTalExpiry j)

end Sys2Proof.Machine
end

