-- ==== Sys2Proof/Machine/Lst.lean ====
section
/-!
DEFINITION. Linoa Safe Transport (R412 to R428): building and repeating frames, judging received ones, the watchdog,
the states of a connection, its commands.
-/

namespace Sys2Proof.Machine

/-! ### Access -/

def Module.setConn (m : Module) (c : Nat) (x : Conn) : Module := { m with lst := { m.lst with conns := m.lst.conns.set c x } }
def Module.connCnt (m : Module) (c k : Nat) : Module := m.bump (R.LST_CONN_CNT_CNT c k)
def Module.isSend (m : Module) (c : Nat) : Bool := m.isOn (R.LST_CONN0_DIR c)
def Module.isGooseCarried (m : Module) (c : Nat) : Bool := m.isOn (R.LST_CONN0_CARRIAGE c)
def Module.connId (m : Module) (c : Nat) : Nat := m.rd64 (R.LST_CONN1_ID_LO c) (R.LST_CONN2_ID_HI c)
def Module.connState (m : Module) (c : Nat) : Nat := m.rd (R.LST_CONN8_STATE c)
def Module.lstDlen (m : Module) (c : Nat) : Nat := m.rd (R.LST_CONN0_DLEN c)

/-- RIND (R413). -/
def rind (b : Bytes) : Nat := crcFinish 32 false 0xFFFFFFFF (b.foldl (crcByte 32 0xF4ACFB13 false) 0xFFFFFFFF)

/-! ### Sending (R415 to R419) -/

/-- A PDU of Table 17.1. -/
def lstPdu (flags id seq ts : Nat) (data : Bytes) : Bytes :=
  let b := [1] ++ beBytes 1 flags ++ beBytes 2 data.length ++ beBytes 8 id ++ beBytes 4 seq ++ beBytes 4 ts ++ data
  b ++ beBytes 4 (rind b)

/-- Sends a PDU of a connection by its carriage; `anew` starts a new GOOSE state (R414, R419). -/
def Module.sendLst (m : Module) (c : Nat) (x : Conn) (pdu : Bytes) (anew : Bool) : Module :=
  let may := m.maySend (bitOf m.red.cfg.lstDual c)
  if m.isGooseCarried c then
    match m.cul.pubs.get? x.pub with
    | none => m
    | some r =>
      let p := x.pub
      let m := if anew then
          (m.wr (R.SCH_GPUB0_ST_NUM p) (nextNum (m.rd (R.SCH_GPUB0_ST_NUM p)))).wr (R.SCH_GPUB1_SQ_NUM p) 0 |>.wr
            (R.SCH_GPUB2_CHANGE_TS p) m.ts32
        else m.wr (R.SCH_GPUB1_SQ_NUM p) (nextNum (m.rd (R.SCH_GPUB1_SQ_NUM p)))
      let us := m.rd (R.LST_CONN7_REFRESH_US c)
      let old := m.pubs.getD p ⟨[], 0, 0, 0, 0⟩
      let st : PubSt := { old with
        data := berTlv 0x89 pdu
        utcNs := if anew then m.utcOf m.tns else old.utcNs
        quality := if anew then m.timeQuality else old.quality }
      let m := m.setPub p st
      let frame := Module.gooseFrame r (m.goosePdu r st (m.rd (R.SCH_GPUB0_ST_NUM p)) (m.rd (R.SCH_GPUB1_SQ_NUM p))
        (ceilDiv (2 * us) 1000))
      if !may then m
      else if r.auth then
        match m.authExt r.keySlot frame with
        | none => m.withhold p
        | some (ext, m) => m.originate (padFrame (frame ++ ext ++ m.trailer)) r.cls
      else m.originate (padFrame (frame ++ m.trailer)) r.cls
  else
    let cls := m.rd (R.LST_CONN0_CLASS c)
    if may then m.originate (padFrame (frameHead x.dst m.lst.srcMac cls x.vid 0x88B5 ++ pdu ++ m.trailer)) cls else m

/-- Builds a frame of a send connection from its task's output image as committed (R415 to R417). -/
def Module.buildLst (m : Module) (c : Nat) (refresh : Bool) : Module :=
  match m.lst.conns.get? c with
  | none => m
  | some x =>
    if !x.en ∨ !m.isSend c ∨ !m.ready 11 ∨ m.mode = .flush then m
    else
      let seq := match x.seq with
        | some s => (s + 1) % 2 ^ 32
        | none => 0
      let data := memBytes (m.outImg.getD x.task []) x.dataOff (m.lstDlen c)
      let flags := b2n (decide (m.mode = .test)) + 2 * b2n x.safe + 4 * b2n refresh
      let x := { x with seq := some seq, built := true, lastBuild := m.tns }
      let m := (m.setConn c x).connCnt c 0
      let m := if refresh then m.connCnt c 1 else m
      let m := (m.wr (R.LST_CONN9_SEQ c) seq).wr (R.LST_CONN10_ARRIVAL c) m.ts32
      m.sendLst c x (lstPdu flags (m.connId c) seq m.ts32 data) (!refresh)

/-- LST_REFRESH: connection c's refresh window closes and a repetition is built (R417). -/
def mLstRefresh (c : Nat) (m : Module) : Module :=
  match m.lst.conns.get? c with
  | none => m
  | some x =>
    if !x.built ∨ !x.en ∨ !m.isSend c ∨ !m.ready 11 ∨ m.mode = .flush then m
    else (m.reach (x.lastBuild + m.rd (R.LST_CONN7_REFRESH_US c) * 1000)).buildLst c true

/-! ### Receiving (R420 to R428) -/

/-- The fail-safe contents of a connection. -/
def Module.lstSafe (m : Module) (c : Nat) (x : Conn) : Bytes :=
  match x.safeOff with
  | none => List.replicate (m.lstDlen c) 0
  | some o => slice m.lst.blob o (m.lstDlen c)

/-- The data shown: the latest accepted frame's in VALID, the fail-safe contents otherwise (R425). -/
def Module.lstShown (m : Module) (c : Nat) : Bytes :=
  match m.lst.conns.get? c with
  | none => []
  | some x => if m.connState c = 1 then x.data else m.lstSafe c x

/-- The status block of Table 17.4 followed by the data shown (R427). -/
def Module.lstBlock (m : Module) (c : Nat) : Bytes :=
  match m.lst.conns.get? c with
  | none => []
  | some x =>
    leBytes 1 (m.connState c) ++
    leBytes 1 (x.flags % 4 + 4 * b2n (m.connState c != 1) + 8 * m.rd (R.LST_CONN8_RECOVERING c)) ++
    leBytes 1 (m.rd (R.LST_CONN8_REACTION c)) ++ [0] ++ leBytes 4 (m.rd (R.LST_CONN9_SEQ c)) ++ leBytes 4 x.sendTs ++
    leBytes 4 (x.arrival % 2 ^ 32) ++ m.lstShown c

/-- Sets STATE; a change is an update with an instant (R426). -/
def Module.toConnState (m : Module) (c s instant : Nat) : Module :=
  if m.connState c = s then m else (m.wr (R.LST_CONN8_STATE c) s).deliver 3 c instant

def Module.clearLstClaim (m : Module) (c : Nat) : Module :=
  (m.wr (R.RED_LST_CLAIM0_C_ACC c) 0).wr (R.RED_LST_CLAIM1_PAIR_ACC c) 0

/-- Entry to WAIT: ENABLE, or LST readiness. -/
def Module.connWait (m : Module) (c : Nat) (x : Conn) : Module :=
  let x := { x with seq := none, wdogFrom := m.tns, wdogNs := m.rd (R.LST_CONN4_WDOG_US c) * 1000, ack := false }
  (((m.setConn c x).clearLstClaim c).wr (R.LST_CONN8_RECOVER_CNT c) 0).wr (R.LST_CONN8_RECOVERING c) 0 |>.toConnState c 0 m.tns

/-- A violation with its code; the operand's instant, and the start of the next watchdog window (R424 to R426). -/
def Module.violate (m : Module) (c : Nat) (x : Conn) (code instant from_ : Nat) : Module :=
  let m := ((m.bump (R.LST_CNT_CNT code)).connCnt c 4).flag (R.LST_CONN8_VIOL_STK c)
  let m := ((m.wr (R.LST_CONN8_REACTION c) code).wr (R.LST_CONN8_RECOVER_CNT c) 0).wr (R.LST_CONN8_RECOVERING c) 0
  if m.connState c = 2 then
    if code = 9 then
      m.setConn c { x with wdogFrom := from_, wdogNs := m.rd (R.LST_CONN4_WDOG_US c) * 1000 }
    else m
  else
    let x := { x with seq := none, ack := false, wdogFrom := from_, wdogNs := m.rd (R.LST_CONN4_WDOG_US c) * 1000 }
    ((m.setConn c x).connCnt c 5).toConnState c 2 instant |>.raiseIf R.LST_CTRL_LOG_EN 12 1 code 0xFFFF 0xFFFF c

/-- The watchdog window of a receive connection closes: violation 9 at the close. -/
def Module.lstWdog (m : Module) (c : Nat) (x : Conn) : Module :=
  let close := x.wdogFrom + x.wdogNs
  m.violate c x 9 close close

/-- LST_WATCHDOG: receive connection c's window closes (R424). -/
def mLstWatchdog (c : Nat) (m : Module) : Module :=
  match m.lst.conns.get? c with
  | none => m
  | some x =>
    if m.isSend c ∨ m.connState c = 3 ∨ !m.ready 11 then m
    else (m.reach (x.wdogFrom + x.wdogNs)).lstWdog c x

/-- A drop of Table 17.2. -/
def Module.lstDrop (m : Module) (c code : Nat) : Module := (m.bump (R.LST_CNT_CNT code)).connCnt c 2

/-- An accepted frame: its contents, the window, and what it does to the state (R425, R426). -/
def Module.lstAccept (m : Module) (c : Nat) (x : Conn) (flags seq ts ingress : Nat) (data : Bytes) : Module :=
  let m := (m.bump (R.LST_CNT_CNT 0)).connCnt c 0
  let changed := data != x.data
  let st := m.connState c
  let cnt := m.rd (R.LST_CONN8_RECOVER_CNT c)
  let n := m.rd (R.LST_CONN5_RECOVER_N c)
  let restore := m.isOn (R.LST_CONN0_RESTORE c)
  let up := st == 2 && (if restore then x.ack && decide (n ≤ cnt) else decide (n ≤ cnt + 1))
  let x := { x with data := data, flags := flags, seq := some seq, sendTs := ts, arrival := ingress, wdogFrom := ingress
                    wdogNs := m.rd (R.LST_CONN4_WDOG_US c) * 1000, ack := x.ack && !up }
  let m := ((((m.setConn c x).wr (R.LST_CONN9_SEQ c) seq).wr (R.LST_CONN10_ARRIVAL c) (ingress % 2 ^ 32)).wr
    (R.LST_CONN8_SENDER_SAFE c) (bitsOf flags 1 1))
  let trigAll := m.isOn (R.LST_CONN0_TRIG_ALL c)
  if st = 0 then m.toConnState c 1 ingress
  else if up then
    let m := ((m.wr (R.LST_CONN8_RECOVERING c) 0).wr (R.LST_CONN8_RECOVER_CNT c) 0).connCnt c 6
    (m.toConnState c 1 ingress).raiseIf R.LST_CTRL_LOG_EN 12 2 0 0xFFFF 0xFFFF c
  else
    let m := if st = 2 then
        let k := min 255 (cnt + 1)
        let m := m.wr (R.LST_CONN8_RECOVER_CNT c) k
        if restore ∧ n ≤ k then m.flag (R.LST_CONN8_RECOVERING c) else m
      else m
    if trigAll ∨ (st = 1 ∧ changed) then m.deliver 3 c ingress else m

/-- Judges a PDU for a receive connection under Table 17.2; answers whether it was accepted. -/
def Module.judgeLst (m : Module) (c : Nat) (pdu : Bytes) (trailer : Option (Nat × Nat)) (ingress : Nat) : Module × Bool :=
  match m.lst.conns.get? c with
  | none => (m, false)
  | some x0 =>
    if m.isSend c ∨ m.connState c = 3 ∨ !m.ready 11 ∨ m.gone 7 c then (m, false)
    else
      -- a window that closed before the ingress takes its violation first (R428)
      let m := if x0.wdogFrom + x0.wdogNs ≤ ingress then m.lstWdog c x0 else m
      let x := m.lst.conns.getD c x0
      match claimRule (m.connState c == 0) (m.rd (R.RED_LST_CLAIM0_C_ACC c)) (m.rd (R.RED_LST_CLAIM1_PAIR_ACC c)) trailer with
      | .drop => (m.lstDrop c 1, false)
      | v =>
        let dlen := beAt pdu 2 2
        let flags := beAt pdu 1 1
        let seq := beAt pdu 12 4
        let ts := beAt pdu 16 4
        let age := tsDiff (ingress % 2 ^ 32) ts
        let bad (code : Nat) : Module × Bool := (m.violate c x code ingress m.tns, false)
        if pdu.length < 24 + dlen ∨ beAt pdu 0 1 ≠ 1 ∨ dlen ≠ m.lstDlen c ∨ 8 ≤ flags then bad 2
        else if rind (pdu.take (20 + dlen)) ≠ beAt pdu (20 + dlen) 4 then bad 3
        else if m.isGooseCarried c ∧ beAt pdu 4 8 ≠ m.connId c then bad 4
        else if bitOf flags 0 ∧ m.mode ≠ .test then (m.lstDrop c 5, false)
        else if age < -(m.rd (R.LST_CONN6_AGE_LEAD_NS c) : Int) ∨
            ((m.rd (R.LST_CONN3_MAX_AGE_US c) * 1000 : Nat) : Int) ≤ age then bad 6
        else
          let d := match x.seq with
            | some s => if v = .fresh then 1 else (seq + 2 ^ 32 - s) % 2 ^ 32
            | none => 1
          if d = 0 ∨ 2 ^ 31 ≤ d then (m.lstDrop c 7, false)
          else if m.rd (R.LST_CONN5_SEQ_WIN c) < d then bad 8
          else
            let m := m.bumpBy (R.LST_CONN_CNT_CNT c 3) (d - 1)
            let m := match trailer with
              | some (k, p) => (m.wr (R.RED_LST_CLAIM0_C_ACC c) k).wr (R.RED_LST_CLAIM1_PAIR_ACC c) p
              | none => m
            (m.lstAccept c x flags seq ts ingress ((pdu.drop 20).take dlen), true)

/-- The claim trailer at an offset of a frame's payload, if it stands there (R393). -/
def trailerAt (b : Bytes) (off : Nat) : Option (Nat × Nat) :=
  if off + 8 ≤ b.length ∧ beAt b (off + 6) 2 = 0x5A43 then some (beAt b off 4, beAt b (off + 4) 2) else none

/-- The raw receive connections whose destination and VID a frame carries (R420). -/
def Module.lstMatches (m : Module) (dst vid : Nat) : List Nat :=
  (m.lst.conns.filter fun (c, x) => !m.isSend c && !m.isGooseCarried c && m.connState c != 3 && x.dst == dst &&
    x.vid == vid).map (·.1)

/-- A raw LST frame without a connection of its identity: counted; event 3 once per second (R420). -/
def Module.lstNoMatch (m : Module) (id : Nat) : Module :=
  let m := m.bump R.LST_NOMATCH_CNT_CNT
  let sec := m.tns / 1000000000
  if m.lst.noMatchAt = some sec then m
  else ({ m with lst := { m.lst with noMatchAt := some sec } }).raiseIf R.LST_CTRL_LOG_EN 12 3 0 0xFFFF 0xFFFF id

/-- The payload of a raw LST frame. -/
def lstPayload (b : Bytes) : Bytes := (ethRest b).drop 2

/-- A raw LST frame at EP: answers the connection that accepted it. -/
def Module.rawLst (m : Module) (b : Bytes) (port ingress : Nat) : Module × Option Nat :=
  let e := ethOf b
  let pay := lstPayload b
  let l := m.lstMatches e.dst (m.vidPcp port e).1
  match l.find? fun c => m.connId c == beAt pay 4 8 with
  | some c =>
    let n := 24 + beAt pay 2 2
    let (m, ok) := m.judgeLst c (pay.take n) (trailerAt pay n) ingress
    (m, if ok then some c else none)
  | none => (if l = [] then m else m.lstNoMatch (beAt pay 4 8), none)

/-! ### Readiness, steps, commands -/

/-- LST sets its readiness bit: receive connections that are enabled enter WAIT, send connections run. -/
def Module.lstReady (m : Module) : Module :=
  m.lst.conns.foldl (fun m (c, x) =>
    if !x.en then m else if m.isSend c then m.wr (R.LST_CONN8_STATE c) 1 else m.connWait c x) m

/-- A clock step ends the watchdog windows that have closed by it, or all with a step of 1 s or more (R189). -/
def Module.lstStep (m : Module) (all : Bool) : Module :=
  m.lst.conns.foldl (fun m (c, x) =>
    if m.isSend c ∨ m.connState c = 3 ∨ !m.ready 11 then m
    else if all then m.violate c x 9 m.tns m.tns
    else if x.wdogFrom + x.wdogNs ≤ m.tns then m.lstWdog c x else m) m

def Module.connResult (m : Module) (r : Nat) : Module :=
  (m.wr R.LST_CONN_CMD_STAT_RESULT r).flag R.LST_CONN_CMD_STAT_DONE_FLG

/-- A command for a receive connection that exists; any other is refused. -/
def Module.connCmd (m : Module) (c : Nat) (f : Conn → Module) : Module :=
  if m.mode = .reset then m
  else match m.lst.conns.get? c with
    | none => m.connResult 3
    | some x => if m.isSend c ∨ !m.ready 11 then m.connResult 3 else f x

/-- CONN_ENABLE (R425). -/
def mConnEnable (c : Nat) (m : Module) : Module :=
  m.connCmd c fun x => if m.connState c = 3 then (m.connWait c x).connResult 1 else m.connResult 3

/-- CONN_DISABLE (R425). -/
def mConnDisable (c : Nat) (m : Module) : Module :=
  m.connCmd c fun x => if m.connState c = 3 then m.connResult 3
    else ((m.setConn c { x with ack := false }).toConnState c 3 m.tns).connResult 1

/-- ACK (R425): permits recovery, or is latched until RECOVER_CNT has reached RECOVER_N. -/
def mAck (c : Nat) (m : Module) : Module :=
  m.connCmd c fun x =>
    if m.connState c ≠ 2 ∨ !m.isOn (R.LST_CONN0_RESTORE c) then m.connResult 3
    else (m.setConn c { x with ack := true }).connResult
      (if m.rd (R.LST_CONN8_RECOVER_CNT c) < m.rd (R.LST_CONN5_RECOVER_N c) then 2 else 1)

def execLstRefresh (c : Nat) (s : State) : Host.Outcome State Fault Refusal := s.upd (mLstRefresh c)
def execLstWatchdog (c : Nat) (s : State) : Host.Outcome State Fault Refusal := s.upd (mLstWatchdog c)
def execConnEnable (c : Nat) (s : State) : Host.Outcome State Fault Refusal := s.upd (mConnEnable c)
def execConnDisable (c : Nat) (s : State) : Host.Outcome State Fault Refusal := s.upd (mConnDisable c)
def execAck (c : Nat) (s : State) : Host.Outcome State Fault Refusal := s.upd (mAck c)

end Sys2Proof.Machine
end

