-- ==== Sys2Proof/Machine/Float32.lean ====
section
/-!
DEFINITION. The binary32 arithmetic of the Block Engines and the filter lanes (R244, R271 to R273): exact integer
arithmetic, one rounding to nearest with ties to even, subnormal operands and results, tininess after rounding.
-/

namespace Sys2Proof.Machine

/-- A result and the flags it sets: bit 0 invalid, 1 divide by zero, 2 overflow, 3 underflow, 4 inexact (Table 10.2). -/
structure FRes where
  bits : Word
  flags : BitVec 5
  deriving DecidableEq, Repr

/-- What a binary32 pattern stands for: a NaN (signalling or quiet), an infinity, or the number ± m × 2^e. -/
inductive FVal where
  | nan (signalling : Bool)
  | inf (neg : Bool)
  | fin (neg : Bool) (m : Nat) (e : Int)
  deriving DecidableEq, Repr

def flagInvalid : BitVec 5 := 1
def flagDivZero : BitVec 5 := 2
def flagOverflow : BitVec 5 := 4
def flagUnderflow : BitVec 5 := 8
def flagInexact : BitVec 5 := 16

/-- The one NaN that operations yield (R244). -/
def f32NaN : Word := 0x7FC00000

def f32Sign (neg : Bool) : Word := if neg then 0x80000000 else 0
def f32Inf (neg : Bool) : Word := f32Sign neg ||| 0x7F800000

def f32Decode (x : Word) : FVal :=
  let neg := x.getLsbD 31
  let ex : Nat := (x.toNat / 2 ^ 23) % 256
  let mant : Nat := x.toNat % 2 ^ 23
  if ex = 255 then (if mant = 0 then .inf neg else .nan (decide (mant < 2 ^ 22)))
  else if ex = 0 then .fin neg mant (-149)
  else .fin neg (mant + 2 ^ 23) ((ex : Int) - 150)

/-- A natural divided by 2^k, rounded to nearest, ties to even; `sticky` says that the true value lies strictly
above the natural by less than one of its units. The second component says the division was inexact. -/
def roundShift (m : Nat) (k : Nat) (sticky : Bool) : Nat × Bool :=
  let q := m / 2 ^ k
  let r := m % 2 ^ k
  let half := 2 ^ (k - 1)
  if k = 0 then (q, sticky)
  else
    let up := if r > half then true else if r < half then false else sticky || q % 2 == 1
    (if up then q + 1 else q, r != 0 || sticky)

/-- The magnitude m × 2^e (plus less than one unit of m where `sticky`) rounded to binary32 (R244). With `sticky`
the caller gives m at least 27 bits. PRESUMED, assumption 29. -/
def f32Round (neg : Bool) (m : Nat) (e : Int) (sticky : Bool) : FRes :=
  if m = 0 then ⟨f32Sign neg, 0⟩
  else
    let len : Int := (m.log2 + 1 : Nat)
    let q0 := e + len - 24
    let q := if q0 < -149 then -149 else q0
    let sh := q - e
    let (n, inexact) := if sh ≤ 0 then (m * 2 ^ (-sh).toNat, sticky) else roundShift m sh.toNat sticky
    let (n0, _) := if q0 - e ≤ 0 then (m * 2 ^ (e - q0).toNat, sticky) else roundShift m (q0 - e).toNat sticky
    let tiny := decide (e + len ≤ -126) && !(decide (n0 = 2 ^ 24) && decide (q0 + 24 = -126))
    let pat := (q + 149).toNat * 2 ^ 23 + n
    if pat ≥ 0x7F800000 then ⟨f32Inf neg, flagOverflow ||| flagInexact⟩
    else ⟨f32Sign neg ||| BitVec.ofNat 32 pat,
      (if inexact then flagInexact else 0) ||| (if inexact && tiny then flagUnderflow else 0)⟩

/-- The integer x × 2^e rounded; an exact zero takes the sign given. -/
def f32RoundInt (x : Int) (e : Int) (zeroNeg : Bool) : FRes :=
  if x = 0 then ⟨f32Sign zeroNeg, 0⟩ else f32Round (decide (x < 0)) x.natAbs e false

def f32IsNaN : FVal → Bool
  | .nan _ => true
  | _ => false

def f32IsSNaN : FVal → Bool
  | .nan s => s
  | _ => false

/-- The NaN result of an operation on a NaN operand: a signalling operand sets invalid. -/
def f32NaNRes (snan : Bool) : FRes := ⟨f32NaN, if snan then flagInvalid else 0⟩

def signedMag (neg : Bool) (m : Nat) : Int := if neg then -(m : Int) else (m : Int)

/-- The exact sum of two numbers, rounded; an exact zero is -0 only where both are -0. -/
def f32SumFin (na : Bool) (ma : Nat) (ea : Int) (nb : Bool) (mb : Nat) (eb : Int) : FRes :=
  let e := if ea ≤ eb then ea else eb
  let x := signedMag na (ma * 2 ^ (ea - e).toNat) + signedMag nb (mb * 2 ^ (eb - e).toNat)
  f32RoundInt x e (na && nb)

/-- PRESUMED, assumption 29. -/
def f32Add (x y : Word) : FRes :=
  match f32Decode x, f32Decode y with
  | .nan s, b => f32NaNRes (s || f32IsSNaN b)
  | _, .nan s => f32NaNRes s
  | .inf n, .inf n' => if n = n' then ⟨f32Inf n, 0⟩ else f32NaNRes true
  | .inf n, .fin _ _ _ => ⟨f32Inf n, 0⟩
  | .fin _ _ _, .inf n => ⟨f32Inf n, 0⟩
  | .fin na ma ea, .fin nb mb eb => f32SumFin na ma ea nb mb eb

/-- The pattern with its sign changed; no flag. -/
def f32Flip (x : Word) : Word := x ^^^ 0x80000000

def f32Sub (x y : Word) : FRes := f32Add x (f32Flip y)

/-- PRESUMED, assumption 29. -/
def f32Mul (x y : Word) : FRes :=
  match f32Decode x, f32Decode y with
  | .nan s, b => f32NaNRes (s || f32IsSNaN b)
  | _, .nan s => f32NaNRes s
  | .inf n, .inf n' => ⟨f32Inf (n ^^ n'), 0⟩
  | .inf n, .fin n' m _ => if m = 0 then f32NaNRes true else ⟨f32Inf (n ^^ n'), 0⟩
  | .fin n m _, .inf n' => if m = 0 then f32NaNRes true else ⟨f32Inf (n ^^ n'), 0⟩
  | .fin na ma ea, .fin nb mb eb => f32RoundInt (signedMag (na ^^ nb) (ma * mb)) (ea + eb) (na ^^ nb)

/-- x × y + z rounded once. Whether 0 × ∞ with a quiet NaN addend sets invalid is left to the implementation by
IEEE 754-2019: the value is `Config.fmaQuietInvalid`. DESIGN CHOICE, assumption 14; PRESUMED, assumption 29. -/
def f32Fma (x y z : Word) : FRes :=
  let a := f32Decode x
  let b := f32Decode y
  let c := f32Decode z
  let zeroInf := match a, b with
    | .inf _, .fin _ m _ => decide (m = 0)
    | .fin _ m _, .inf _ => decide (m = 0)
    | _, _ => false
  if f32IsNaN a || f32IsNaN b then f32NaNRes (f32IsSNaN a || f32IsSNaN b || f32IsSNaN c)
  else match a, b, c with
    | _, _, .nan s => f32NaNRes (s || (zeroInf && Config.fmaQuietInvalid))
    | .fin na ma ea, .fin nb mb eb, .fin nc mc ec => f32SumFin (na ^^ nb) (ma * mb) (ea + eb) nc mc ec
    | .fin _ _ _, .fin _ _ _, .inf n => ⟨f32Inf n, 0⟩
    | _, _, _ =>
      let n := x.getLsbD 31 ^^ y.getLsbD 31
      if zeroInf then f32NaNRes true
      else match c with
        | .inf nc => if nc = n then ⟨f32Inf n, 0⟩ else f32NaNRes true
        | _ => ⟨f32Inf n, 0⟩

/-- PRESUMED, assumption 29. -/
def f32Div (x y : Word) : FRes :=
  let n := x.getLsbD 31 ^^ y.getLsbD 31
  match f32Decode x, f32Decode y with
  | .nan s, b => f32NaNRes (s || f32IsSNaN b)
  | _, .nan s => f32NaNRes s
  | .inf _, .inf _ => f32NaNRes true
  | .inf _, .fin _ _ _ => ⟨f32Inf n, 0⟩
  | .fin _ _ _, .inf _ => ⟨f32Sign n, 0⟩
  | .fin _ ma ea, .fin _ mb eb =>
    if mb = 0 then (if ma = 0 then f32NaNRes true else ⟨f32Inf n, flagDivZero⟩)
    else
      let num := ma * 2 ^ 64
      f32Round n (num / mb) (ea - eb - 64) (num % mb != 0)

/-- The square root of m × 2^e, exactly rounded. -/
def f32SqrtMag (m : Nat) (e : Int) : FRes :=
  let k : Int := if e % 2 = 0 then 128 else 129
  let big := m * 2 ^ k.toNat
  let r := isqrt big
  f32Round false r ((e - k) / 2) (r * r != big)

/-- PRESUMED, assumption 29. -/
def f32Sqrt (x : Word) : FRes :=
  match f32Decode x with
  | .nan s => f32NaNRes s
  | .inf n => if n then f32NaNRes true else ⟨f32Inf false, 0⟩
  | .fin n m e => if m = 0 then ⟨x, 0⟩ else if n then f32NaNRes true else f32SqrtMag m e

/-- The order of numbers and infinities as integers on one scale; -0 and +0 are equal here. -/
def f32Scale : FVal → Int
  | .nan _ => 0
  | .inf n => if n then -(2 ^ 300 : Nat) else ((2 ^ 300 : Nat) : Int)
  | .fin n m e => signedMag n (m * 2 ^ (e + 149).toNat)

/-- minimumNumber (`big = false`) and maximumNumber of IEEE 754-2019; -0 is below +0. PRESUMED, assumption 29. -/
def f32MinMax (big : Bool) (x y : Word) : FRes :=
  let a := f32Decode x
  let b := f32Decode y
  let fl : BitVec 5 := if f32IsSNaN a || f32IsSNaN b then flagInvalid else 0
  if f32IsNaN a && f32IsNaN b then ⟨f32NaN, fl⟩
  else if f32IsNaN a then ⟨y, fl⟩
  else if f32IsNaN b then ⟨x, fl⟩
  else
    let ka := 2 * f32Scale a + (if x.getLsbD 31 then 0 else 1)
    let kb := 2 * f32Scale b + (if y.getLsbD 31 then 0 else 1)
    ⟨if big then (if ka ≥ kb then x else y) else (if ka ≤ kb then x else y), 0⟩

/-- FSGN (Table 11.3): SZ 0 the opposite, 1 the magnitude, 2 the sign of the third operand. A NaN result is the one
NaN of R244. -/
def f32Sgn (sz : BitVec 2) (b c : Word) : FRes :=
  let r : Word :=
    if sz = 0 then f32Flip b
    else if sz = 1 then b &&& 0x7FFFFFFF
    else (b &&& 0x7FFFFFFF) ||| (c &&& 0x80000000)
  ⟨if f32IsNaN (f32Decode r) then f32NaN else r, 0⟩

/-- FCMP (R271): 0 EQ, 1 NE, 2 LT, 3 LE, 4 UN, and the flag each comparison sets. -/
def f32Cmp (cond : Nat) (x y : Word) : Bool × BitVec 5 :=
  let a := f32Decode x
  let b := f32Decode y
  let un := f32IsNaN a || f32IsNaN b
  let fl : BitVec 5 :=
    if f32IsSNaN a || f32IsSNaN b || (un && (cond == 2 || cond == 3)) then flagInvalid else 0
  let ka := f32Scale a
  let kb := f32Scale b
  let r :=
    if cond = 0 then !un && ka == kb
    else if cond = 1 then un || ka != kb
    else if cond = 2 then !un && decide (ka < kb)
    else if cond = 3 then !un && decide (ka ≤ kb)
    else un
  (r, fl)

/-- ITOF: a signed 64-bit integer to binary32. -/
def f32OfInt (x : BitVec 64) : FRes := f32RoundInt x.toInt 0 false

/-- FTOI (R271): towards zero; a value beyond the range saturates, a NaN gives 0, both set invalid. -/
def f32ToInt (x : Word) : BitVec 64 × BitVec 5 :=
  let sat (n : Bool) : BitVec 64 := if n then 0x8000000000000000 else 0x7FFFFFFFFFFFFFFF
  match f32Decode x with
  | .nan _ => (0, flagInvalid)
  | .inf n => (sat n, flagInvalid)
  | .fin n m e =>
    let mag := if e ≥ 0 then m * 2 ^ e.toNat else m / 2 ^ (-e).toNat
    let v := signedMag n mag
    if v > (2 ^ 63 - 1 : Nat) ∨ v < -((2 ^ 63 : Nat) : Int) then (sat n, flagInvalid)
    else (BitVec.ofInt 64 v, 0)

/-! ### Phasors (R273): values as fixed-point numbers of 760 fraction bits. -/

/-- π × 2^760, rounded down. -/
def piFix : Nat := 0x3243f6a8885a308d313198a2e03707344a4093822299f31d0082efa98ec4e6c89452821e638d01377be5466cf34e90c6cc0ac29b7c97c50dd3f84d5b5b54709179216d5d98979fb1bd1310ba698dfb5ac2ffd72dbd01adfb7b8e1afed6a267e

def fixOne : Nat := 2 ^ 760

/-- The terms x^k / k! of the sine and cosine series, k from `k`, in fixed point. Adds the even ones to the cosine
sum and the odd ones to the sine sum with alternating signs. -/
def sinCosLoop : Nat → Nat → Nat → Nat → Int → Int → Int × Int
  | 0, _, _, _, s, c => (s, c)
  | n + 1, k, x, t, s, c =>
    let sg : Int := if (k / 2) % 2 = 0 then 1 else -1
    let s' := if k % 2 = 1 then s + sg * t else s
    let c' := if k % 2 = 0 then c + sg * t else c
    sinCosLoop n (k + 1) x (t * x / fixOne / (k + 1)) s' c'

/-- The sine and the cosine of 2π × f / 2^k, for 0 ≤ f / 2^k ≤ 1/8, in fixed point. DEDUCED, assumption 30. -/
def sinCosFix (f k : Nat) : Int × Int :=
  sinCosLoop 180 0 (2 * piFix * f / 2 ^ k) fixOne 0 0

/-- An irrational value given in fixed point, rounded to binary32. -/
def f32OfFix (x : Int) : FRes := f32Round (decide (x < 0)) x.natAbs (-760) true

/-- One component of CEXP: the multiple j of a quarter turn and the fixed-point sine and cosine of the rest. -/
def cexpPair (j : Nat) (zero : Bool) (s c : Int) : FRes × FRes :=
  let one : FRes := ⟨0x3F800000, 0⟩
  let none' : FRes := ⟨0, 0⟩
  let mone : FRes := ⟨0xBF800000, 0⟩
  if zero then
    if j = 0 then (one, none') else if j = 1 then (none', one) else if j = 2 then (mone, none') else (none', mone)
  else
    if j = 0 then (f32OfFix c, f32OfFix s)
    else if j = 1 then (f32OfFix (-s), f32OfFix c)
    else if j = 2 then (f32OfFix (-c), f32OfFix (-s))
    else (f32OfFix s, f32OfFix (-c))

/-- CEXP of one pair (R273): (cos 2πθ, sin 2πθ), each component correctly rounded. DEDUCED, assumption 30. -/
def f32Cexp (th : Word) : FRes × FRes :=
  match f32Decode th with
  | .nan _ => (f32NaNRes true, f32NaNRes true)
  | .inf _ => (f32NaNRes true, f32NaNRes true)
  | .fin neg m e =>
    let k := if e < 0 then (-e).toNat + 3 else 3
    let num := if e < 0 then m * 8 else m * 2 ^ e.toNat * 8
    let full := 2 ^ k
    let f0 := num % full
    let f := if neg then (full - f0) % full else f0
    let quarter := 2 ^ (k - 2)
    let eighth := 2 ^ (k - 3)
    let j := f / quarter
    let r := f % quarter
    if r = 0 then cexpPair j true 0 0
    else if r ≤ eighth then let (s, c) := sinCosFix r k; cexpPair j false s c
    else let (s, c) := sinCosFix (quarter - r) k; cexpPair ((j + 1) % 4) false (-s) c

/-- The arctangent series Σ (-1)^k t^(2k+1) / (2k+1) in fixed point. -/
def atanLoop : Nat → Nat → Nat → Nat → Int → Int
  | 0, _, _, _, a => a
  | n + 1, k, t2, p, a =>
    atanLoop n (k + 1) t2 (p * t2 / fixOne) (if k % 2 = 0 then a + (p / (2 * k + 1) : Nat) else a - (p / (2 * k + 1) : Nat))

/-- Halves the angle of a tangent, in fixed point. -/
def atanHalf (t : Nat) : Nat := t * fixOne / (fixOne + isqrt (fixOne * fixOne + t * t))

/-- The angle in turns, in fixed point, of the direction with tangent p / q, 0 < p ≤ q. DEDUCED, assumption 30. -/
def turnsFix (p q : Nat) : Nat :=
  let t := atanHalf (atanHalf (atanHalf (p * fixOne / q)))
  let a := 8 * atanLoop 150 0 (t * t / fixOne) t 0
  a.toNat * fixOne / (2 * piFix)

/-- The angle of CPOL for finite components that are not both zero (R273). -/
def f32Turns (nre : Bool) (mre : Nat) (ere : Int) (nim : Bool) (mim : Nat) (eim : Int) : FRes :=
  let e := if ere ≤ eim then ere else eim
  let x := mre * 2 ^ (ere - e).toNat
  let y := mim * 2 ^ (eim - e).toNat
  if y = 0 then (if nre then ⟨0x3F000000, 0⟩ else ⟨0, 0⟩)
  else if x = 0 then ⟨f32Sign nim ||| 0x3E800000, 0⟩
  else if x = y then ⟨f32Sign nim ||| (if nre then 0x3EC00000 else 0x3E000000), 0⟩
  else
    let a0 := if y < x then turnsFix y x else fixOne / 4 - turnsFix x y
    let a := if nre then fixOne / 2 - a0 else a0
    let r := f32Round nim a (-760) true
    if r.bits = 0xBF000000 then ⟨0xBEFFFFFF, r.flags⟩ else r

/-- CPOL of one pair (R273): magnitude and angle in turns. The spec states no angle where a component is infinite:
that value is `Config.cpolInfAngle`. DESIGN CHOICE, assumption 15; DEDUCED, assumptions 30 and 120. -/
def f32Cpol (re im : Word) : FRes × FRes :=
  match f32Decode re, f32Decode im with
  | .nan s, b => (f32NaNRes (s || f32IsSNaN b), f32NaNRes (s || f32IsSNaN b))
  | _, .nan s => (f32NaNRes s, f32NaNRes s)
  | .fin na ma ea, .fin nb mb eb =>
    if ma = 0 ∧ mb = 0 then (⟨0, 0⟩, ⟨0, 0⟩)
    else
      let e := if ea ≤ eb then ea else eb
      let x := ma * 2 ^ (ea - e).toNat
      let y := mb * 2 ^ (eb - e).toNat
      (f32SqrtMag (x * x + y * y) (2 * e), f32Turns na ma ea nb mb eb)
  | _, _ => (⟨f32Inf false, flagOverflow⟩, ⟨Config.cpolInfAngle re im, 0⟩)

end Sys2Proof.Machine
end

