-- ==== Sys2Proof/Machine/Filter.lean ====
section
/-!
DEFINITION. The filter and decimation chains (R219 to R235): weights, sums, quality, skew, restart, cross-fades, the
chain and coefficient commands.
-/

namespace Sys2Proof.Machine

/-! ### Weights (R222, R223) -/

def Module.coef (m : Module) (w : Nat) : Word := BitVec.ofNat 32 (m.vat.cmem.getD w 0)

/-- Weight of tap k of a plain set. -/
def Module.plainWeight (m : Module) (s k : Nat) : Word :=
  let n := m.rd (R.FLT_SET_N s)
  let base := m.rd (R.FLT_SET_WORD s)
  if k < ceilDiv n 2 then m.coef (base + k) else m.coef (base + (n - 1 - k))

/-- Point j of a prototype set's response; 0 past its end. -/
def Module.protoPoint (m : Module) (s j : Nat) : Word :=
  let n := m.rd (R.FLT_SET_N s)
  let last := 32 * (n - 1)
  if last < j then 0
  else m.coef (m.rd (R.FLT_SET_WORD s) + (if j ≤ 16 * (n - 1) then j else last - j))

/-- A natural as binary32 (exact for the values used here). -/
def f32OfNat (n : Nat) : Word := (f32RoundInt n 0 false).bits

/-- φ = i / 65536 as binary32, exact. -/
def f32Frac (i : Nat) : Word := (f32RoundInt i (-16) false).bits

/-- Weight of tap k of a prototype set with advance s = adv / 65536 (R223). -/
def Module.protoWeight (m : Module) (s k adv : Nat) : Word :=
  let x := 32 * (k * 65536 + adv)
  let n := m.rd (R.FLT_SET_N s)
  if 32 * (n - 1) * 65536 < x then 0
  else
    let j := x / 65536
    let phi := x % 65536
    let t := f32Mul (f32Frac (65536 - phi)) (m.protoPoint s j)
    (f32Fma (f32Frac phi) (m.protoPoint s (j + 1)) t.bits).bits

/-- The weights of a set for k = 0 to N - 1. -/
def Module.weights (m : Module) (s adv : Nat) : List Word :=
  (List.range (m.rd (R.FLT_SET_N s))).map fun k =>
    if m.isOn (R.FLT_SET_KIND s) then m.protoWeight s k adv else m.plainWeight s k

/-- Whether a set needs a damaged coefficient (R481). -/
def Module.setGone (m : Module) (s : Nat) : Bool :=
  let n := m.rd (R.FLT_SET_N s)
  let base := m.rd (R.FLT_SET_WORD s)
  let len := if m.isOn (R.FLT_SET_KIND s) then 16 * (n - 1) + 1 else ceilDiv n 2
  m.err.absent.any fun (k, w) => k == 5 && decide (base ≤ w) && decide (w < base + len)

def isZeroW (w : Word) : Bool := w &&& 0x7FFFFFFF == 0

/-- The sum of R221 over a history, newest first: oldest term first, one fused multiply-add per tap.
DEDUCED, assumption 68. -/
def firSum (ws : List Word) (hist : List (Word × Nat)) : Word :=
  ((ws.zipIdx).foldr (fun (w, k) acc => (f32Fma w (hist.getD k (0, 0)).1 acc).bits) 0)

/-! ### Quality (Table 9.2) -/

/-- Combines two quality words. -/
def qCombine (a b : Nat) : Nat :=
  let va := a % 4
  let vb := b % 4
  let v := if va = 1 ∨ vb = 1 then 1 else if va = 3 ∨ vb = 3 then 3 else 0
  let sa := bitOf a 16
  let sb := bitOf b 16
  let kind := max (if sa then bitsOf a 17 2 else 0) (if sb then bitsOf b 17 2 else 0)
  let or := a ||| b
  v + bitsOf or 2 12 * 2 ^ 2 + b2n (sa || sb) * 2 ^ 16 + kind * 2 ^ 17 + bitsOf or 19 6 * 2 ^ 19

/-- The quality of a stage output: of the inputs with a weight other than 0. -/
def firQuality (ws : List Word) (hist : List (Word × Nat)) : Nat :=
  (ws.zipIdx).foldl (fun a (w, k) => if isZeroW w then a else qCombine a (hist.getD k (0, 0)).2) 0

/-! ### Chains -/

def Module.setChan (m : Module) (c : Nat) (x : Chan) : Module :=
  { m with vat := { m.vat with chans := m.vat.chans.set c x } }
def Module.fltCnt (m : Module) (k : Nat) : Module := m.bump (R.FLT_CNT_CNT k)
def Module.fltEvent (m : Module) (n c : Nat) : Module := m.raiseIf R.FLT_CTRL_LOG_EN 5 n 0 0xFFFF 0xFFFF c

/-- The stages after a switch of stage i to a set. -/
def switchedStages (l : List Stage) (i set : Nat) : List Stage :=
  (l.zipIdx).map fun (st, j) => if j = i then { st with set := set } else st

/-- Schedules a fade for the first output whose curd frame opens from now on (R232). DEDUCED, assumption 69. -/
def Module.beginFade (m : Module) (n : Nat) (c : Chan) (i set k : Nat) : Module :=
  let g := ((m.vat.rates.get? c.vrate).map (·.nextG)).getD 0
  let equal := m.gHalf c.stages == m.gHalf (switchedStages c.stages i set)
  m.setChan n { c with fade := some ⟨i, set, k, 0, g, equal⟩, pend := none }

/-- Whether a fade of stage i fits the reserve of 4,000,000,000 MAC/s and 8,000 close MACs. -/
def Module.fadeFits (m : Module) (c : Chan) (i : Nat) : Bool :=
  let (q, k) := m.fadeLoad
  let (dq, dk) := m.fadeCost c i
  decide (q + dq ≤ 4000000000) && decide (k + dk ≤ 8000)

/-- Starts a pending switch if the chain is not fading and it fits. DEDUCED, assumption 70. -/
def Module.tryPending (m : Module) (n : Nat) : Module :=
  match m.chan? n with
  | none => m
  | some c =>
    match c.fade, c.pend with
    | none, some (i, set, k) => if m.fadeFits c i then m.beginFade n c i set k else m
    | _, _ => m

/-- The set of a chain's stage after a restart ends its fade, and what was pending then starts (R235). -/
def Module.restartChain (m : Module) (n : Nat) : Module :=
  match m.chan? n with
  | none => m
  | some c =>
    let stages := match c.fade with
      | some f => switchedStages c.stages f.stage f.set
      | none => c.stages
    let stages := stages.map fun st => { st with hist := [] }
    let m := m.setChan n { c with stages := stages, fade := none, fresh := true, tr := none }
    ((m.fltCnt 0).fltEvent 3 n).tryPending n

/-- Feeds one input to the stages: each computes only at the slots on its output grid (R220). `idx` is the input's
grid index; the answer is the chain and the last stage's output, if one is due. DEDUCED, assumption 69. -/
def Module.feedStages (m : Module) (adv : Nat → Nat) (fade : Option Fade) (k : Nat) :
    Nat → List Stage → Nat → Word × Nat → List Stage × Option (Word × Nat)
  | _, [], _, x => ([], some x)
  | i, st :: rest, idx, x =>
    let h := (x :: st.hist).take 511
    let st := { st with hist := h }
    if idx % st.decim ≠ 0 then (st :: rest, none)
    else
      let out (set : Nat) : Word × Nat :=
        let ws := m.weights set (if i = 0 then adv set else 0)
        (firSum ws h, firQuality ws h)
      let y := match fade with
        | some f =>
          if f.stage = i then
            let o := out st.set
            let n := out f.set
            if k = f.len then n
            else
              let a := (f32Div (f32OfNat k) (f32OfNat f.len)).bits
              let b := (f32Sub 0x3F800000 a).bits
              ((f32Add (f32Mul b o.1).bits (f32Mul a n.1).bits).bits, qCombine o.2 n.2)
          else out st.set
        | none => out st.set
      let (rest, r) := m.feedStages adv fade k (i + 1) rest (idx / st.decim) y
      (st :: rest, r)

/-- Whether an output instant lies in [t_r, t_r + 2 × G_c × T_1) (R231). -/
def unsettledAt (tr half fs t : Nat) : Bool := decide (tr ≤ t) && decide ((t - tr) * fs < half * 1000000000)

/-- A chain takes the inputs behind one curd frame and gives its output (R228): its inputs in ascending instant with
their grid indexes. Answers the module, with the chain's fade, settling and skew brought up to date, and the output. -/
def Module.chainRun (m : Module) (n : Nat) (c : Chan) (g instant : Nat) (inputs : List (Nat × Word × Nat)) :
    Module × (Word × Nat) :=
  let fs := m.streamRate c.stream
  let c := match c.sigmaNext with
    | some (s, from_) => if from_ ≤ instant then { c with sigma := s, sigmaNext := none } else c
    | none => c
  -- a fade whose first output this is; on a restart's first output the new set takes over at once
  let (c, changed) : Chan × Bool := match c.fade with
    | some f =>
      if f.done = 0 ∧ f.fromG ≤ g then
        if c.fresh then ({ c with stages := switchedStages c.stages f.stage f.set, fade := none }, !f.equal)
        else (c, !f.equal)
      else (c, false)
    | none => (c, false)
  let active := match c.fade with
    | some f => if f.fromG ≤ g then some { f with done := f.done + 1 } else none
    | none => none
  let newStages := match active with
    | some f => switchedStages c.stages f.stage f.set
    | none => c.stages
  let half := m.gHalf newStages
  let m := if changed then (m.wr (R.FLT_GDELAY_GD_NS n) (gDelayNs half fs)).fltEvent 2 n else m
  let tr := if c.fresh then (inputs.head?.map fun (i, _) => gridNs fs i) else c.tr
  let set0 := ((newStages.head?).map (·.set)).getD 0
  let clip := (m.advance c set0).2
  let m := if clip ∧ !c.clip then ((m.fltCnt 4).flag (R.FLT_CHAIN_STAT_SKEW_CLIP_STK n)).fltEvent 1 n else m
  let (stages, out) := inputs.foldl (fun (acc : List Stage × (Word × Nat)) (i, v, q) =>
    match m.feedStages (fun s => (m.advance c s).1) active ((active.map (·.done)).getD 0) 0 acc.1 i (v, q) with
    | (st, some y) => (st, y)
    | (st, none) => (st, acc.2)) (c.stages, (0, 0))
  let uns := (match tr with | some t => unsettledAt t half fs instant | none => false) ||
    (match active with | some f => !f.equal && decide (f.done < f.len) | none => false)
  let q := if uns then out.2 ||| 2 ^ 20 else out.2
  let finished := match active with | some f => decide (f.len ≤ f.done) | none => false
  let c := { c with
    stages := if finished then (match active with | some f => switchedStages stages f.stage f.set | none => stages) else stages
    fade := if finished then none else (match active with | some f => some f | none => c.fade)
    tr := tr
    fresh := false
    clip := clip }
  let m := (m.wr (R.FLT_CHAIN_STAT_STATE n) (if (c.fade.map (fun f => decide (0 < f.done))).getD false then 2 else b2n uns)).setChan n c
  let m := if finished then (m.fltCnt 1).tryPending n else m
  (m, (out.1, q))

/-! ### Commands (R232 to R235) -/

/-- The write of an RWS register of Seal Bank switch k by function fn: denied where the switch was off (R15). -/
def Module.sealed (m : Module) (k addr fn : Nat) (f : Module → Module) : Module :=
  if m.mode = .reset ∨ fn ≠ 0 then m else if m.sealOn k then f m else m.sealDenied addr fn

/-- Refuses a SWITCH (R234). -/
def Module.refuseSwitch (m : Module) (c : Nat) : Module :=
  ((m.flag (R.FLT_CHAIN_STAT_REFUSED_STK c)).fltCnt 2).fltEvent 4 c

/-- SWITCH as it takes effect (R232 to R235). DEDUCED, assumption 70. -/
def Module.switchChain (m : Module) (c stage set k : Nat) : Module :=
  match m.chan? c with
  | none => m.refuseSwitch c
  | some x =>
    match x.stages[stage]? with
    | none => m.refuseSwitch c
    | some st =>
      if !m.isOn (R.FLT_SET_VALID set) ∨ m.isOn (R.FLT_SET_KIND set) ≠ (stage == 0) ∨ st.nmax < m.rd (R.FLT_SET_N set) then
        m.refuseSwitch c
      else
        let len := if k = 0 then x.kdef else k
        if x.fade.isSome then
          (m.setChan c { x with pend := some (stage, set, len) }) |> fun m => if x.pend.isSome then m.fltCnt 3 else m
        else if m.fadeFits x stage then m.beginFade c x stage set len
        else
          let m := if x.pend.isSome then m.fltCnt 3 else m
          (m.setChan c { x with pend := some (stage, set, len) }).fltCnt 6

/-- A write of FLT_CHAIN_CMD(c) as it takes effect: the register keeps the last command. -/
def Module.chainCmd (m : Module) (c cmd stage set k : Nat) : Module :=
  let m := (((m.wr (R.FLT_CHAIN_CMD_CMD c) cmd).wr (R.FLT_CHAIN_CMD_STAGE c) stage).wr (R.FLT_CHAIN_CMD_SET c) set).wr
    (R.FLT_CHAIN_CMD_K c) k
  if cmd = 1 then m.switchChain c stage set k else if cmd = 2 then m.restartChain c else m

def chainCmdAddr (c : Nat) : Nat := (R.FLT_CHAIN_CMD_CMD c).addr

/-- CHAIN_SWITCH: a direct SWITCH by function fn. -/
def mChainSwitch (fn c stage set k : Nat) (m : Module) : Module :=
  m.sealed 3 (chainCmdAddr c) fn fun m => m.chainCmd c 1 stage set k

/-- CHAIN_RESET: a direct RESET. -/
def mChainReset (fn c : Nat) (m : Module) : Module := m.sealed 3 (chainCmdAddr c) fn fun m => m.chainCmd c 2 0 0 0

/-- FADE_START: the lowest pending fade that its chain and the reserve allow starts (R233). DEDUCED, assumption 70. -/
def mFadeStart (m : Module) : Module :=
  match m.vat.chans.find? fun (_, c) => c.fade.isNone && (match c.pend with | some (i, _, _) => m.fadeFits c i | none => false) with
  | some (n, _) => m.tryPending n
  | none => m

/-- The sets that a stage, a fade or a pending switch names. -/
def Module.setsInUse (m : Module) : List Nat :=
  m.vat.chans.flatMap fun (_, c) => c.stages.map (·.set) ++ (match c.fade with | some f => [f.set] | none => []) ++
    (match c.pend with | some (_, s, _) => [s] | none => [])

/-- The words a set stores (Table 9.1). -/
def Module.setWords (m : Module) (s : Nat) : Nat :=
  let n := m.rd (R.FLT_SET_N s)
  if m.isOn (R.FLT_SET_KIND s) then 16 * (n - 1) + 1 else ceilDiv n 2

def Module.coefRefused (m : Module) : Module := (m.flag R.FLT_CMEM_STAT_LOCK_STK).fltCnt 5

/-- A write of the coefficient word at FLT_CMEM_ADDR as it takes effect; the address then adds 1. -/
def Module.cmemStore (m : Module) (v : Nat) : Module :=
  let w := m.rd R.FLT_CMEM_ADDR_WORD
  let m1 := m.wr R.FLT_CMEM_ADDR_WORD (w + 1)
  if m.setsInUse.any fun s => decide (m.rd (R.FLT_SET_WORD s) ≤ w) && decide (w < m.rd (R.FLT_SET_WORD s) + m.setWords s) then
    m1.coefRefused
  else
    let x := v % 2 ^ 32
    { m1 with vat := { m1.vat with cmem := if x = 0 then m1.vat.cmem.erase w else m1.vat.cmem.set w x } }

/-- CMEM_WRITE: a write of FLT_CMEM_DATA by function fn. -/
def mCmemWrite (fn v : Nat) (m : Module) : Module := m.sealed 3 R.FLT_CMEM_DATA_VALUE.addr fn fun m => m.cmemStore v

/-- A write of FLT_SET(s) as it takes effect. -/
def Module.setStore (m : Module) (s v : Nat) : Module :=
  if m.setsInUse.contains s then m.coefRefused
  else (((m.wr (R.FLT_SET_WORD s) v).wr (R.FLT_SET_N s) (bitsOf v 18 9)).wr (R.FLT_SET_KIND s) (bitsOf v 27 1)).wr
    (R.FLT_SET_VALID s) (bitsOf v 28 1)

/-- SET_WRITE: a write of FLT_SET(s) by function fn. -/
def mSetWrite (fn s v : Nat) (m : Module) : Module := m.sealed 3 (R.FLT_SET_WORD s).addr fn fun m => m.setStore s v

def execChainSwitch (fn c stage set k : Nat) (s : State) : Host.Outcome State Fault Refusal := s.upd (mChainSwitch fn c stage set k)
def execChainReset (fn c : Nat) (s : State) : Host.Outcome State Fault Refusal := s.upd (mChainReset fn c)
def execFadeStart (s : State) : Host.Outcome State Fault Refusal := s.upd mFadeStart
def execCmemWrite (fn v : Nat) (s : State) : Host.Outcome State Fault Refusal := s.upd (mCmemWrite fn v)
def execSetWrite (fn set v : Nat) (s : State) : Host.Outcome State Fault Refusal := s.upd (mSetWrite fn set v)

end Sys2Proof.Machine
end

