-- ==== Sys2Proof/Machine/Vat.lean ====
section
/-!
DEFINITION. The Vat (R194 to R217): frame checks, placing of samples, instants and windows, close and substitution,
curd frames, the estimate.
-/

namespace Sys2Proof.Machine

/-! ### Access -/

/-- Whether the Vat runs: usable, and in a mode in which it does (R216). -/
def Module.vatOn (m : Module) : Bool :=
  m.ready 3 && (m.mode == .ripen || m.mode == .active || m.mode == .standby || m.mode == .test)

def Module.setStream (m : Module) (s : Nat) (x : Stream) : Module :=
  { m with vat := { m.vat with streams := m.vat.streams.set s x } }
def Module.setRate (m : Module) (v : Nat) (r : VRate) : Module :=
  { m with vat := { m.vat with rates := m.vat.rates.set v r } }
def Module.strmCnt (m : Module) (s k : Nat) : Module := m.bump (R.VAT_STRM_CNT_CNT s k)
def Module.rateCnt (m : Module) (v k : Nat) : Module := m.bump (R.VAT_RATE_CNT_CNT v k)

/-- Whether a stream feeds a vat rate. -/
def Module.streamFeeds (m : Module) (s v : Nat) : Bool := m.vat.chans.any fun (_, c) => c.stream == s && c.vrate == v

/-- The streams that feed a vat rate, ascending. -/
def Module.feeders (m : Module) (v : Nat) : List Nat := (m.vat.streams.map (·.1)).filter fun s => m.streamFeeds s v

/-- The words of VAT_STRM_CFG and VAT_STRM_LIM of a stream. -/
def Module.strmCfgWord (m : Module) (s : Nat) : Nat := m.word (R.VAT_STRM_CFG_EN s).addr
def Module.strmLimWord (m : Module) (s : Nat) : Nat := m.word (R.VAT_STRM_LIM_MAX_SUBST s).addr

/-- The decimation of a channel: F_s / F_v. -/
def Module.decimOf (m : Module) (s : Nat) (r : VRate) : Nat := m.streamRate s / max 1 r.f

/-- The slots of a stream that the curd frame of grid index g holds, for decimation d, ascending (R206). -/
def frameSlots (d g : Nat) : List Nat := (List.range d).map fun i => g * d + 1 + i - d

/-! ### Opening (R208, R209) -/

/-- EN as it takes effect: the stream enters or leaves DISABLED (R207), and starts anew when it leaves it.
DEDUCED, assumption 123. -/
def Stream.enable (x : Stream) (en : Bool) : Stream :=
  if !en then { x with state := .disabled }
  else if x.state = .disabled then
    { x with state := .wait, firstVal := none, unsync := [], byEstimate := none, delta := 0, terms := []
             run := 0, lossRun := 0, goodRun := 0 }
  else x

/-- A stream's configuration word comes into force. -/
def Module.takeCfg (m : Module) (s : Nat) : Module :=
  match m.vat.streams.get? s with
  | none => m
  | some x =>
    let w := m.strmCfgWord s
    m.setStream s { x.enable (bitOf w 0) with cfg := w }

/-- INSTANT_OPEN: vat rate v's next instant is reached and its curd frame opens with the VALID streams expected. -/
def mInstantOpen (v : Nat) (m : Module) : Module :=
  match m.vat.rates.get? v with
  | none => m
  | some r =>
    if !m.vatOn ∨ !r.running then m
    else
      let m := m.reach (gridNs r.f r.nextG)
      let fs := m.feeders v
      let m := fs.foldl Module.takeCfg m
      let expected := fs.filter fun s => match m.vat.streams.get? s with
        | some x => x.state == .valid
        | none => false
      let f : OpenFrame := ⟨r.nextG, m.rd (R.VAT_WINDOW_W_NS v), expected,
        fs.map fun s => (s, m.strmCfgWord s, m.strmLimWord s)⟩
      m.setRate v { r with nextG := r.nextG + 1, opens := r.opens ++ [f] }

/-- WINDOW_END: the window of vat rate v's oldest open frame ends. Frames close in order, so no later one matters before. -/
def mWindowEnd (v : Nat) (m : Module) : Module :=
  match m.vat.rates.get? v with
  | none => m
  | some r =>
    match r.opens with
    | [] => m
    | f :: _ => if m.vatOn then m.reach (gridNs r.f f.g + f.w) else m

/-! ### Values of slots (R203, R211) -/

/-- The value and quality that a slot gives a channel record. -/
def slotVal (x : Stream) (c : Nat) (ch : Chan) (j : Nat) : Option (Word × Nat) :=
  match x.slots.get? j with
  | none => none
  | some sl =>
    if sl.filled then
      let (v, q) := sl.raw.getD ch.src (0, 0)
      some ((f32Mul (f32RoundInt (signedOf v 32) 0 false).bits ch.scale).bits, q)
    else sl.subst.get? c

/-- The first FILLED slot after j. -/
def Stream.nextFilled (x : Stream) (j : Nat) : Option Nat :=
  (x.slots.find? fun (k, sl) => decide (j < k) && sl.filled).map (·.1)

/-- The substituted value of slot j for a channel record, with its kind (R211). -/
def substVal (x : Stream) (subst c : Nat) (ch : Chan) (j : Nat) : Word × Nat :=
  let prev := match x.firstVal with
    | some f => if f < j then slotVal x c ch (j - 1) else none
    | none => none
  if subst = 1 then (0, 1)
  else match prev with
    | none => (0, 3)
    | some (vp, _) =>
      if subst = 2 then
        match x.nextFilled j with
        | none => (vp, 0)
        | some b =>
          match slotVal x c ch b with
          | none => (vp, 0)
          | some (vb, _) =>
            ((f32Add vp (f32Div (f32Sub vb vp).bits (f32OfNat (b - j + 1))).bits).bits, 2)
      else (vp, 0)

/-- The quality word of a substituted value (Table 8.3). -/
def substQuality (kind : Nat) (stale unsync notValid prev11 : Bool) : Nat :=
  (if stale ∨ kind = 3 then 1 else 3) + 2 ^ 10 + b2n prev11 * 2 ^ 11 + 2 ^ 16 + kind * 2 ^ 17 + b2n unsync * 2 ^ 19 +
    b2n stale * 2 ^ 21 + b2n notValid * 2 ^ 23

/-! ### Closing (R206 to R211) -/

/-- Closes slot j of stream s, under the words of VAT_STRM_CFG and VAT_STRM_LIM that the frame opened with; `bad` says that the
stream was not VALID when its frame closed. -/
def Module.closeSlot (m : Module) (s j cfg lim : Nat) (bad : Bool) : Module :=
  match m.vat.streams.get? s with
  | none => m
  | some x =>
    match x.slots.get? j with
    | some sl =>
      if sl.closed then m
      else
        let good := x.goodRun + 1
        let sl := { sl with closed := true, raw := sl.raw.map fun (v, q) => (v, if bad then q ||| 2 ^ 23 else q) }
        let x : Stream := { x with slots := x.slots.set j sl, run := 0, lossRun := 0, goodRun := good }
        m.setStream s (if x.state = .lost ∧ bitsOf lim 24 8 ≤ good then { x with state := .valid, lossRun := 0 } else x)
    | none =>
      let stale := decide (bitsOf lim 0 16 ≤ x.run)
      let unsync := x.unsync.contains j
      let subst := (m.vat.chans.filter fun (_, ch) => ch.stream == s).map fun (c, ch) =>
        let (v, kind) := substVal x (bitsOf cfg 14 2) c ch j
        let p11 := match slotVal x c ch (j - 1) with
          | some (_, q) => bitOf q 11
          | none => false
        (c, v, substQuality kind stale unsync bad p11)
      let x : Stream := { x with
        slots := x.slots.set j ⟨false, true, [], subst⟩, run := x.run + 1, lossRun := x.lossRun + 1, goodRun := 0
        unsync := x.unsync.filter (· != j) }
      let m := m.strmCnt s 3
      let m := if stale then m.strmCnt s 12 else m
      if x.state = .valid ∧ bitsOf lim 16 8 ≤ x.lossRun then
        ((m.setStream s { x with state := .lost }).strmCnt s 11).raiseIf R.VAT_CTRL_LOG_EN 4 1 0 0xFFFF 0xFFFF s
      else m.setStream s x

/-- The inputs of a chain behind the frame of grid index g. -/
def Module.chainIns (m : Module) (r : VRate) (g c : Nat) : List (Nat × Word × Nat) :=
  match m.chan? c with
  | none => []
  | some ch =>
    match m.vat.streams.get? ch.stream with
    | none => []
    | some x => (frameSlots (m.decimOf ch.stream r) g).map fun j =>
        let (v, q) := (slotVal x c ch j).getD (0, 0)
        (j, v, q)

/-- Closes the oldest open frame of vat rate v with a cause (R208, R213, R214). -/
def Module.closeFrame (m : Module) (v cause : Nat) : Module :=
  match m.vat.rates.get? v with
  | none => m
  | some r =>
    match r.opens with
    | [] => m
    | f :: rest =>
      let m := f.cfgs.foldl (fun m (s, cfg, lim) =>
        let bad := (m.vat.streams.get? s).map (·.state) != some .valid
        (frameSlots (m.decimOf s r) f.g).foldl (fun m j => m.closeSlot s j cfg lim bad) m) m
      let instant := gridNs r.f f.g
      let cd : Curd := ⟨f.g, r.seq, instant, m.tns, cause,
        b2n (!m.isOn R.TIM_STATUS_LOCKED) + 2 * b2n (cause == 2 || r.stepFlag), [], r.chans.map fun c => (c, m.chainIns r f.g c)⟩
      let m := m.setRate v { r with
        opens := rest, seq := r.seq + 1, closing := r.closing ++ [cd]
        stepFlag := r.stepFlag && cause == 2 }
      let m := (m.wr (R.VAT_RATE_LAST_INSTANT v) instant).wr64 (R.VAT_RATE_SEQ_LO_SEQ v) (R.VAT_RATE_SEQ_HI_SEQ v) r.seq
      m.rateCnt v (if cause = 3 then 5 else cause)

/-- Whether every slot that the frame holds of a stream is FILLED or closed. -/
def Module.slotsPresent (m : Module) (r : VRate) (g s : Nat) : Bool :=
  match m.vat.streams.get? s with
  | none => true
  | some x => (frameSlots (m.decimOf s r) g).all fun j => match x.slots.get? j with
    | some sl => sl.filled || sl.closed
    | none => false

/-- CURD_FRAME_CLOSE: the oldest open frame of vat rate v closes where the conditions of R208 hold.
DEDUCED, assumption 67. -/
def mCurdFrameClose (v : Nat) (m : Module) : Module :=
  match m.vat.rates.get? v with
  | none => m
  | some r =>
    match r.opens with
    | [] => m
    | f :: _ =>
      let t := gridNs r.f f.g
      let all := f.expected.all (m.slotsPresent r f.g)
      if !m.vatOn ∨ m.tns < t ∨ (!all ∧ m.tns < t + f.w) then m
      else m.closeFrame v (if f.expected = [] then 3 else if all then 0 else 1)

/-- CHAIN_OUTPUT: chain c writes its output for the oldest closed frame that lacks it (R228).
DEDUCED, assumption 67. -/
def mChainOutput (c : Nat) (m : Module) : Module :=
  match m.chan? c with
  | none => m
  | some ch =>
    match m.vat.rates.get? ch.vrate with
    | none => m
    | some r =>
      match r.closing.find? fun cd => (cd.ins.get? c).isSome with
      | none => m
      | some cd =>
        let m := if ch.stages.any fun st => m.setGone st.set then m.restartChain c else m
        let (m, out) := m.chainRun c ((m.chan? c).getD ch) cd.g cd.instant (cd.ins.getD c [])
        m.setRate ch.vrate { r with closing := r.closing.map fun x =>
          if x.seq = cd.seq then { x with outs := x.outs.set c out, ins := x.ins.erase c } else x }

/-- Channels of a curd frame with SUBST set. -/
def Curd.nsub (c : Curd) : Nat := (c.outs.filter fun (_, _, q) => bitOf q 16).length

/-- The oldest closed frame of vat rate v becomes visible once every chain has written: its row, and its operand (R25). -/
def Module.curdVisible (m : Module) (v : Nat) : Option (Module × Curd) :=
  match m.vat.rates.get? v with
  | none => none
  | some r =>
    match r.closing with
    | [] => none
    | cd :: rest =>
      if cd.ins ≠ [] then none
      else
        let m := m.setRate v { r with closing := rest, rows := (cd :: r.rows).take r.depth }
        let m := if 0 < cd.nsub then m.rateCnt v 4 else m
        some (m.deliver 1 v cd.instant, cd)

/-! ### Frames (R199 to R205) -/

/-- A failed check of Table 8.1: its cause, counter and event (R200, R217). -/
def Module.svCause (m : Module) (s cause k : Nat) : Module :=
  let m := ((m.wr (R.VAT_STRM_STAT_LAST_CAUSE s) cause).flag (R.VAT_STRM_STAT_CAUSE_STK s)).strmCnt s k
  match m.vat.streams.get? s with
  | none => m
  | some x =>
    let sec := m.tns / 1000000000 + 1
    if x.logged.getD cause 0 = sec then m
    else (m.setStream s { x with logged := x.logged.set cause sec }).raiseIf R.VAT_CTRL_LOG_EN 4 2 cause 0xFFFF 0xFFFF s

/-- Whether a frame's key is a stream's (check 1). -/
def Module.svKey (m : Module) (x : SvFrame) (s : Nat) (st : Stream) : Bool :=
  let vid := m.rd (R.VAT_STRM_SUB_VID s)
  st.dst == x.dst && m.rd (R.VAT_STRM_SUB_APPID s) == x.appid &&
    (if vid = 0 then m.rd (R.SWC_PORT_CFG_PVID x.port) else vid) == x.vid

/-- The frame-level checks 2 to 8, with the counter of the first that fails. DEDUCED, assumption 66. -/
def Module.svFrameCheck (m : Module) (x : SvFrame) (s : Nat) (st : Stream) : Option (Nat × Nat) :=
  let simOk := if m.mode = .test ∧ bitOf st.cfg 19 then x.sim || !m.isOn (R.VAT_STRM_STAT_SIM_LATCHED s) else !x.sim
  if !x.sound ∨ x.noAsdu = 0 ∨ 8 < x.noAsdu ∨ x.asdus.length ≠ x.noAsdu then some (2, 4)
  else if x.noAsdu ≠ m.rd (R.VAT_STRM_CFG_NOASDU s) then some (3, 4)
  else if x.asdus.any fun a => a.svId != st.svId then some (4, 4)
  else if x.asdus.any fun a => a.confRev != st.confRev then some (5, 4)
  else if x.asdus.any fun a => a.dataLen != 8 * m.rd (R.VAT_STRM_CFG_NCHAN s) ||
      (match a.smpRate with | some f => f != m.streamRate s | none => false) then some (6, 4)
  else if m.isOn (R.VAT_STRM_CFG_AUTH s) ∧ !m.authOk st.keyLabel x.auth then some (7, 8)
  else if !simOk then some (8, 9)
  else none

/-- The synchronisation that smpSynch gives meets the requirement (R201). -/
def syncMeets (cfg smp : Nat) : Bool :=
  smp == 2 || (decide (5 ≤ smp) && decide (smp ≤ 254)) || (smp == 1 && !bitOf cfg 18)

/-- The counter instant of R199. -/
def counterInstant (f c tw : Nat) : Int :=
  let o : Int := (c * 1000000000 / f : Nat)
  ((tw : Int) + 999999 - o) / 1000000000 * 1000000000 + o

/-- x taken into [-500 ms, 500 ms) relative to a mean. -/
def wrapTo (mean x : Int) : Int := (x - mean + 500000000) % 1000000000 - 500000000 + mean

def meanOf (l : List Int) : Int := if l = [] then 0 else l.foldl (· + ·) 0 / (l.length : Int)

/-- e_a - t_c of ASDU a (R204). -/
def Module.estTerm (m : Module) (x : SvFrame) (s : Nat) (st : Stream) (a : Asdu) (i : Nat) : Int :=
  let f := m.streamRate s
  (x.ingress : Int) - st.xmitNs - ((x.noAsdu - 1 - i) * 1000000000 / f : Nat) - counterInstant f a.smpCnt m.tns

/-- Whether a slot counts as closed for a write now: closed, or in a frame whose window has ended (R209). -/
def Module.slotShut (m : Module) (s : Nat) (x : Stream) (g : Nat) : Bool :=
  (match x.slots.get? g with | some sl => sl.closed | none => false) ||
  m.vat.rates.any fun (v, r) => m.streamFeeds s v && r.opens.any fun f =>
    decide (gridNs r.f f.g + f.w ≤ m.tns) && (frameSlots (m.decimOf s r) f.g).contains g

/-- Restarts every chain of a stream (R205). -/
def Module.restartStream (m : Module) (s : Nat) : Module :=
  (m.vat.chans.filter fun (_, c) => c.stream == s).foldl (fun m (c, _) => m.restartChain c) m

/-- Sets whether a stream is placed by the estimate; a change restarts its chains. -/
def Module.setPlacement (m : Module) (s : Nat) (est : Bool) (first : Int) : Module :=
  match m.vat.streams.get? s with
  | none => m
  | some x =>
    if x.byEstimate = some est then m
    else
      let d := if est then first else 0
      let m' := (m.setStream s { x with byEstimate := some est, delta := d }).wr (R.VAT_STRM_DELTA_DELTA s)
        (unsignedOf (if 2147483647 < d then 2147483647 else if d < -2147483648 then -2147483648 else d) 32)
      if x.byEstimate = some (!est) then m'.restartStream s else m'

/-- The ring of a stream at the write instant (R197): whether it holds a slot. -/
def Module.inRing (m : Module) (s : Nat) (x : Stream) (g : Int) : Bool :=
  let last : Int := gridAt (m.streamRate s) (m.tns + 1000000)
  decide (0 ≤ g) && decide (last - x.depth ≤ g) && decide (g < last)

/-- Writes an ASDU into a slot (checks 11 to 13). DEDUCED, assumption 66. -/
def Module.placeAsdu (m : Module) (s : Nat) (g : Int) (tc : Int) (marks : Nat) (data : List (Nat × Nat)) : Module :=
  match m.vat.streams.get? s with
  | none => m
  | some x =>
    if !m.inRing s x g then m.svCause s 11 6
    else
      let g := g.toNat
      let filled := match x.slots.get? g with | some sl => sl.filled | none => false
      if filled then m.svCause s 12 5
      else if m.slotShut s x g then m.svCause s 13 2
      else
        let raw := data.map fun (v, q) => (v % 2 ^ 32, q % 2 ^ 14 + marks)
        let x := { x with slots := x.slots.set g ⟨true, false, raw, []⟩, lastC := tc }
        -- the run of substituted slots goes on over WAIT: DEDUCED, assumption 123
        let x := if x.state = .wait then { x with state := .valid, firstVal := some g } else x
        (m.setStream s x).strmCnt s 1

/-- One ASDU of an accepted frame (checks 9 to 13). -/
def Module.svAsdu (m : Module) (x : SvFrame) (s : Nat) (est : Int) (a : Asdu) : Module :=
  match m.vat.streams.get? s with
  | none => m
  | some st =>
    let f := m.streamRate s
    let m := m.wr (R.VAT_STRM_STAT_LAST_SMPSYNCH s) a.smpSynch
    if f ≤ a.smpCnt then m.svCause s 9 4
    else
      let tc := counterInstant f a.smpCnt m.tns
      let slot : Int := tc / 1000000000 * f + a.smpCnt
      let sim := b2n x.sim * 2 ^ 22
      if syncMeets st.cfg a.smpSynch then
        ((m.wr (R.VAT_STRM_STAT_UNSYNC s) 0).setPlacement s false 0).placeAsdu s slot tc sim a.data
      else
        let m := (m.flag (R.VAT_STRM_STAT_UNSYNC s)).svCause s 10 7
        let policy := bitsOf st.cfg 16 2
        if policy = 1 then
          let m := m.setPlacement s true est
          let d := ((m.vat.streams.get? s).map (·.delta)).getD 0
          let t := tc + d
          m.placeAsdu s (if t < 0 then -1 else gridAt f t.toNat) tc (sim + 2 ^ 19 + 2 ^ 24) a.data
        else if policy = 2 then (m.setPlacement s false 0).placeAsdu s slot tc (sim + 2 ^ 19) a.data
        else
          match m.vat.streams.get? s with
          | none => m
          | some st => if slot < 0 then m else m.setStream s { st with unsync := slot.toNat :: st.unsync }

/-- The terms of a frame's ASDUs that the estimate places, each taken relative to the running mean, which a time of counter
placement does not end. DEDUCED, assumption 123. -/
def Module.frameTerms (m : Module) (x : SvFrame) (s : Nat) (st : Stream) : List Int :=
  let go := (x.asdus.zipIdx).foldl (fun (acc : List Int × List Int) (a, i) =>
    if m.streamRate s ≤ a.smpCnt ∨ syncMeets st.cfg a.smpSynch ∨ bitsOf st.cfg 16 2 ≠ 1 then acc
    else
      let t := m.estTerm x s st a i
      let t := if acc.1 = [] then t else wrapTo (meanOf acc.1) t
      (acc.1 ++ [t], acc.2 ++ [t])) (st.terms.flatten, [])
  go.2

/-- A frame reaches the Vat through EP and is written at an instant (Table 8.1). The answer names the stream whose
frame-level checks it passed. -/
def Module.takeSv (m : Module) (x : SvFrame) (t : Nat) : Module × Option Nat :=
  let m := (m.reach t).takeEp fun c => (ethOf c.bytes).etype == 0x88BA
  if !m.vatOn then (m, none)
  else
    -- a stream that feeds no rate opens no window: its configuration is in force as written
    let m := (m.vat.streams.filter fun (s, _) => !(m.vat.chans.any fun (_, c) => c.stream == s)).foldl
      (fun m (s, _) => m.takeCfg s) m
    let hits := m.vat.streams.filter fun (s, st) => m.svKey x s st
    match hits.find? fun (_, st) => st.state != .disabled with
    | none =>
      match hits with
      | [] => (m.bump R.VAT_NOMATCH_CNT_CNT, none)
      | (s, _) :: _ => (m.svCause s 1 4, none)
    | some (s, st) =>
      match m.svFrameCheck x s st with
      | some (cause, k) => (m.svCause s cause k, none)
      | none =>
        let m := (m.strmCnt s 0).wr (R.VAT_STRM_LAST_TW s) m.ts32
        let m := if x.sim then m.flag (R.VAT_STRM_STAT_SIM_LATCHED s) else m
        let terms := m.frameTerms x s st
        let m := x.asdus.foldl (fun m a => m.svAsdu x s (meanOf terms) a) m
        match m.vat.streams.get? s with
        | none => (m, none)
        | some y =>
          if terms = [] ∨ y.byEstimate ≠ some true then (m, some s)
          else (m.setStream s { y with terms := (y.terms ++ [terms]).drop (y.terms.length + 1 - 16) }, some s)

/-! ### Second boundaries (R204, R205, R225) -/

/-- σ of a channel record as VAT_SKEW shows it. -/
def Module.skewNow (m : Module) (ch : Chan) : Nat :=
  match m.vat.streams.get? ch.stream with
  | none => ch.decl
  | some x =>
    if x.byEstimate = some true then
      let f := m.streamRate ch.stream
      let t := x.lastC + x.delta
      if t < 0 then ch.decl else gridNs f (gridAt f t.toNat) - t.toNat + ch.decl
    else ch.decl

/-- The slot shift that a new Δ makes. -/
def slipBy (f : Nat) (c old new : Int) : Nat :=
  ((gridAt f (c + new).toNat : Int) - gridAt f (c + old).toNat).natAbs

/-- DELTA_UPDATE: at the next second boundary each estimate takes its mean, and VAT_SKEW is updated. -/
def mDeltaUpdate (m : Module) : Module :=
  if !m.vatOn then m
  else
    let s := max (m.vat.second + 1) (m.tns / 1000000000)
    let m := m.reach (s * 1000000000)
    let m := { m with vat := { m.vat with second := s } }
    let m := m.vat.streams.foldl (fun m (k, x) =>
      if x.byEstimate ≠ some true ∨ x.terms = [] then m
      else
        let d := meanOf x.terms.flatten
        let m := m.bumpBy (R.VAT_STRM_CNT_CNT k 10) (slipBy (m.streamRate k) x.lastC x.delta d)
        (m.setStream k { x with delta := d }).wr (R.VAT_STRM_DELTA_DELTA k)
          (unsignedOf (if 2147483647 < d then 2147483647 else if d < -2147483648 then -2147483648 else d) 32)) m
    m.vat.chans.foldl (fun m (c, ch) => m.wr (R.VAT_SKEW_SIGMA_NS c) (m.skewNow ch)) m

/-- SIGMA_UPDATE: each chain takes VAT_SKEW for the outputs from the latest second boundary on (R225).
DEDUCED, assumption 69. -/
def mSigmaUpdate (m : Module) : Module :=
  if !m.vatOn then m
  else m.vat.chans.foldl (fun m (c, ch) =>
    m.setChan c { ch with sigmaNext := some (m.rd (R.VAT_SKEW_SIGMA_NS c), m.vat.second * 1000000000) }) m

/-! ### Windows, starting, stopping, clock steps -/

/-- WINDOW_WRITE: a write of VAT_WINDOW(v); it holds from the next instant that opens. -/
def mWindowWrite (v w : Nat) (m : Module) : Module :=
  if m.mode = .reset then m
  else
    let m := if bitOf w 21 then m.wr (R.VAT_WINDOW_W_REFUSED_STK v) 0 else m
    let ns := bitsOf w 0 21
    let top := ((m.vat.rates.get? v).map (·.wLoaded)).getD 200000
    if ns < 1000 ∨ top < ns then m.flag (R.VAT_WINDOW_W_REFUSED_STK v) else m.wr (R.VAT_WINDOW_W_NS v) ns

/-- The Vat sets its readiness bit: each rate opens its first instant at or after now; every chain restarts at its first
input (R216, R230). -/
def Module.vatStart (m : Module) : Module :=
  let rates := m.vat.rates.map fun (v, r) => (v, { r with running := true, nextG := gridAt r.f (ceilDiv m.clk nsUnit) })
  let m := { m with vat := { m.vat with rates := rates, second := m.tns / 1000000000 } }
  m.vat.chans.foldl (fun m (c, _) => m.restartChain c) m

/-- The Vat stops: open frames are dropped without a close (R216). -/
def Module.vatStop (m : Module) : Module :=
  let rates := m.vat.rates.map fun (v, r) => (v, { r with running := false, opens := [], closing := [] })
  { m with vat := { m.vat with rates := rates } }

/-- Leaving TEST clears every latch of the simulation rule (R202). -/
def Module.vatLeaveTest (m : Module) : Module :=
  m.vat.streams.foldl (fun m (s, _) => m.wr (R.VAT_STRM_STAT_SIM_LATCHED s) 0) m

/-- Marks a discontinuity on every channel of a vat rate (R213). -/
def Module.restartRate (m : Module) (v : Nat) : Module :=
  (m.vat.chans.filter fun (_, c) => c.vrate == v).foldl (fun m (c, _) => m.restartChain c) m

/-- Closes open frames of a rate with cause 2 while the oldest meets a condition. -/
def Module.stepClose (v : Nat) (p : VRate → OpenFrame → Bool) : Nat → Module → Module
  | 0, m => m
  | k + 1, m =>
    match m.vat.rates.get? v with
    | none => m
    | some r =>
      match r.opens with
      | [] => m
      | f :: _ => if p r f then Module.stepClose v p k (m.closeFrame v 2) else m

/-- A clock step from a to b (ns) acts on one vat rate (R213). -/
def Module.stepRate (m : Module) (a b v : Nat) : Module :=
  match m.vat.rates.get? v with
  | none => m
  | some r =>
    if !r.running then m
    else
      let n := r.opens.length
      let m := m.setRate v { r with stepFlag := true }
      if a + 1000000000 ≤ b ∨ b + 1000000000 ≤ a then
        let m := Module.stepClose v (fun _ _ => true) n m
        match m.vat.rates.get? v with
        | none => m
        | some r => (m.setRate v { r with nextG := gridAt r.f b, stepFlag := true }).restartRate v
      else if a < b then
        let m := Module.stepClose v (fun r f => decide (gridNs r.f f.g + f.w ≤ b)) n m
        match m.vat.rates.get? v with
        | none => m
        | some r =>
          let w := m.rd (R.VAT_WINDOW_W_NS v)
          let upTo := if w ≤ b then gridAt r.f (b - w + 1) else 0
          let skipped := upTo - r.nextG
          let m := m.setRate v { r with nextG := r.nextG + skipped, stepFlag := true }
          if skipped = 0 then m else (m.bumpBy (R.VAT_RATE_CNT_CNT v 3) skipped).restartRate v
      else m

/-- A clock step acts on the Vat (R213). With a step of 1 s or more the input rings hold none of the instants they held.
DEDUCED, assumption 62. -/
def Module.vatStep (m : Module) (a b : Nat) : Module :=
  if !m.vatOn then m
  else
    let m := ([0, 1, 2, 3].foldl (fun m v => m.stepRate a b v) m).flag R.VAT_STATUS_STEP_STK
    let m := { m with vat := { m.vat with second := b / 1000000000 } }
    if a + 1000000000 ≤ b ∨ b + 1000000000 ≤ a then
      let streams := m.vat.streams.map fun (s, x) => (s, { x with slots := [], unsync := [] })
      { m with vat := { m.vat with streams := streams } }
    else m

def execInstantOpen (v : Nat) (s : State) : Host.Outcome State Fault Refusal := s.upd (mInstantOpen v)
def execWindowEnd (v : Nat) (s : State) : Host.Outcome State Fault Refusal := s.upd (mWindowEnd v)
def execCurdFrameClose (v : Nat) (s : State) : Host.Outcome State Fault Refusal := s.upd (mCurdFrameClose v)
def execChainOutput (c : Nat) (s : State) : Host.Outcome State Fault Refusal := s.upd (mChainOutput c)
def execDeltaUpdate (s : State) : Host.Outcome State Fault Refusal := s.upd mDeltaUpdate
def execSigmaUpdate (s : State) : Host.Outcome State Fault Refusal := s.upd mSigmaUpdate
def execWindowWrite (v w : Nat) (s : State) : Host.Outcome State Fault Refusal := s.upd (mWindowWrite v w)

end Sys2Proof.Machine
end

