-- ==== Sys2Proof/Machine/Acq.lean ====
section
/-!
DEFINITION. The acquisition engine (R345 to R367): rows, conditions, triggers, records, trend rows, rate reduction, the
session commands, Haulato trigger messages. Reading records stands with the host interface.
-/

namespace Sys2Proof.Machine

/-! ### Access -/

def Module.setSess (m : Module) (s : Nat) (x : Session) : Module :=
  { m with acq := { m.acq with sessions := m.acq.sessions.set s x } }

def Module.modSess (m : Module) (s : Nat) (f : Session → Session) : Module :=
  match m.acq.sessions.get? s with
  | some x => m.setSess s (f x)
  | none => m

/-- The record of directory entry e of session s. -/
def Session.rec? (x : Session) (e : Nat) : Option AcqRec := x.recs.get? e

def Module.modRec (m : Module) (s e : Nat) (f : AcqRec → AcqRec) : Module :=
  m.modSess s fun x => match x.recs.get? e with
    | some r => { x with recs := x.recs.set e (f r) }
    | none => x

def Module.acqCnt (m : Module) (k : Nat) : Module := m.bump (R.ACQ_CNT_CNT k)

/-- Whether sessions run: ACQ usable, and a mode in which they do (R31, R352). -/
def Module.acqOn (m : Module) : Bool :=
  m.ready 8 && (m.mode == .ripen || m.mode == .active || m.mode == .standby || m.mode == .test)

def Session.global (x : Session) : Bool := bitOf x.flags 0
def Session.comtrade (x : Session) : Bool := bitOf x.flags 1
def Session.reserved (x : Session) : Bool := bitOf x.flags 2
def Session.autoRearm (x : Session) : Bool := bitOf x.flags 3
def Session.protect (x : Session) : Bool := bitOf x.flags 5
def Session.extend (x : Session) : Bool := bitOf x.flags 6
def Session.haulTx (x : Session) : Bool := bitOf x.flags 7

/-- Whether rows are written: ARMED or RECORDING. -/
def Session.running (x : Session) : Bool := x.state == .armed || x.state == .recording

/-- F_v of a session. -/
def Module.sessRate (m : Module) (x : Session) : Nat := ((m.vat.rates.get? x.vrate).map (·.f)).getD 1

/-- The RECNO that an event of a session names: the open record's, else the next one's. -/
def Session.evRecno (x : Session) : Nat := ((x.open_.bind fun e => x.recs.get? e).map (·.recno)).getD x.recno

/-- An event of SOURCE 9 (Table 15.1). -/
def Module.acqEvent (m : Module) (num cause s recno : Nat) : Module :=
  m.raiseIf R.ACQ_CTRL_LOG_EN 9 num cause 0xFFFF 0xFFFF (s + recno * 2 ^ 8)

/-! ### Records and rows -/

/-- The trend rows whose first instant lies in the span. -/
def Session.recTrend (x : Session) (r : AcqRec) : List TrendRow :=
  x.trend.filter fun w => decide (r.start ≤ w.instant) && decide (w.instant < r.fin)

/-- A row slot's bytes: 8 + DATA, rounded up to 32 (R348). -/
def Session.dataLen (x : Session) : Nat :=
  let na := (x.chans.filter (·.kind == 1)).length
  let nb := (x.chans.filter fun c => c.kind == 2 || c.kind == 3 || c.kind == 4).length
  if x.comtrade then 4 * na + 2 * ceilDiv nb 16 else 4 * na + 4 * ceilDiv nb 32

def Session.slotBytes (x : Session) : Nat := ceilDiv (8 + x.dataLen) 32 * 32

/-- Sets a flag of a record. -/
def AcqRec.mark (r : AcqRec) (b : Nat) : AcqRec := { r with flags := r.flags ||| 2 ^ b }

/-- The unreleased records that hold a row or trend row are LOST (R355). -/
def Module.loseRecs (m : Module) (s : Nat) (held : AcqRec → Bool) : Module :=
  match m.acq.sessions.get? s with
  | none => m
  | some x => x.recs.foldl (fun m (e, r) =>
      if held r && !bitOf r.flags 1 then (m.modRec s e fun y => { y with flags := x.recFlags r }.mark 1).acqCnt 6 else m) m

/-! ### Values of a row -/

/-- round((x - B) / A) of R349 for a value and its quality. -/
def comtradeInt (a b v : Word) (q : Nat) : Nat :=
  let fa := f32Decode a
  let fb := f32Decode b
  let fx := f32Decode v
  if f32IsNaN fx ∨ q % 4 = 1 then 0x80000000
  else
    let d := f32Scale fa
    let n := f32Scale fx - f32Scale fb
    let y := if d < 0 then divRne (-n) d.natAbs else divRne n d.natAbs
    unsignedOf (if y < -2147483647 then -2147483647 else if 2147483647 < y then 2147483647 else y) 32

/-- The bit that a binary column takes (Table 14.1, R347). -/
def Module.acqBit (m : Module) (c : AcqChan) : Bool :=
  if c.kind = 2 then bitOf (m.vars.getD c.source (0, 0)).2 c.bit
  else if c.kind = 3 then bitOf (leAt (m.gsubSt c.source).data c.byte 1) c.bit
  else bitOf (leAt (m.lstShown c.source) c.byte 1) c.bit

/-- Binary columns in words of n bits, column 0 in bit 0. -/
def packBits : Nat → Nat → List Bool → Bytes
  | 0, _, _ => []
  | k + 1, n, l =>
    if l = [] then []
    else leBytes (n / 8) ((l.take n).zipIdx.foldl (fun a (b, i) => a + b2n b * 2 ^ i) 0) ++ packBits k n (l.drop n)

def Curd.val (cd : Curd) (c : Nat) : Word × Nat := cd.outs.getD c (0, 0)

/-- QSUM of a row: the analogue columns' quality words combined. -/
def Session.qsum (x : Session) (cd : Curd) : Nat :=
  x.chans.foldl (fun a c => if c.kind = 1 then qCombine a (cd.val c.source).2 else a) 0

/-- The data of a row (Table 14.2). -/
def Module.rowData (m : Module) (x : Session) (cd : Curd) : Bytes :=
  let an := (x.chans.filter (·.kind == 1)).flatMap fun c =>
    let (v, q) := cd.val c.source
    leBytes 4 (if x.comtrade then comtradeInt c.a c.b v q else v.toNat)
  let bits := (x.chans.filter fun c => c.kind == 2 || c.kind == 3 || c.kind == 4).map m.acqBit
  an ++ packBits 128 (if x.comtrade then 16 else 32) bits

/-! ### Haulato messages to send (R362, R365, R366) -/

/-- Queues a message towards OUT and IN; a message that finds its queue full is dropped (R364). -/
def Module.queueHaul (m : Module) (toIn : Bool) (h : HaulMsg) : Module :=
  if toIn then
    if 16 ≤ m.acq.inQ.length then m.acqCnt 11 else { m with acq := { m.acq with inQ := m.acq.inQ ++ [h] } }
  else if 16 ≤ m.acq.outQ.length then m.acqCnt 11 else { m with acq := { m.acq with outQ := m.acq.outQ ++ [h] } }

/-- Originates a message: TYPE, GROUP, and for a TRIGGER its instant (ns). -/
def Module.sendHaul (m : Module) (typ group : Nat) (t : Option Nat) : Module :=
  let b : Bytes := beBytes 1 0xA5 ++ beBytes 1 typ ++ beBytes 1 (m.rd R.ACQ_CTRL_HAUL_ID) ++ beBytes 1 group ++
    beBytes 2 m.acq.seq ++ List.replicate 10 0
  let h : HaulMsg := ⟨b, true, t, 0, 0⟩
  let m := { m with acq := { m.acq with seq := (m.acq.seq + 1) % 2 ^ 16 } }
  (m.queueHaul false h).queueHaul true h

/-! ### Arming, halting, closing -/

/-- An ARM takes effect: the next frame to become visible gives the first row. -/
def Session.armed (x : Session) : Session :=
  let clear (c : CondSt) : CondSt := { c with armed := true, hist := [], prev := none, clear := 0 }
  { x with
    state := .armed, armPending := false, disarm := false, haltCause := 0, armIdx := x.nextIdx, armRow := none
    conds := x.conds.map (fun (c, st) => (c, clear st)), tcount := 0, tq := 0, tacc := [] }

/-- ARM as a master's sends it on: the group's other members arm too (R366). -/
def Module.armSess (m : Module) (s : Nat) : Module :=
  match m.acq.sessions.get? s with
  | none => m
  | some x =>
    let m := m.setSess s x.armed
    if x.global && x.gmaster then m.sendHaul 3 x.group none else m

/-- Closes the open record with extra flags. DEDUCED, assumption 85. -/
def Module.closeRec (m : Module) (s : Nat) (trunc : Bool) : Module :=
  match m.acq.sessions.get? s with
  | none => m
  | some x =>
    match x.open_ with
    | none => m
    | some e =>
      let m := m.modRec s e fun r =>
        let r := { r with endIdx := some x.nextIdx }.mark 0
        if trunc then r.mark 2 else r
      let m := m.modSess s fun x => { x with open_ := none }
      (m.acqCnt 1).acqEvent 2 0 s x.evRecno

/-- A session goes to HALTED with a cause (Table 14.3). -/
def Module.haltSess (m : Module) (s cause : Nat) : Module :=
  match m.acq.sessions.get? s with
  | none => m
  | some x =>
    (m.setSess s { x with state := .halted, haltCause := cause, disarm := false, late := [] }).acqEvent 3 cause s x.evRecno

/-! ### Triggers (R353 to R355) -/

/-- Ranks as a remote trigger: a global one or a condition of type 6. -/
def Session.remote (x : Session) (cond : Nat) : Bool :=
  cond == 33 || (match x.conds[cond]? with
    | some (c, _) => c.typ == 6
    | none => false)

/-- Bit of BITMAP, or of SRC, that a trigger on the trigger row sets. -/
def AcqRec.join (r : AcqRec) (cond : Nat) (remote : Bool) (origin : Nat) : AcqRec :=
  let r := if cond < 32 then { r with bitmap := r.bitmap ||| 2 ^ cond }
    else { r with src := r.src ||| (if cond = 32 then 1 else 2) }
  if remote && r.origin == 0xFF then { r with origin := origin } else r

/-- Opens a record on row g of instant `at_`. -/
def Module.openRec (m : Module) (s : Nat) (x : Session) (cond t origin g at_ : Nat) : Module :=
  match (List.range 64).find? fun e => (x.recs.get? e).isNone with
  | none => (m.acqCnt 5).flag (R.ACQ_SESS_STAT0_DIR_FULL_STK s)
  | some e =>
    let start : Int := (at_ : Int) - x.preNs
    let f := m.sessRate x
    let avail := x.rows.filter fun w => decide (x.armIdx ≤ w.idx)
    let oldest := match avail.head? with
      | some w => w.instant
      | none => gridNs f (x.lastG + 1)
    let first := match avail.find? fun w => decide (start ≤ (w.instant : Int)) with
      | some w => w.idx
      | none => x.nextIdx
    let flags := (if start < (oldest : Int) then 2 ^ 3 else 0) + (if x.comtrade then 2 ^ 8 else 0)
    let stop := match x.conds[cond]? with
      | some (c, _) => c.typ == 4 && bitOf c.op 0
      | none => false
    let r : AcqRec := ⟨x.recno, flags, g, at_, 0, 0, [], [], 0xFF, start.toNat, at_ + x.postNs, first, none, stop, false⟩
    let r := r.join cond (x.remote cond) origin
    let m := m.setSess s { x with
      recs := x.recs.set e r, open_ := some e, recno := (x.recno + 1) % 2 ^ 32, state := .recording, chg := 0 }
    let m := (m.acqCnt 0).acqEvent 1 0 s x.recno
    if !x.remote cond && (x.haulTx || x.global) then m.sendHaul 2 x.group (some t) else m

/-- A trigger on an open record (R354). -/
def Module.joinRec (m : Module) (s : Nat) (x : Session) (e : Nat) (r : AcqRec) (cond t origin g at_ : Nat) : Module :=
  if r.fin ≤ at_ then m.setSess s { x with late := x.late ++ [⟨cond, t, origin⟩] }
  else
    let stop := r.stop || (match x.conds[cond]? with
      | some (c, _) => c.typ == 4 && bitOf c.op 0
      | none => false)
    let r := { r with stop := stop }
    if g = r.trigG then
      (m.setSess s { x with recs := x.recs.set e (r.join cond (x.remote cond) origin) }).acqCnt 2
    else
      let full := decide (16 ≤ r.list.length)
      let r := if full then r else { r with list := r.list ++ [(cond, at_ % 2 ^ 32)] }
      let cap := r.trig + x.maxNs
      let want := at_ + x.postNs
      let r := if x.extend ∧ r.trig < at_ then
          (let r := { r with fin := max r.fin (min want cap) }
           if cap ≤ want then r.mark 6 else r)
        else r
      let m := m.setSess s { x with recs := x.recs.set e r }
      if full then m.acqCnt 3 else m

/-- A trigger of session s: a condition index, 32 software, 33 remote; its instant (ns) and origin (R353). -/
def Module.acqTrigger (m : Module) (s cond t origin : Nat) : Module :=
  match m.acq.sessions.get? s with
  | none => m
  | some x =>
    if !x.running then m.acqCnt 4
    else
      let f := m.sessRate x
      let g := gridAt f t
      let first := x.armRow.getD (x.lastG + 1)
      if g < first then m.acqCnt 4
      else
        match x.open_.bind fun e => (x.recs.get? e).map fun r => (e, r) with
        | none => m.openRec s x cond t origin g (gridNs f g)
        | some (e, r) => m.joinRec s x e r cond t origin g (gridNs f g)

/-- The open record's span has ended: it closes, the session goes on as R351, R353, R357 and R366 say, and the triggers
that belong to the next record act. -/
def Module.endRec (m : Module) (s : Nat) : Module :=
  match m.acq.sessions.get? s with
  | none => m
  | some x =>
    match x.open_.bind fun e => x.recs.get? e with
    | none => m
    | some r =>
      let m := m.closeRec s false
      let m :=
        if r.stop then m.haltSess s 2
        else if x.disarm ∨ x.global ∨ !x.autoRearm then m.modSess s fun y => { y with state := .idle, disarm := false }
        else m.modSess s fun y => { y with state := .armed }
      let m :=
        if x.armPending then m.armSess s
        else if x.global ∧ x.gmaster ∧ x.autoRearm ∧ !x.disarm ∧ !r.stop then m.armSess s
        else m
      let m := m.modSess s fun y => { y with late := [] }
      x.late.foldl (fun m l => m.acqTrigger s l.cond l.t l.origin) m

/-! ### Conditions of types 1 to 4 (R356, R357) -/

/-- A level comparison: whether it fires, whether it re-arms. Both sides are on one scale; `hyst` is at 0 or above.
DEDUCED, assumption 86. -/
def levelTest (op : Nat) (x th hyst : Int) : Bool × Bool :=
  if op = 0 then (decide (th ≤ x), decide (x < th - hyst)) else (decide (x ≤ th), decide (th + hyst < x))

/-- An armed condition fires on `hit`; one that is not armed re-arms on `again`. DEDUCED, assumption 86. -/
def CondSt.level (st : CondSt) (hit again : Bool) : CondSt × Bool :=
  if st.armed then ({ st with armed := !hit }, hit) else ({ st with armed := again }, false)

/-- One condition on a curd frame. The columns are numbered by channel entry within the session's analogue or binary
columns. DEDUCED, assumption 85. -/
def Module.evalCond (m : Module) (x : Session) (cd : Curd) (c : AcqCond) (st : CondSt) : CondSt × Bool :=
  let f := m.sessRate x
  let an := ((x.chans.filter (·.kind == 1))[c.ch]?).map fun k => (cd.val k.source).1
  let th := f32Decode (BitVec.ofNat 32 c.th)
  let hy := f32Scale (f32Decode (BitVec.ofNat 32 c.hyst))
  match c.typ, an with
  | 1, some v =>
    let d := f32Decode v
    if f32IsNaN d ∨ f32IsNaN th then (st, false)
    else
      let (hit, again) := levelTest (c.op % 2) (f32Scale d) (f32Scale th) hy
      st.level hit again
  | 2, some v =>
    let back := st.hist[c.lp - 1]?
    let st' := { st with hist := (v :: st.hist).take c.lp }
    match back with
    | none => (st', false)
    | some w =>
      let d := f32Decode v
      let d0 := f32Decode w
      if (f32Sub v w).bits = f32NaN ∨ f32IsNaN d ∨ f32IsNaN d0 ∨ f32IsNaN th then (st', false)
      else
        let (hit, again) := levelTest (c.op % 2) ((f32Scale d - f32Scale d0) * f) (f32Scale th * c.lp) (hy * c.lp)
        st'.level hit again
  | 4, some v =>
    let p := cd.g % f % c.lp
    let (lo, hi) := m.acq.masks.getD (c.hyst + p) (0, 0)
    let d := f32Decode v
    if f32IsNaN d then (st, false)
    else
      let bad := (!f32IsNaN (f32Decode lo) && decide (f32Scale d < f32Scale (f32Decode lo))) ||
        (!f32IsNaN (f32Decode hi) && decide (f32Scale (f32Decode hi) < f32Scale d))
      let n := if bad then 0 else st.clear + 1
      let st := { st with clear := n }
      st.level bad (decide (c.lp ≤ n))
  | 3, _ =>
    match (x.chans.filter fun k => k.kind == 2 || k.kind == 3 || k.kind == 4)[c.ch]? with
    | none => (st, false)
    | some k =>
      let b := m.acqBit k
      let hit := match st.prev with
        | none => false
        | some p =>
          if c.op % 4 = 0 then p == 0 && b else if c.op % 4 = 1 then p == 1 && !b else (p == 1) != b
      ({ st with prev := some (b2n b) }, hit)
  | _, _ => (st, false)

/-- Every condition of types 1 to 4 on a curd frame; those that fire act in ascending order. -/
def Module.evalConds (m : Module) (s : Nat) (cd : Curd) : Module :=
  match m.acq.sessions.get? s with
  | none => m
  | some x =>
    let res := x.conds.map fun (c, st) => (c, m.evalCond x cd c st)
    let m := m.setSess s { x with conds := res.map fun (c, st, _) => (c, st) }
    (res.zipIdx).foldl (fun m ((_, _, hit), i) => if hit then m.acqTrigger s i cd.instant 0xFF else m) m

/-! ### Trend channels (R359) -/

/-- An integer times 2^e rounded to 53 significant bits, ties to even. PRESUMED, assumption 87. -/
def f64Round (x : Int) (e : Int) : F64 :=
  let n := x.natAbs
  let k := n.log2 + 1 - 53
  let (r, _) := roundShift n k false
  .fin (if x < 0 then -(r : Int) else r) (e + k)

/-- A binary32 value added to a binary64 sum. PRESUMED, assumption 87. -/
def F64.add (a : F64) (v : Word) : F64 :=
  match a, f32Decode v with
  | .nan, _ => .nan
  | a, .nan _ => a
  | .inf n, .inf k => if n = k then .inf n else .nan
  | .inf n, _ => .inf n
  | _, .inf k => .inf k
  | .fin x e, .fin k y d =>
    let e' := min e d
    f64Round (x * 2 ^ (e - e').toNat + signedMag k y * 2 ^ (d - e').toNat) e'

/-- The binary64 pattern of a sum divided by 2^k; a sum of binary32 values is never below the normal range.
PRESUMED, assumption 87. -/
def F64.bitsDiv (a : F64) (k : Nat) : Nat :=
  match a with
  | .nan => 0x7FF8000000000000
  | .inf n => (if n then 2 ^ 63 else 0) + 0x7FF0000000000000
  | .fin x e =>
    if x = 0 then 0
    else
      let n := x.natAbs
      let top : Int := n.log2
      let mant := if 52 ≤ n.log2 then n / 2 ^ (n.log2 - 52) else n * 2 ^ (52 - n.log2)
      (if x < 0 then 2 ^ 63 else 0) + (e + top - k + 1023).toNat * 2 ^ 52 + mant % 2 ^ 52

def TrendAcc.init : TrendAcc := ⟨.fin 0 0, f32NaN, f32NaN, 0⟩

/-- A value of a trend channel: a NaN is skipped. PRESUMED, assumption 87. -/
def TrendAcc.take (a : TrendAcc) (v : Word) : TrendAcc :=
  if f32IsNaN (f32Decode v) then a
  else ⟨a.sum.add v, (f32MinMax false a.lo v).bits, (f32MinMax true a.hi v).bits, a.n + 1⟩

def Session.trendChans (x : Session) : List AcqChan := x.chans.filter (·.kind == 5)

/-- The bytes of a trend row. -/
def Session.trendBytes (x : Session) (instant q : Nat) (acc : List TrendAcc) : Bytes :=
  leBytes 4 instant ++ leBytes 4 q ++ acc.flatMap fun a =>
    leBytes 8 (if a.n = 0 then 0x7FF8000000000000 else a.sum.bitsDiv x.trendK) ++ leBytes 4 a.lo.toNat ++ leBytes 4 a.hi.toNat

/-- Takes a curd frame into the running window, and writes the trend row at its end; answers whether the ring was full
under PROTECT. -/
def Module.trendFrame (m : Module) (s : Nat) (cd : Curd) : Module × Bool :=
  match m.acq.sessions.get? s with
  | none => (m, false)
  | some x =>
    if x.trendChans = [] then (m, false)
    else
      let x : Session := if x.tcount = 0 then
          { x with tfrom := cd.instant, tq := 0, tacc := x.trendChans.map fun _ => TrendAcc.init } else x
      let acc := (x.tacc.zip x.trendChans).map fun (a, c) => a.take (cd.val c.source).1
      let x : Session := { x with tacc := acc, tq := qCombine x.tq (x.qsum cd), tcount := x.tcount + 1 }
      if x.tcount < 2 ^ x.trendK then (m.setSess s x, false)
      else
        let full := decide (x.trendSlots ≤ x.trend.length)
        let held := match x.trend.head? with
          | some w => if full then x.recs.any fun (_, r) => decide (r.start ≤ w.instant) && decide (w.instant < r.fin) else false
          | none => false
        if held && x.protect then (m.setSess s x, true)
        else
          let old := if full then x.trend.head? else none
          let m := match old with
            | some w => m.loseRecs s fun r => decide (r.start ≤ w.instant) && decide (w.instant < r.fin)
            | none => m
          let row : TrendRow := ⟨x.trendIdx, x.tfrom, x.trendBytes x.tfrom x.tq acc⟩
          let x := { x with
            recs := ((m.acq.sessions.get? s).map (·.recs)).getD x.recs
            trend := (if full then x.trend.drop 1 else x.trend) ++ (if x.trendSlots = 0 then [] else [row])
            trendIdx := x.trendIdx + 1, tcount := 0 }
          (m.setSess s x, false)

/-! ### Row writing and rate reduction (R355, R361) -/

/-- RD of a session without RESERVED follows the fill of its buffer. -/
def Module.adaptRate (m : Module) (s : Nat) (drained : Nat) : Module :=
  match m.acq.sessions.get? s with
  | none => m
  | some x =>
    let x := { x with buf := x.buf - drained }
    let m := m.setSess s x
    if x.reserved then m
    else
      let locked := x.open_.isSome && decide (16 ≤ x.chg)
      let up := decide (49152 < x.buf) && decide (x.rdLog < 6)
      let down := decide (x.buf < 16384) && decide (0 < x.rdLog) && decide (x.rdAt + 1000000 * nsUnit ≤ m.mono)
      if locked ∨ !(up || down) then m
      else
        let rd := if up then x.rdLog + 1 else x.rdLog - 1
        let m := m.setSess s { x with rdLog := rd, rdAt := m.mono, chg := if x.open_.isSome then x.chg + 1 else x.chg }
        let m := match x.open_ with
          | some e => m.modRec s e fun r => { r with rates := r.rates ++ [(x.nextIdx, rd)] }.mark 4
          | none => m
        let m := if up then m.flag (R.ACQ_SESS_STAT0_RATE_STK s) else m
        (m.acqCnt 8).acqEvent 4 rd s x.evRecno

/-- Writes the row of a frame; answers whether the ring was full under PROTECT. -/
def Module.writeRow (m : Module) (s : Nat) (cd : Curd) (poison : List Nat) : Module × Bool :=
  match m.acq.sessions.get? s with
  | none => (m, false)
  | some x =>
    if cd.seq % 2 ^ x.rdLog ≠ 0 then (m, false)
    else if !x.reserved ∧ 65536 < x.buf + x.slotBytes then
      let m := match x.open_ with
        | some e => m.modRec s e (·.mark 5)
        | none => m
      (m.acqCnt 7, false)
    else
      let full := decide (x.slots ≤ x.rows.length)
      let old := if full then x.rows.head? else none
      let held := match old with
        | some w => x.recs.any fun (_, r) => r.holdsAt w.idx w.instant
        | none => false
      if held && x.protect then (m, true)
      else
        let m := match old with
          | some w => m.loseRecs s fun r => r.holdsAt w.idx w.instant
          | none => m
        let row : AcqRow := ⟨x.nextIdx, cd.g, cd.instant, x.qsum cd, m.rowData x cd, cd.flags % 4 != 0,
          x.chans.any fun c => c.kind == 1 && poison.contains c.source⟩
        let m := m.modSess s fun x => { x with
          rows := (if full then x.rows.drop 1 else x.rows) ++ [row], nextIdx := x.nextIdx + 1
          armRow := some (x.armRow.getD cd.g), buf := if x.reserved then x.buf else x.buf + x.slotBytes }
        (m.wr (R.ACQ_SESS_STAT2_LAST_ROW s) cd.instant, false)

/-- The step whose row finds the ring full under PROTECT (R355). -/
def Module.ringFull (m : Module) (s : Nat) : Module := (m.closeRec s true).haltSess s 1

/-- A session's part of a visible curd frame. -/
def Module.sessFrame (m : Module) (s : Nat) (cd : Curd) (drained : Nat) (poison : List Nat) : Module :=
  match m.acq.sessions.get? s with
  | none => m
  | some x =>
    let ended := match x.open_.bind fun e => x.recs.get? e with
      | some r => decide (r.fin ≤ cd.instant)
      | none => false
    let m := if ended then m.endRec s else m
    let m := match m.acq.sessions.get? s with
      | some y =>
        if !y.running then m
        else
          let m := m.adaptRate s drained
          let (m, full) := m.writeRow s cd poison
          if full then m.ringFull s
          else
            let (m, full) := m.trendFrame s cd
            if full then m.ringFull s else m.evalConds s cd
      | none => m
    m.modSess s fun x => { x with lastG := cd.g }

/-- A copy of a curd frame whose poisoned channels (channel records) read as R476 says. -/
def Curd.poisoned (cd : Curd) (poison : List Nat) : Curd :=
  { cd with outs := cd.outs.map fun (c, v, q) => (c, if poison.contains c then (f32NaN, q / 4 * 4 + 1) else (v, q)) }

/-- CURD_FRAME_VISIBLE: vat rate v's oldest closed frame becomes visible; each session on it takes its row (R25, R345).
`drained` names, for sessions without RESERVED, the bytes that DRAM has taken from their buffers since the frame before;
`err` is what the reads for the rows found in Vat SRAM, `poison` the channel records in a codeword that is uncorrectable.
DEDUCED, assumption 67. -/
def mCurdFrameVisible (v : Nat) (drained : List (Nat × Nat)) (err : ReadErr) (poison : List Nat) (m : Module) : Module :=
  match m.curdVisible v with
  | none => m
  | some (m, cd) =>
    let m := m.readReport err 1 8 11 0xFFF 0
    let bad := if err.isUe then poison else []
    let m := (m.host.queues.filter fun (k, q) => decide (4 ≤ k % 8) && q.en && k % 8 - 4 == v && q.cause == 0).foldl
      (fun m (k, q) => { m with host := { m.host with queues := m.host.queues.set k { q with pend := q.pend ++ [cd.seq] } } }) m
    if !m.acqOn then m
    else m.acq.sessions.foldl (fun m (s, x) =>
      if x.vrate = v then
        m.sessFrame s (cd.poisoned bad) ((drained.find? (·.1 == s)).map (·.2) |>.getD 0) bad
      else m) m

/-! ### Field triggers and marks (R356, R358) -/

/-- The field of a frame that a condition selects, none where the frame is too short. DEDUCED, assumption 113. -/
def fieldOf (c : AcqCond) (raw : Bytes) (sel : Nat → Option Bytes) : Option Nat :=
  let n := bitsOf c.th 16 8
  let pos := bitsOf c.th 0 16
  let src := if bitOf c.op 5 then (if pos + n ≤ raw.length then some (raw.drop pos) else none) else sel pos
  match src with
  | none => none
  | some b => if n ≤ b.length then some (ofBe (b.take n)) else none

/-- A type-5 condition on a frame of its source. DEDUCED, assumption 113. -/
def fieldFires (c : AcqCond) (st : CondSt) (v : Nat) : CondSt × Bool :=
  let x := v &&& c.mask
  let op := c.op % 4
  if op = 0 then (st, x == c.value &&& c.mask)
  else if op = 1 then (st, x != c.value &&& c.mask)
  else ({ st with prev := some x }, match st.prev with
    | none => false
    | some p => p != x)

/-- FIELD_TRIGGER: a frame of a source of a kind (Table 14.6), with its ingress time, reaches the conditions on it. -/
def Module.fieldTrig (m : Module) (kind src : Nat) (raw : Bytes) (sel : Nat → Option Bytes) (t : Nat) : Module :=
  if !m.acqOn then m
  else m.acq.sessions.foldl (fun m (s, _) =>
    match m.acq.sessions.get? s with
    | none => m
    | some x =>
      if !x.running then m
      else
        let res := x.conds.map fun (c, st) =>
          if c.typ = 5 ∧ bitsOf c.op 2 3 = kind ∧ c.ch = src then
            match fieldOf c raw sel with
            | some v => (c, fieldFires c st v)
            | none => (c, st, false)
          else (c, st, false)
        let m := m.setSess s { x with conds := res.map fun (c, st, _) => (c, st) }
        (res.zipIdx).foldl (fun m ((_, _, hit), i) => if hit then m.acqTrigger s i t 0xFF else m) m) m

/-- A REC_MARK with a session mask and a mark code at a commit instant (R45, R356). -/
def Module.recMark (m : Module) (mask code t : Nat) : Module :=
  if !m.acqOn then m
  else (List.range 16).foldl (fun m s =>
    if !bitOf mask s then m
    else
      let hits := match m.acq.sessions.get? s with
        | some x => (x.conds.zipIdx).filter fun ((c, _), _) => c.typ == 7 && c.ch == code
        | none => []
      if hits = [] then m.acqCnt 14
      else hits.foldl (fun m (_, i) =>
        match m.acq.sessions.get? s with
        | some x => if x.running then m.acqTrigger s i t 0xFF else m
        | none => m) m) m

/-! ### Module modes -/

/-- ACQ sets its readiness bit: the sessions with ARM_AT_START arm. -/
def Module.acqReady (m : Module) : Module :=
  m.acq.sessions.foldl (fun m (s, x) => if bitOf x.flags 4 then m.setSess s x.armed else m) m

/-- SAFE-HOLD of the module, or FLUSH: records close with TRUNC and every session halts (R352). -/
def Module.acqHalt (m : Module) : Module :=
  if !m.ready 8 then m
  else m.acq.sessions.foldl (fun m (s, _) => (m.closeRec s true).haltSess s 3) m

/-! ### Session commands (R350, R351, R355) -/

def Module.sessResult (m : Module) (r : Nat) : Module :=
  (m.wr R.ACQ_SESS_CMD_STAT_RESULT r).flag R.ACQ_SESS_CMD_STAT_DONE_FLG

def Module.sessCmd (m : Module) (s : Nat) (f : Session → Module) : Module :=
  if m.mode = .reset then m
  else match m.acq.sessions.get? s with
    | none => m.sessResult 4
    | some x => if m.ready 8 then f x else m.sessResult 3

/-- Whether ARM and DISARM come only from the group (R366). -/
def Session.member (x : Session) : Bool := x.global && !x.gmaster

/-- What an ARM does; the RESULT. DEDUCED, assumption 85. -/
def Module.doArm (m : Module) (s : Nat) (x : Session) (pendInRecord : Bool) : Module × Nat :=
  match x.state with
  | .idle | .halted => if m.acqOn then (m.armSess s, 1) else (m, 3)
  | .armed => (m, 1)
  | .recording =>
    if x.disarm ∨ pendInRecord then (m.setSess s { x with armPending := true }, 2) else (m, 1)

/-- What a DISARM does. -/
def Session.disarmed (x : Session) : Session :=
  if x.state = .recording then { x with disarm := true, armPending := false }
  else { x with state := .idle, haltCause := 0, armPending := false }

/-- ARM. DEDUCED, assumption 85. -/
def mArm (s : Nat) (m : Module) : Module :=
  m.sessCmd s fun x =>
    if x.member then m.sessResult 3
    else
      let (m, r) := m.doArm s x false
      m.sessResult r

/-- DISARM. DEDUCED, assumption 85. -/
def mDisarm (s : Nat) (m : Module) : Module :=
  m.sessCmd s fun x =>
    if x.member then m.sessResult 3
    else
      let m := m.setSess s x.disarmed
      (if x.global then m.sendHaul 4 x.group none else m).sessResult 1

/-- TRIGGER: a software trigger. DEDUCED, assumption 85. -/
def mTrigger (s : Nat) (m : Module) : Module :=
  m.sessCmd s fun x =>
    let m := m.acqTrigger s 32 m.tns 0xFF
    m.sessResult (if x.running then 1 else 3)

/-- RELEASE of a directory entry and its rows; a read that is copying it ends first (R368). DEDUCED, assumption 85. -/
def mRelease (s e : Nat) (m : Module) : Module :=
  m.sessCmd s fun x =>
    match x.recs.get? e with
    | none => m.sessResult 3
    | some _ =>
      if x.open_ = some e then m.sessResult 3
      else if (match m.acq.read with
          | some r => r.session == s && r.entry == e
          | none => false) then (m.modRec s e fun r => { r with releasing := true }).sessResult 2
      else (m.setSess s { x with recs := x.recs.erase e }).sessResult 1

/-! ### Haulato messages (R362 to R367) -/

/-- The sessions' part of a message of a group. -/
def Module.haulAct (m : Module) (typ group origin : Nat) (t : Nat) : Module :=
  if !m.acqOn then m
  else m.acq.sessions.foldl (fun m (s, _) =>
    match m.acq.sessions.get? s with
    | none => m
    | some x =>
      if typ = 2 then
        let m := (x.conds.zipIdx).foldl (fun m ((c, _), i) =>
          if c.typ = 6 ∧ c.ch = group ∧ x.running then m.acqTrigger s i t origin else m) m
        if x.global ∧ x.group = group then m.acqTrigger s 33 t origin else m
      else if !(x.member ∧ x.group = group) then m
      else if typ = 3 then (m.doArm s x true).1
      else m.setSess s x.disarmed) m

/-- HAULATO_MESSAGE: a message received on IN or OUT whose SYNC arrived at t. -/
def mHaulatoMessage (onIn : Bool) (b : Bytes) (t : Nat) (m : Module) : Module :=
  if m.mode = .reset ∨ m.mode = .load ∨ !m.ready 8 then m
  else
    let m := m.reach t
    let typ := beAt b 1 1
    let origin := beAt b 2 1 % 16
    if b.length ≠ 18 ∨ beAt b 0 1 ≠ 0xA5 ∨ crc16 (slice b 1 15) ≠ beAt b 16 2 ∨ 16 ≤ beAt b 14 1 ∨
        origin = m.rd R.ACQ_CTRL_HAUL_ID then m.acqCnt 11
    else
      let dly := m.rd R.SYS_HAUL_IN_DLY_NS
      let acc := beAt b 10 4
      let relayed : Bytes := b.take 10 ++ beBytes 4 ((if onIn then acc + dly else acc) % 2 ^ 32) ++ beBytes 1 (beAt b 14 1 + 1) ++
        beBytes 1 (beAt b 15 1)
      let m := m.queueHaul (!onIn) ⟨relayed, false, some t, 0, 0⟩
      let seq := beAt b 4 2
      let seen := m.acq.seen.filter fun (_, _, t0) => decide (t < t0 + 10000000)
      if seen.any fun (o, q, _) => o == origin && q == seq then
        { m with acq := { m.acq with seen := seen } }.acqCnt 13
      else
        let m := { m with acq := { m.acq with seen := seen ++ [(origin, seq, t)] } }.acqCnt 10
        m.haulAct typ (beAt b 3 1) origin (t - ((if onIn then acc + dly else acc) + beAt b 6 4))

/-- The bytes of a queued message as it leaves at t: OFFSET_NS or the residence, and the segment out of IN. -/
def Module.haulBytes (m : Module) (toIn : Bool) (h : HaulMsg) (t : Nat) : Bytes :=
  let off := if h.own then (match h.at_ with
      | some t0 => t - t0
      | none => 0) else beAt h.bytes 6 4
  let res := if h.own then 0 else t - h.at_.getD t
  let seg := if toIn then m.rd R.SYS_HAUL_IN_DLY_NS else 0
  let body : Bytes := slice h.bytes 1 5 ++ beBytes 4 (off % 2 ^ 32) ++ beBytes 4 ((beAt h.bytes 10 4 + res + seg) % 2 ^ 32) ++
    slice h.bytes 14 2
  [0xA5] ++ body ++ beBytes 2 (crc16 body)

/-- HAULATO_SEND: the first message that may start towards IN or OUT starts at t on an idle segment, or collides and waits
for (1 + HAUL_ID) × 2 µs of idle (R364). An originator's second copy follows 10 µs or more after the first. -/
def mHaulatoSend (toIn collides : Bool) (t : Nat) (m : Module) : Module :=
  if m.mode = .reset ∨ m.mode = .load ∨ !m.ready 8 then m
  else
    let m := m.reach t
    let q := if toIn then m.acq.inQ else m.acq.outQ
    let put (m : Module) (q : List HaulMsg) : Module :=
      if toIn then { m with acq := { m.acq with inQ := q } } else { m with acq := { m.acq with outQ := q } }
    match q.find? fun h => decide (h.notBefore ≤ t) with
    | none => m
    | some h =>
      let rest := q.erase h
      if collides then
        (put m ({ h with notBefore := t + (1 + m.rd R.ACQ_CTRL_HAUL_ID) * 2000 } :: rest)).acqCnt 12
      else
        let m := (m.emit (.haulato (if toIn then 3 else 2) (m.haulBytes toIn h t))).acqCnt 9
        if h.own ∧ h.copy = 0 then put m (rest ++ [{ h with copy := 1, notBefore := t + 10000 }]) else put m rest

def execCurdFrameVisible (v : Nat) (drained : List (Nat × Nat)) (err : ReadErr) (poison : List Nat) (s : State) :
    Host.Outcome State Fault Refusal := s.upd (mCurdFrameVisible v drained err poison)
def execArm (k : Nat) (s : State) : Host.Outcome State Fault Refusal := s.upd (mArm k)
def execDisarm (k : Nat) (s : State) : Host.Outcome State Fault Refusal := s.upd (mDisarm k)
def execTrigger (k : Nat) (s : State) : Host.Outcome State Fault Refusal := s.upd (mTrigger k)
def execRelease (k e : Nat) (s : State) : Host.Outcome State Fault Refusal := s.upd (mRelease k e)
def execHaulatoMessage (onIn : Bool) (b : Bytes) (t : Nat) (s : State) : Host.Outcome State Fault Refusal :=
  s.upd (mHaulatoMessage onIn b t)
def execHaulatoSend (toIn collides : Bool) (t : Nat) (s : State) : Host.Outcome State Fault Refusal :=
  s.upd (mHaulatoSend toIn collides t)

end Sys2Proof.Machine
end

