-- ==== Sys2Proof/Machine/Frames.lean ====
section
/-!
DEFINITION. Decoded frames at EP: sampled values, GOOSE and LST (R200, R314, R420, R421), with the field triggers that look
at them (R358).
-/

namespace Sys2Proof.Machine

/-- SV_FRAME: a frame reaches the Vat through EP and is written at t; each ASDU that passes check 9 reaches the field
conditions on its stream. DEDUCED, assumptions 52 and 66. -/
def mSvFrame (x : SvFrame) (t : Nat) (m : Module) : Module :=
  match m.takeSv x t with
  | (m, none) => m
  | (m, some s) =>
    (x.asdus.filter fun a => decide (a.smpCnt < m.streamRate s)).foldl (fun m a =>
      m.fieldTrig 1 s x.raw (fun i => (a.data[i]?).map fun (v, q) => beBytes 4 v ++ beBytes 4 q) x.ingress) m

/-- An accepted PDU of connection c in a frame reaches the field conditions on it. -/
def Module.lstFields (m : Module) (c : Nat) (raw : Bytes) (ingress : Nat) : Module :=
  m.fieldTrig 2 c raw (fun i => ((m.lst.conns.get? c).map (·.data)).map (·.drop i)) ingress

/-- Whether GOOSE and LST frames are taken: SCH usable, and the switch forwards. -/
def Module.gooseOn (m : Module) : Bool := m.ready 5 && m.mode != .reset && m.mode != .load && m.mode != .flush

/-- One subscription's part of a GOOSE frame; where it carries LST, its octet string goes to the LST engine. -/
def Module.gooseFor (m : Module) (x : GooseFrame) (j : Nat) (r : GSubRec) : Module :=
  if m.gone 4 j then m else
  match m.judgeGoose x j r with
  | (m, false) => m
  | (m, true) =>
    let m := m.fieldTrig 0 j x.raw (fun i => x.members[i]?) x.ingress
    if !r.lst then m
    else match m.judgeLst r.lstConn (x.members.headD []) x.trailer x.ingress with
      | (m, true) => m.lstFields r.lstConn x.raw x.ingress
      | (m, false) => m

/-- GOOSE_FRAME: a frame reaches the subscriptions through EP at t; without one it is counted (R314).
DEDUCED, assumption 52. -/
def mGooseFrame (x : GooseFrame) (t : Nat) (m : Module) : Module :=
  let m := (m.reach t).takeEp fun c => (ethOf c.bytes).etype == 0x88B8
  if !m.gooseOn then m
  else match m.gooseSubs x with
    | [] => m.bump (R.SCH_CNT_CNT 13)
    | l => l.foldl (fun m (j, r) => m.gooseFor x j r) m

/-- LST_FRAME: a raw LST frame of input port p and an ingress time reaches the LST engine through EP at t.
DEDUCED, assumption 52. -/
def mLstFrame (b : Bytes) (p ingress t : Nat) (m : Module) : Module :=
  let m := (m.reach t).takeEp fun c => (ethOf c.bytes).etype == 0x88B5
  if !m.ready 11 ∨ m.mode = .reset ∨ m.mode = .load ∨ m.mode = .flush then m
  else match m.rawLst b p ingress with
    | (m, some c) => m.lstFields c b ingress
    | (m, none) => m

def execSvFrame (x : SvFrame) (t : Nat) (s : State) : Host.Outcome State Fault Refusal := s.upd (mSvFrame x t)
def execGooseFrame (x : GooseFrame) (t : Nat) (s : State) : Host.Outcome State Fault Refusal := s.upd (mGooseFrame x t)
def execLstFrame (b : Bytes) (p ingress t : Nat) (s : State) : Host.Outcome State Fault Refusal :=
  s.upd (mLstFrame b p ingress t)

end Sys2Proof.Machine
end

