-- ==== Sys2Proof/Machine/Crc.lean ====
section
/-!
DEFINITION. The check-value units' arithmetic (R462, R463).
-/

namespace Sys2Proof.Machine

/-- A unit's settings (R462), each cut to the unit's width. -/
structure CrcSet where
  w : Nat
  poly : Nat
  init : Nat
  xorout : Nat
  refin : Bool
  refout : Bool
  deriving DecidableEq, Repr

/-- The settings that unit u holds. -/
def Module.crcSet (m : Module) (u : Nat) : CrcSet :=
  let w := 8 * 2 ^ m.rd (R.CRC_CFG_WIDTH u)
  { w := w
    poly := m.rd64 (R.CRC_POLY_LO_VALUE u) (R.CRC_POLY_HI_VALUE u) % 2 ^ w
    init := m.rd64 (R.CRC_INIT_LO_VALUE u) (R.CRC_INIT_HI_VALUE u) % 2 ^ w
    xorout := m.rd64 (R.CRC_XOROUT_LO_VALUE u) (R.CRC_XOROUT_HI_VALUE u) % 2 ^ w
    refin := m.isOn (R.CRC_CFG_REFIN u)
    refout := m.isOn (R.CRC_CFG_REFOUT u) }

/-- The feed of one byte (R462). -/
def CrcSet.feed (c : CrcSet) (r : Nat) (b : Byte) : Nat := crcByte c.w c.poly c.refin r b

/-- The feed of bytes in order. -/
def CrcSet.feeds (c : CrcSet) (r : Nat) (l : Bytes) : Nat := l.foldl c.feed r

/-- fold_W of R463: the exclusive or of the 64 / W pieces of the tag. -/
def CrcSet.fold (c : CrcSet) (r tag : Nat) : Nat :=
  (List.range (64 / c.w)).foldl (fun a i => a ^^^ bitsOf tag (c.w * i) c.w) r

/-- The final value (R462). -/
def CrcSet.final (c : CrcSet) (r : Nat) : Nat := crcFinish c.w c.refout c.xorout r

/-- Whether unit u serves the engines (R464). -/
def Module.crcForEngines (m : Module) (u : Nat) : Bool := m.rd (R.CRC_OWNER_OWNER u) == 0

end Sys2Proof.Machine
end

