-- ==== Sys2Proof/Machine/Operands.lean ====
section
/-!
DEFINITION. The operand forms of the Kiljo instructions: the registers of a context (Table 10.2), the fields that each opcode
uses and the encodings that are defined (R266, R268), the qualifying predicate (R267), an instruction word's fields.
-/

namespace Sys2Proof.Machine

/-! ### Registers (Table 10.2) -/

def Ctx.getG (c : Ctx) (r : BitVec 6) : BitVec 64 := if r = 0 then 0 else c.g.getD r.toNat 0
/-- A write to g0 is ignored (R270). -/
def Ctx.setG (c : Ctx) (r : BitVec 6) (x : BitVec 64) : Ctx :=
  if r = 0 then c else { c with g := c.g.set r.toNat x }
/-- The fp32 operand in bits [31:0] of a g register (R271). -/
def Ctx.getF (c : Ctx) (r : BitVec 6) : Word := (c.getG r).setWidth 32
/-- An fp32 result: bits [63:32] are set to 0 (R271). -/
def Ctx.setF (c : Ctx) (r : BitVec 6) (x : Word) : Ctx := c.setG r (x.setWidth 64)
def Ctx.getP (c : Ctx) (n : Nat) : Bool := n % 8 == 0 || c.p.getLsbD (n % 8)
/-- A write to p0 is ignored (R270). -/
def Ctx.setP (c : Ctx) (n : Nat) (b : Bool) : Ctx :=
  if n % 8 = 0 then c
  else { c with p := if b then c.p ||| BitVec.ofNat 8 (2 ^ (n % 8)) else c.p &&& ~~~(BitVec.ofNat 8 (2 ^ (n % 8))) }
def Ctx.getV (c : Ctx) (r : BitVec 6) (l : Nat) : Word := c.v.getD (r.toNat % 32 * 8 + l) 0
/-- Writes lanes 0 to 7 of a vector register. -/
def Ctx.setV (c : Ctx) (r : BitVec 6) (x : Nat → Word) : Ctx :=
  { c with v := (List.range 8).foldl (fun m l => m.set (r.toNat % 32 * 8 + l) (x l)) c.v }
def sext64 (w : BitVec 32) : BitVec 64 := w.signExtend 64

/-! ### Encodings (R266, R268) -/

/-- How an instruction uses a 6-bit field: not at all (it must be 0), as a g register or other 6-bit value, as a
predicate (bits [2:0]), as a vector register (bits [4:0]). -/
inductive KRole where
  | z | g | p | v
  deriving DecidableEq, Repr

def KRole.ok : KRole → BitVec 6 → Bool
  | .z, x => x == 0
  | .g, _ => true
  | .p, x => decide (x.toNat < 8)
  | .v, x => decide (x.toNat < 32)

/-- An encoding: the roles of A, B and C, the SZ values that are defined, the IMM bits that are used. -/
structure KEnc where
  a : KRole
  b : KRole
  c : KRole
  szs : List (BitVec 2)
  immMask : BitVec 32

/-- The fields each opcode uses (Tables 11.2 to 11.12 and R287); none for an opcode that the chapter does not list. -/
def kEnc (op : Nat) : Option KEnc :=
  if 0x01 ≤ op ∧ op ≤ 0x0F then some ⟨.g, .g, .g, [0], 0⟩
  else if 0x10 ≤ op ∧ op ≤ 0x13 then some ⟨.g, .g, .z, [0], 0xFFFFFFFF⟩
  else if 0x14 ≤ op ∧ op ≤ 0x16 then some ⟨.g, .g, .z, [0], 0x3F⟩
  else if op = 0x17 ∨ op = 0x18 then some ⟨.g, .z, .z, [0], 0xFFFFFFFF⟩
  else if op = 0x19 then some ⟨.p, .g, .g, [0], 0x7⟩
  else if op = 0x1A then some ⟨.p, .g, .p, [0], 0xFFFFFFFF⟩
  else if op = 0x1B then some ⟨.p, .p, .p, [0], 0x3⟩
  else if op = 0x1C then some ⟨.g, .z, .z, [0], 0⟩
  else if op = 0x1D then some ⟨.z, .g, .z, [0], 0⟩
  else if 0x20 ≤ op ∧ op ≤ 0x24 ∨ op = 0x26 ∨ op = 0x27 then some ⟨.g, .g, .g, [0], 0⟩
  else if op = 0x25 ∨ op = 0x2A ∨ op = 0x2B then some ⟨.g, .g, .z, [0], 0⟩
  else if op = 0x28 then some ⟨.g, .g, .g, [0, 1, 2], 0⟩
  else if op = 0x29 then some ⟨.p, .g, .g, [0], 0x7⟩
  else if 0x40 ≤ op ∧ op ≤ 0x45 then some ⟨.v, .v, .v, [0], 0⟩
  else if op = 0x46 then some ⟨.v, .g, .z, [0], 0⟩
  else if op = 0x47 then some ⟨.g, .v, .z, [0], 0x7⟩
  else if op = 0x48 then some ⟨.v, .g, .z, [0], 0x7⟩
  else if op = 0x49 then some ⟨.g, .v, .z, [0], 0⟩
  else if op = 0x4A then some ⟨.g, .v, .v, [0], 0⟩
  else if op = 0x4B then some ⟨.v, .v, .g, [0], 0⟩
  else if 0x50 ≤ op ∧ op ≤ 0x52 then some ⟨.v, .v, .v, [0], 0⟩
  else if 0x53 ≤ op ∧ op ≤ 0x56 then some ⟨.v, .v, .z, [0], 0⟩
  else if op = 0x60 then some ⟨.g, .g, .g, [0, 1, 2, 3], 0xFFFFFFFF⟩
  else if op = 0x61 then some ⟨.g, .g, .p, [0, 1, 2, 3], 0xFFFFFFFF⟩
  else if op = 0x62 ∨ op = 0x63 then some ⟨.v, .g, .p, [2], 0xFFFFFFFF⟩
  else if op = 0x64 then some ⟨.g, .g, .z, [0], 0xFFFFFFFF⟩
  else if op = 0x65 then some ⟨.g, .z, .z, [0], 0xF⟩
  else if op = 0x66 then some ⟨.z, .g, .z, [0], 0x1⟩
  else if op = 0x67 then some ⟨.g, .z, .z, [0], 0x7⟩
  else if op = 0x68 ∨ op = 0x69 then some ⟨.v, .g, .g, [0], 0x3⟩
  else if op = 0x6A then some ⟨.g, .g, .z, [0], 0xF⟩
  else if 0x70 ≤ op ∧ op ≤ 0x72 then some ⟨.g, .g, .g, [0], 0xFFFFFFFF⟩
  else if op = 0x74 then some ⟨.g, .g, .g, [0, 1, 2], 0xFFFFFFFF⟩
  else if op = 0x80 then some ⟨.z, .z, .z, [0], 0xFFFFFFFF⟩
  else if op = 0x81 then some ⟨.z, .g, .z, [0], 0xFFFFFFFF⟩
  else if op = 0x82 then some ⟨.p, .g, .g, [0], 0xFFFFFFFF⟩
  else if op = 0x83 then some ⟨.p, .g, .g, [0], 0x3F⟩
  else if op = 0x84 ∨ op = 0x86 then some ⟨.z, .z, .z, [0], 0⟩
  else if op = 0x85 then some ⟨.z, .z, .z, [0], 0xFFFF⟩
  else if op = 0x90 then some ⟨.g, .g, .z, [2, 3], 0xFFFF⟩
  else if op = 0x91 then some ⟨.z, .z, .z, [0, 1], 0x0FFFFFFF⟩
  else if op = 0x92 then some ⟨.z, .g, .g, [0], 0x7FF⟩
  else if op = 0x93 then some ⟨.z, .g, .g, [0], 0xFFFF⟩
  else if op = 0x94 then some ⟨.z, .z, .z, [0], 0xFFFFFFFF⟩
  else if op = 0x95 ∨ op = 0x96 then some ⟨.z, .z, .z, [0], 0⟩
  else if op = 0xA0 ∨ op = 0xA4 then some ⟨.g, .z, .z, [0], 0x7⟩
  else if op = 0xA1 then some ⟨.g, .g, .z, [0, 1, 2], 0x7⟩
  else if op = 0xA2 then some ⟨.g, .g, .g, [0, 1, 2, 3], 0x7⟩
  else if op = 0xA3 then some ⟨.g, .g, .z, [0], 0x7⟩
  else if op = 0xB0 then some ⟨.z, .g, .z, [0], 0xFFFF⟩
  else none

/-- The field values that an instruction marks as undefined beyond unused fields (R268, R270 to R275, R282 to R284). -/
def kDefined (op : Nat) (w : Kw) : Bool :=
  let i := w.imm.toNat
  let c := w.c.toNat
  if op = 0x19 then decide (i < 6)
  else if op = 0x1A then decide (c < 6)
  else if op = 0x29 then decide (i < 5)
  else if op = 0x28 then w.sz == 2 || w.c == 0
  else if op = 0x60 then decide (c < 16) && decide (c % 8 < 5)
  else if op = 0x61 ∨ op = 0x62 ∨ op = 0x63 then decide (c < 5)
  else if op = 0x64 then decide (w.a.toNat < 3)
  else if op = 0x65 then decide (i < 6)
  else if op = 0x66 then i == 1
  else if op = 0x67 then decide (i < 6)
  else if op = 0x80 ∨ op = 0x82 then i % 8 == 0
  else if op = 0x92 then decide (60 ≤ i) && decide (i ≤ 1514)
  else if op = 0x93 then decide (c < 9)
  else true

/-- Whether an encoding is defined (R268). -/
def kEncodingOk (op : Nat) (w : Kw) : Bool :=
  match kEnc op with
  | none => false
  | some k => k.a.ok w.a && k.b.ok w.b && k.c.ok w.c && k.szs.contains w.sz
      && (w.imm &&& ~~~k.immMask) == 0 && kDefined op w

/-- Whether the qualifying predicate lets the instruction take effect (R267). -/
def Ctx.qualified (c : Ctx) (w : Kw) : Bool := c.getP w.qp.toNat != w.qn

/-- An instruction word's fields (Table 11.1). -/
def kFields (x : BitVec 64) : Nat × Kw :=
  (bitsOf x.toNat 56 8, ⟨x.extractLsb' 50 6, x.extractLsb' 44 6, x.extractLsb' 38 6, x.extractLsb' 35 3,
    x.getLsbD 34, x.extractLsb' 32 2, x.extractLsb' 0 32⟩)

end Sys2Proof.Machine
end

