-- ==== Sys2Proof/Machine/Flags.lean ====
section
/-!
DEFINITION. The sticky exception flags of a context's cs register (R244) and the write of an fp32 result with its flags.
-/

namespace Sys2Proof.Machine

/-- Sets sticky flags of cs (R244). -/
def Ctx.orCs (c : Ctx) (f : BitVec 5) : Ctx := { c with cs := c.cs ||| f.setWidth 32 }
def Ctx.setFR (c : Ctx) (r : BitVec 6) (x : FRes) : Ctx := (c.setF r x.bits).orCs x.flags

end Sys2Proof.Machine
end

