-- ==== Sys2Proof/Machine/KiljoOps.lean ====
section
/-!
DEFINITION. What the Kiljo instructions do to their own context (Kiljo Instruction Set): the memory checks of R274, the timers of R278, the staging limits of R284.
-/

namespace Sys2Proof.Machine

/-- The outcome of an instruction on its own context: it goes on, or an exception with its DETAIL and ADDR. -/
inductive KRes where
  | ok (c : Ctx)
  | exc (code detail addr : Nat)
  deriving DecidableEq, Repr

/-! ### Integer results (R270) -/

def kShift (w : BitVec 64) : Nat := w.toNat % 64

def satAdd (x y : BitVec 64) : BitVec 64 :=
  let s := x.toInt + y.toInt
  if s > (2 ^ 63 - 1 : Nat) then 0x7FFFFFFFFFFFFFFF
  else if s < -((2 ^ 63 : Nat) : Int) then 0x8000000000000000
  else BitVec.ofInt 64 s

/-- The conditions of CMP and CMPI: 0 EQ, 1 NE, 2 LT, 3 GE, 4 LTU, 5 GEU. -/
def kCond (n : Nat) (x y : BitVec 64) : Bool :=
  match n with
  | 0 => x == y
  | 1 => x != y
  | 2 => x.slt y
  | 3 => !x.slt y
  | 4 => x.ult y
  | _ => !x.ult y

/-! ### Vectors and complex numbers (R272, R273) -/

def fl2 (a b : BitVec 5) : BitVec 5 := a ||| b

/-- The fixed tree of R272. -/
def treeSum (l : Nat → Word) : FRes :=
  let a := f32Add (l 0) (l 1); let b := f32Add (l 2) (l 3)
  let c := f32Add (l 4) (l 5); let d := f32Add (l 6) (l 7)
  let ab := f32Add a.bits b.bits; let cd := f32Add c.bits d.bits
  let r := f32Add ab.bits cd.bits
  ⟨r.bits, a.flags ||| b.flags ||| c.flags ||| d.flags ||| ab.flags ||| cd.flags ||| r.flags⟩

/-- A complex number and the flags that computing it set. -/
structure CNum where
  re : Word
  im : Word
  flags : BitVec 5

def cmul (b c : CNum) : CNum :=
  let t := f32Mul b.im c.im
  let re := f32Fma b.re c.re (f32Flip t.bits)
  let u := f32Mul b.im c.re
  let im := f32Fma b.re c.im u.bits
  ⟨re.bits, im.bits, b.flags ||| c.flags ||| t.flags ||| re.flags ||| u.flags ||| im.flags⟩

def cadd (a b : CNum) : CNum :=
  let re := f32Add a.re b.re; let im := f32Add a.im b.im
  ⟨re.bits, im.bits, a.flags ||| b.flags ||| re.flags ||| im.flags⟩

def cscale (a : CNum) (k : Word) : CNum :=
  let re := f32Mul a.re k; let im := f32Mul a.im k
  ⟨re.bits, im.bits, a.flags ||| re.flags ||| im.flags⟩

def cconj (c : CNum) : CNum := ⟨c.re, f32Flip c.im, c.flags⟩

def cmag2 (b : CNum) : CNum :=
  let s := f32Mul b.im b.im
  let r := f32Fma b.re b.re s.bits
  ⟨r.bits, 0, s.flags ||| r.flags⟩

/-- cseq of R273: the zero, positive and negative sequence components of pairs 0, 1 and 2. -/
def cseq (x : Nat → CNum) : Nat → CNum :=
  let a : CNum := ⟨0xBF000000, 0x3F5DB3D7, 0⟩
  let a2 : CNum := ⟨0xBF000000, 0xBF5DB3D7, 0⟩
  let k3 : Word := 0x3EAAAAAB
  fun k =>
    if k = 0 then cscale (cadd (cadd (x 0) (x 1)) (x 2)) k3
    else if k = 1 then cscale (cadd (cadd (x 0) (cmul a (x 1))) (cmul a2 (x 2))) k3
    else if k = 2 then cscale (cadd (cadd (x 0) (cmul a2 (x 1))) (cmul a (x 2))) k3
    else ⟨0, 0, 0⟩

/-- Pair k of a vector register. -/
def Ctx.getC (c : Ctx) (r : BitVec 6) (k : Nat) : CNum := ⟨c.getV r (2 * k), c.getV r (2 * k + 1), 0⟩

/-- Writes four complex numbers and collects their flags. -/
def Ctx.setC (c : Ctx) (r : BitVec 6) (x : Nat → CNum) : Ctx :=
  let x0 := x 0; let x1 := x 1; let x2 := x 2; let x3 := x 3
  let pick (l : Nat) : CNum := if l / 2 = 0 then x0 else if l / 2 = 1 then x1 else if l / 2 = 2 then x2 else x3
  (c.setV r fun l => if l % 2 = 0 then (pick l).re else (pick l).im).orCs
    (x0.flags ||| x1.flags ||| x2.flags ||| x3.flags)

/-- A lane by lane operation and the flags of all its lanes. -/
def Ctx.mapV (c : Ctx) (r : BitVec 6) (f : Nat → FRes) : Ctx :=
  let x := (List.range 8).map f
  (c.setV r fun l => (x.getD l ⟨0, 0⟩).bits).orCs (x.foldl (fun a y => a ||| y.flags) 0)

/-! ### Memory spaces (Table 10.3, R245, R274) -/

/-- The base that a space adds: ib, ii, oi, or 0. -/
def Ctx.baseOf (c : Ctx) (sp : Nat) : BitVec 64 :=
  if sp = 0 then c.ib.setWidth 64 else if sp = 1 then c.ii.setWidth 64 else if sp = 2 then c.oi.setWidth 64 else 0

/-- The offset of an access, formed in 64 bits (R274). -/
def Ctx.effAddr (c : Ctx) (sp : Nat) (b : BitVec 6) (imm : BitVec 32) : Nat :=
  (c.baseOf sp + c.getG b + sext64 imm).toNat

/-- The bounds of a space: its first offset and the offset past its end. -/
def Layout.bounds (l : Layout) (sp : Nat) : Nat × Nat :=
  if sp = 0 then (l.winOff, l.winOff + l.winLen)
  else if sp = 1 then (0, l.inLen)
  else if sp = 2 then (0, l.outLen)
  else if sp = 3 then (0, l.locLen)
  else (0, l.constLen)

def Layout.inside (l : Layout) (sp off n : Nat) : Bool :=
  decide ((l.bounds sp).1 ≤ off) && decide (off + n ≤ (l.bounds sp).2)

/-- The check of R274, in order: the exception that fails first, if any. -/
def Ctx.memCheck (c : Ctx) (sp off n align : Nat) (store : Bool) : Option (Nat × Nat × Nat) :=
  if store && (sp == 1 || sp == 4) then some (4, sp, off)
  else if off % align ≠ 0 then some (3, sp, off)
  else if !c.lay.inside sp off n then some (2, sp, off)
  else if store && sp == 0 && decide (off < 64) then some (4, sp, off)
  else none

/-- A LOC byte: what the cycle wrote, else zero or the free value of R246. DESIGN CHOICE, assumption 16. -/
def Ctx.locByte (c : Ctx) (x : Nat) : Byte :=
  match c.loc.get? x with
  | some b => b
  | none => match c.locBase with
    | none => 0
    | some i => Config.freeLoc i x

/-- One byte of a space of the context area. -/
def Ctx.byteAt (c : Ctx) (sp x : Nat) : Byte :=
  if sp = 0 then c.instImg.getD x 0
  else if sp = 1 then c.inImg.getD x 0
  else if sp = 2 then c.outImg.getD x 0
  else c.locByte x

def Ctx.bytesAt (c : Ctx) (sp off n : Nat) : Bytes := (List.range n).map fun i => c.byteAt sp (off + i)

/-- LOC keeps every byte written, zeros too. -/
def putLoc (m : SMap Byte) (off : Nat) : Bytes → SMap Byte
  | [] => m
  | b :: r => putLoc (m.set off b) (off + 1) r

/-- Adds a granule number to a rising list without repeats. -/
def insNat (x : Nat) : List Nat → List Nat
  | [] => [x]
  | y :: r => if x < y then x :: y :: r else if x = y then y :: r else y :: insNat x r

/-- The granules of 32 bytes that n bytes at an offset touch. -/
def markDirty (l : List Nat) (off n : Nat) : List Nat :=
  if n = 0 then l
  else (List.range ((off + n - 1) / 32 - off / 32 + 1)).foldl (fun a i => insNat (off / 32 + i) a) l

/-- A write into INST, OUT or LOC; INST and OUT writes mark their granules dirty (R250). -/
def Ctx.storeBytes (c : Ctx) (sp off : Nat) (b : Bytes) : Ctx :=
  if sp = 0 then { c with instImg := memPut c.instImg off b, dirtyInst := markDirty c.dirtyInst off b.length }
  else if sp = 2 then { c with outImg := memPut c.outImg off b, dirtyOut := markDirty c.dirtyOut off b.length }
  else { c with loc := putLoc c.loc off b }

/-- A loaded value of n bytes, extended to 64 bits. -/
def extendLoad (b : Bytes) (sign : Bool) : BitVec 64 :=
  let v := ofLe b
  if sign then BitVec.ofInt 64 (signedOf v (8 * b.length)) else BitVec.ofNat 64 v

/-! ### Records (R250, R284, R285) -/

/-- Runs of consecutive granules of a rising list: first granule and count. -/
def granuleRuns : List Nat → List (Nat × Nat)
  | [] => []
  | x :: r =>
    match granuleRuns r with
    | [] => [(x, 1)]
    | (s, n) :: t => if s = x + 1 then (x, n + 1) :: t else (x, 1) :: (s, n) :: t

/-- The write entries of the dirty runs (R250): OUT runs, the last ending at OUT_LEN, then INST runs. -/
def Ctx.runEntries (c : Ctx) : List Entry :=
  ((granuleRuns c.dirtyOut).map fun (s, n) =>
    let e := if (s + n) * 32 ≤ c.lay.outLen then (s + n) * 32 else c.lay.outLen
    Entry.outWrite (s * 32) (c.bytesAt 2 (s * 32) (e - s * 32))) ++
  ((granuleRuns c.dirtyInst).map fun (s, n) => Entry.instWrite (s * 32) (c.bytesAt 0 (s * 32) (n * 32)))

/-- All entries of the record that COMMIT would form now. -/
def Ctx.recordEntries (c : Ctx) : List Entry := c.runEntries ++ c.staged

/-- Stages an entry, or exception 8 where the record would pass a limit (R284). -/
def Ctx.stage (c : Ctx) (e : Entry) : KRes :=
  let l := c.recordEntries ++ [e]
  if 32 + entriesSize l > 4096 ∨ l.length > 255 then .exc 8 l.length 0
  else .ok { c with staged := c.staged ++ [e] }

/-! ### Timers (R278) -/

/-- The fields of a timer state block (Table 10.5). -/
structure Timer where
  elapsed : Nat
  lastCt : Nat
  q : Bool
  prev : Bool
  run : Bool
  evaluated : Bool
  deriving DecidableEq, Repr

def Timer.ofBytes (b : Bytes) : Timer :=
  let s := leAt b 12 1
  ⟨leAt b 0 8, leAt b 8 4, bitOf s 0, bitOf s 1, bitOf s 2, bitOf s 3⟩

def Timer.toBytes (t : Timer) : Bytes :=
  leBytes 8 t.elapsed ++ leBytes 4 t.lastCt ++
    leBytes 1 (b2n t.q + 2 * b2n t.prev + 4 * b2n t.run + 8 * b2n t.evaluated) ++ [0, 0, 0]

/-- The elapsed step: 0 at a first evaluation or for a ct that is not later (R14, R278). -/
def Timer.dt (t : Timer) (ct : Nat) : Nat :=
  if !t.evaluated then 0
  else
    let d := (ct + 2 ^ 32 - t.lastCt % 2 ^ 32) % 2 ^ 32
    if 1 ≤ d ∧ d ≤ 2 ^ 31 - 1 then d else 0

def satElapsed (x : Nat) : Nat := if x > 2 ^ 64 - 1 then 2 ^ 64 - 1 else x

/-- What every primitive does last: PREV, LAST_CT, the evaluated bit and Q. -/
def Timer.finish (t : Timer) (input : Bool) (ct : Nat) (q : Bool) : Timer :=
  { t with prev := input, lastCt := ct % 2 ^ 32, evaluated := true, q := q }

def Timer.ton (t : Timer) (input : Bool) (pt ct : Nat) : Timer :=
  let d := t.dt ct
  if input then
    let t' := if !t.prev then { t with elapsed := 0, run := true }
      else if t.run then { t with elapsed := satElapsed (t.elapsed + d) } else t
    t'.finish input ct (decide (pt ≤ t'.elapsed))
  else { t with elapsed := 0, run := false }.finish input ct false

def Timer.tof (t : Timer) (input : Bool) (pt ct : Nat) : Timer :=
  let d := t.dt ct
  if input then { t with elapsed := 0, run := false }.finish input ct true
  else
    let t' := if t.prev then { t with elapsed := 0, run := true }
      else if t.run then { t with elapsed := satElapsed (t.elapsed + d) } else t
    let t'' := if t'.run && decide (pt ≤ t'.elapsed) then { t' with run := false } else t'
    t''.finish input ct t''.run

def Timer.tp (t : Timer) (input : Bool) (pt ct : Nat) : Timer :=
  let d := t.dt ct
  let t' :=
    if t.run then
      let e := satElapsed (t.elapsed + d)
      { t with elapsed := e, run := !decide (pt ≤ e) }
    else if input && !t.prev then { t with elapsed := 0, run := decide (0 < pt) }
    else t
  t'.finish input ct t'.run

/-- The block check of R281's list: the exception that fails first. -/
def Ctx.blockCheck (c : Ctx) (off size kind : Nat) : Option (Nat × Nat × Nat) :=
  if off + size > c.lay.instSize then some (2, 0, off)
  else if off < 64 then some (4, 0, off)
  else if off % size ≠ 0 ∨ !c.lay.inside 0 off size then some (9, kind, off)
  else none

/-- A timer primitive on its block: the checks, the read (which an uncorrectable error stops, R260), the evaluation,
the write back. -/
def Ctx.timerStep (c : Ctx) (w : Kw) (err : ReadErr) (f : Timer → Bool → Nat → Nat → Timer) : KRes :=
  let off := c.effAddr 0 w.b w.imm
  match c.blockCheck off 16 1 with
  | some (x, d, a) => .exc x d a
  | none =>
    if err.isUe then .exc 10 0 off
    else
      let t := Timer.ofBytes (c.bytesAt 0 off 16)
      let t' := f t (c.getP (w.a.toNat / 8)) (c.getG w.c).toNat c.ct
      .ok ((c.storeBytes 0 off t'.toBytes).setP (w.a.toNat % 8) t'.q)

end Sys2Proof.Machine
end

