-- ==== Sys2Proof/Machine/Sched.lean ====
section
/-!
DEFINITION. Dispatch, the overrun watchdog and the task commands (R295 to R307).
-/

namespace Sys2Proof.Machine

/-! ### Ordering and dispatch -/

/-- A ready cycle with what orders it (R295). -/
structure ReadyCycle where
  task : Nat
  ct : Nat
  level : Nat
  deadline : Nat
  deriving DecidableEq, Repr

/-- Whether a comes before b in the Ladle's order: level, deadline under R14, task ID. -/
def ReadyCycle.before (a b : ReadyCycle) : Bool :=
  if a.level ≠ b.level then decide (b.level < a.level)
  else if tsLater b.deadline a.deadline then true
  else if tsLater a.deadline b.deadline then false
  else decide (a.task ≤ b.task)

def insReady (x : ReadyCycle) : List ReadyCycle → List ReadyCycle
  | [] => [x]
  | y :: r => if x.before y then x :: y :: r else y :: insReady x r

/-- Whether the tasks of an instance may be dispatched: running, and no reset epoch still to come (R305, R337). -/
def Module.instDispatchable (m : Module) (i : Nat) : Bool :=
  m.rd (R.INS_INST_STAT_STATE i) == 2 &&
  (match m.ladle.holdInst.get? i with
   | some ep => decide (ep ≤ m.press.visible)
   | none => true)

/-- The ready cycles in the Ladle's order (R295); of a task only where its previous cycle has ended and its epoch is
visible or its record discarded (R292). The members of a rejected group are not dispatched (R49). -/
def Module.readyCycles (m : Module) : List ReadyCycle :=
  m.cul.tasks.foldl (fun acc (t, r) =>
    let x := m.task t
    if x.running.isSome ∨ x.handed.isSome ∨ !m.instDispatchable r.inst ∨ (r.groupEn && !m.isOn (R.PRS_GRP_CFG_EN r.group)) then acc
    else (x.opens.filter fun o => o.ready &&
        (x.state == .enabled || (x.state == .disabling && o.avoid.isSome))).foldl (fun acc o =>
      insReady ⟨t, o.ct, r.level, (o.ct + r.deadlineNs) % 2 ^ 32⟩ acc) acc) []

/-- The highest level among an engine's busy contexts, plus 1; 0 for an idle engine (R296). -/
def Engine.topLevel (g : Engine) : Nat := g.ctxs.foldl (fun a (_, x) => max a (x.level + 1)) 0

def Engine.freeCtxs (g : Engine) : List Nat := (List.range 4).filter fun c => (g.ctxs.get? c).isNone

/-- Whether an engine is a candidate for a cycle (R296). -/
def Module.candidate (m : Module) (r : TaskRec) (e : Nat) : Bool :=
  let g := m.engine e
  bitOf r.engines e && g.state == .inService && !(r.pclass && bitOf (m.rd R.SCH_SLOW_SLOW) e) &&
    decide ((if r.level < m.rd R.SCH_CTRL_RSV_LEVEL then 2 else 1) ≤ g.freeCtxs.length)

/-- The engine the Ladle chooses: lowest highest level, then fewest busy contexts, then lowest index (R296). -/
def Module.chooseEngine (m : Module) (cands : List Nat) : Option Nat :=
  cands.foldl (fun best e =>
    match best with
    | none => some e
    | some b =>
      let ge := m.engine e
      let gb := m.engine b
      if ge.topLevel < gb.topLevel ∨ (ge.topLevel = gb.topLevel ∧ ge.ctxs.length < gb.ctxs.length) then some e else some b)
    none

/-- The candidates for a ready cycle: a re-dispatch avoids the engine that aborted it where another candidate exists
(Table 12.5). DEDUCED, assumption 72. -/
def Module.candidates (m : Module) (t ct : Nat) (r : TaskRec) (used : List Nat) : List Nat :=
  let cs := (List.range 32).filter fun e => m.candidate r e && !used.contains e
  match ((m.task t).opens.find? (·.ct == ct)).bind (·.avoid) with
  | some a => let d := cs.filter (· != a); if d = [] then cs else d
  | none => cs

/-- Bytes of an image whose unlisted bytes are 0, as a sparse memory from offset 0 of the source range. -/
def imageRange (src : SMap Byte) (off n : Nat) : SMap Byte := src.filter fun (k, _) => decide (off ≤ k) && decide (k < off + n)

/-- The part of the input image that comes from the epoch of the capture: CT, variables and other tasks' outputs
(Table 12.3, kinds 5 and 6). DEDUCED, assumption 73. -/
def Module.epochImage (m : Module) (r : TaskRec) (ct : Nat) : SMap Byte :=
  ((m.cul.maps.drop r.mapFirst).take r.mapCount).foldl (fun img e =>
    if e.kind = 5 then
      let (q, v) := m.vars.getD e.source (0, 0)
      memPut img e.at_ (leBytes 4 q ++ [0, 0, 0, 0] ++ leBytes 8 v)
    else if e.kind = 6 then memPut img e.at_ (memBytes (m.outImg.getD e.source []) e.first e.len)
    else img) (memPut [] 0 (leBytes 4 ct))

/-- The context that a dispatch starts (Table 10.2, R243, R246, R249): registers at their values at dispatch, the
capture of the epoch state taken from the latest visible epoch. DEDUCED, assumption 73. -/
def Module.newCtx (m : Module) (t ct : Nat) (r : TaskRec) (present retries : Nat) (locBase : Option Nat) : Ctx where
  task := t
  inst := r.inst
  gen := m.gen r.inst
  ct := ct
  level := r.level
  group := if r.groupEn then some r.group else none
  order := m.ladle.order
  retries := retries
  present := present
  protectionClass := r.pclass
  epoch := m.press.visible
  lay := ⟨r.inLen, r.outLen, r.winOff, r.winLen, r.locLen, m.cul.instSizes.getD r.inst 262144, m.cul.consts.length⟩
  phase := .capturing
  firstAt := none
  missed := false
  g := []
  v := []
  p := 1
  ib := BitVec.ofNat 18 r.winOff
  ii := 0
  oi := 0
  pc := BitVec.ofNat 18 (m.cul.entries.getD r.entry 0)
  cs := 0
  stack := []
  inImg := m.epochImage r ct
  outImg := imageRange (m.outImg.getD t []) 0 r.outLen
  instImg := imageRange (m.instData r.inst) r.winOff r.winLen
  loc := []
  locBase := locBase
  dirtyOut := []
  dirtyInst := []
  staged := []

/-- Dispatches a ready cycle to a free context of an engine (R292, R296). -/
def Module.dispatch (m : Module) (t ct : Nat) (r : TaskRec) (e : Nat) : Module :=
  match (m.engine e).freeCtxs.head?, (m.task t).opens.find? (·.ct == ct) with
  | some c, some o =>
    let older := (m.task t).opens.filter fun x => tsLater ct x.ct
    let m := m.doActs (older.map fun x => .cancelOpen t x.ct 1)
    let x := m.task t
    let sameInst := (m.engine e).lastInst.get? c = some r.inst ∨ (m.engine e).lastInst.get? c = none
    let (i, m) := if sameInst then (let (i, m) := m.freshIdx; (some i, m)) else (none, m)
    let m := m.setCtx e c (m.newCtx t ct r (o.present.getD (o.bits ||| x.latest)) o.retries i)
    let m := m.setTask t { x with
      opens := x.opens.filter (·.ct != ct), running := some (e, c), lastDispatched := some ct
      latest := if o.present.isSome then x.latest else 0 }
    let m := { m with ladle := { m.ladle with order := m.ladle.order + 1 } }
    let m := match o.avoid with
      | some a => (m.trace 6 0 t ct e c a).bump (R.SCH_CNT_CNT 8)
      | none => m.trace 1 0 t ct e c 0
    (m.bump (R.SCH_CNT_CNT 2)).bump (R.BEN_CNT_CNT 0)
  | _, _ => m

/-- DISPATCH: one fabric cycle of dispatch, at most one per engine (R295). DEDUCED, assumption 75. -/
def mDispatch (m : Module) : Module :=
  if !m.tasksRun ∨ !m.ready 5 then m
  else
    (m.readyCycles.foldl (fun (acc : Module × List Nat) rc =>
      let (m, used) := acc
      match m.taskRec rc.task with
      | none => acc
      | some r =>
        if (m.task rc.task).running.isSome ∨ m.gone 6 rc.task then acc
        else match m.chooseEngine (m.candidates rc.task rc.ct r used) with
          | none => acc
          | some e => (m.dispatch rc.task rc.ct r e, e :: used)) (m, [])).1

/-! ### The overrun watchdog (R303) -/

/-- The record of an overrun and its count. -/
def Module.overrun (m : Module) (t ct cause e c : Nat) : Module :=
  let m : Module := if (m.taskRec t).any (·.pclass) then
      { m with red := { m.red with
        overruns := (m.red.overruns.filter fun x => decide (m.mono < x + 1000000000 * nsUnit)) ++ [m.mono] } }
    else m
  (((((m.trace 5 cause t ct e c 0).bump (R.SCH_CNT_CNT 6)).bump (R.SCH_TASK_STAT3_OVR_CNT t)).flag
    (R.SCH_TASK_STAT0_OVR_STK t)).noRecord t ct).doActs [.report t ct, .chain t ct, .consec t]

/-- BUDGET_OVERRUN: the window [first instruction, first instruction + BUDGET_NS) of the cycle in a context closes. -/
def mBudgetOverrun (e c : Nat) (m : Module) : Module :=
  match m.ctx? e c with
  | none => m
  | some x =>
    match x.firstAt, m.taskRec x.task with
    | some f, some r =>
      let m := m.reachMono (f + r.budgetNs * nsUnit)
      (m.abortCtx e c).overrun x.task x.ct 1 e c
    | _, _ => m

/-- DEADLINE_EXPIRY: the window [ct, ct + DEADLINE_NS) of a task's cycle closes: a dispatched or ready cycle overruns,
an open one whose operands are incomplete is cancelled with cause 3. -/
def mDeadlineExpiry (task ct : Nat) (m : Module) : Module :=
  match m.taskRec task with
  | none => m
  | some r =>
    let close := m.nsOfTs (ct % 2 ^ 32) + r.deadlineNs
    match (m.task task).running.bind fun (e, c) => (m.ctx? e c).map fun x => (e, c, x) with
    | some (e, c, x) =>
      if x.ct = ct then ((m.reach close).abortCtx e c).overrun task ct 2 e c
      else mOpen close m r
    | none => mOpen close m r
where
  /-- An open or ready cycle at its deadline. -/
  mOpen (close : Nat) (m : Module) (_ : TaskRec) : Module :=
    match (m.task task).opens.find? (·.ct == ct) with
    | none => m
    | some o =>
      let m := m.reach close
      if o.ready then
        ((m.modTask task fun x => { x with opens := x.opens.filter (·.ct != ct) }).endAttempt task o).overrun task ct 2 0 0
      else m.doActs [.cancelOpen task ct 3]

/-- PROGRESS_MARK: a protection-class cycle reaches PROG_PCT percent of its budget without a hand-off (R298).
DEDUCED, assumption 74. -/
def mProgressMark (e c : Nat) (m : Module) : Module :=
  match m.ctx? e c with
  | none => m
  | some x =>
    match x.firstAt, m.taskRec x.task with
    | some f, some r =>
      if x.protectionClass then
        (m.reachMono (f + r.budgetNs * nsUnit * m.rd R.SCH_CTRL_PROG_PCT / 100)).setCtx e c { x with missed := true }
      else m
    | _, _ => m

/-- SLOW_CLR: a PF write of SCH_SLOW_CLR. -/
def mSlowClr (mask : Nat) (m : Module) : Module :=
  if m.mode = .reset then m
  else m.wr R.SCH_SLOW_SLOW (m.rd R.SCH_SLOW_SLOW &&& (2 ^ 32 - 1 - mask % 2 ^ 32))

/-- TRACE_POP: releases the oldest trace record. -/
def mTracePop (m : Module) : Module := { m with ladle := { m.ladle with trace := m.ladle.trace.drop 1 } }

/-! ### Task commands (R306, R307) -/

def Module.taskResult (m : Module) (r : Nat) : Module :=
  (m.wr R.SCH_TASK_CMD_STAT_RESULT r).flag R.SCH_TASK_CMD_STAT_DONE_FLG

/-- What every task command checks first: an admitted task, not STOPPED. -/
def Module.taskCmd (m : Module) (t : Nat) (f : Module → Module) : Module :=
  if m.mode = .reset then m
  else if (m.taskRec t).isNone then m.taskResult 3
  else if (m.task t).state = .stopped then m.taskResult 4
  else f m

def mTaskEnable (t : Nat) (m : Module) : Module :=
  m.taskCmd t fun m =>
    let x := m.task t
    if x.state = .disabling then (m.setTask t { x with enablePending := true }).taskResult 2
    else (m.setTask t { x with state := .enabled }).taskResult 1

def mTaskDisable (t : Nat) (m : Module) : Module :=
  m.taskCmd t fun m =>
    let x := m.task t
    let st := if x.state = .disabled then .disabled else if x.running.isSome then .disabling else .disabled
    let m := m.setTask t { x with state := st, enablePending := false }
    (m.doActs (x.opens.map fun o => .cancelOpen t o.ct 5)).taskResult 1

def mTaskCancel (t : Nat) (m : Module) : Module :=
  m.taskCmd t fun m =>
    let x := m.task t
    let m := m.doActs (x.opens.map fun o => .cancelOpen t o.ct 4)
    let m := match x.running.bind fun (e, c) => (m.ctx? e c).map fun y => (e, c, y) with
      | some (e, c, y) => (m.abortCtx e c).doActs [.lost t y.ct 4 e c 0]
      | none => m
    m.taskResult 1

def execDispatch (s : State) : Host.Outcome State Fault Refusal := s.upd mDispatch
def execBudgetOverrun (e c : Nat) (s : State) : Host.Outcome State Fault Refusal := s.upd (mBudgetOverrun e c)
def execDeadlineExpiry (task ct : Nat) (s : State) : Host.Outcome State Fault Refusal := s.upd (mDeadlineExpiry task ct)
def execProgressMark (e c : Nat) (s : State) : Host.Outcome State Fault Refusal := s.upd (mProgressMark e c)
def execSlowClr (mask : Nat) (s : State) : Host.Outcome State Fault Refusal := s.upd (mSlowClr mask)
def execTracePop (s : State) : Host.Outcome State Fault Refusal := s.upd mTracePop
def execTaskEnable (task : Nat) (s : State) : Host.Outcome State Fault Refusal := s.upd (mTaskEnable task)
def execTaskDisable (task : Nat) (s : State) : Host.Outcome State Fault Refusal := s.upd (mTaskDisable task)
def execTaskCancel (task : Nat) (s : State) : Host.Outcome State Fault Refusal := s.upd (mTaskCancel task)

end Sys2Proof.Machine
end

