-- ==== Sys2Proof/Machine/Exc.lean ====
section
/-!
DEFINITION. Issue of an instruction from a context (R240, R241, R267 to R269), the capture point (R264), exceptions
(R256, Table 10.6) and the answer to an aborted attempt (Table 12.5).
-/

namespace Sys2Proof.Machine

/-! ### Issue -/

def Ctx.runnable (x : Ctx) : Bool := x.phase == .running

/-- The context an engine issues from: the runnable one of highest level, of equal level the one dispatched first
(R240). DESIGN CHOICE, assumption 27. -/
def Engine.issuer (g : Engine) : Option (Nat × Ctx) :=
  g.ctxs.foldl (fun best (c, x) =>
    if !x.runnable then best
    else match best with
      | none => some (c, x)
      | some (_, y) => if y.level < x.level ∨ (y.level = x.level ∧ x.order < y.order) then some (c, x) else best) none

/-- The words that BEN_DBG_SNAP takes (Ben registers). -/
def Ctx.snapWords (x : Ctx) : List Nat :=
  ((List.range 64).flatMap fun r =>
    let v := (x.getG (BitVec.ofNat 6 r)).toNat
    [v % 2 ^ 32, v / 2 ^ 32]) ++
  ((List.range 256).map fun i => (x.v.getD i 0).toNat) ++
  [x.p.toNat, x.ib.toNat, x.ii.toNat + 2 ^ 16 * x.oi.toNat, x.pc.toNat, x.ct % 2 ^ 32, x.cs.toNat,
   x.stack.length + x.inst % 4096 * 2 ^ 16, x.task % 8192]

/-- The capture point (R264): taken before the instruction acts (R257). The stall of 48 engine cycles passes time. -/
def Module.capturePoint (m : Module) (e c : Nat) (x : Ctx) : Module :=
  if m.mode = .test ∧ m.isOn R.BEN_DBG_ARM_EN ∧ m.rd R.BEN_DBG_ARM_ENGINE = e ∧ m.rd R.BEN_DBG_PC_PC = x.pc.toNat ∧
      (m.rd R.BEN_DBG_ARM_INST_EN = 0 ∨ m.rd R.BEN_DBG_ARM_INSTANCE = x.inst) then
    let m := (x.snapWords.zipIdx).foldl (fun m (v, w) => m.wr (R.BEN_DBG_SNAP_DATA w) v) m
    let m := ((m.flag R.BEN_DBG_STAT_HIT_FLG).wr R.BEN_DBG_STAT_CONTEXT c).wr R.BEN_DBG_ARM_EN 0
    (m.bump (R.BEN_CNT_CNT 7)).adv (32 * nsUnit)
  else m

/-! ### Aborted attempts -/

/-- Aborts the attempt in a context for a re-dispatch: the context is freed and the record discarded with cause 0;
the cycle has not ended. -/
def Module.dropAttempt (m : Module) (e c : Nat) (x : Ctx) : Module :=
  ((m.freeCtx e c).modTask x.task fun t => { t with running := none }).bump (R.PRS_DISC_CNT_CNT 0)

/-- The answer to exception 10 or 11 or a lockstep mismatch (Table 12.5): the cycle is ready again while it has
re-dispatches left and its deadline has not passed, else it is lost. -/
def Module.hardAbort (m : Module) (e c : Nat) (x : Ctx) : Module :=
  match m.taskRec x.task with
  | none => m.abortCtx e c
  | some r =>
    if x.retries < r.retry ∧ m.tns < m.nsOfTs (x.ct % 2 ^ 32) + r.deadlineNs then
      (m.dropAttempt e c x).modTask x.task fun t =>
        { t with opens := insOpen ⟨x.ct, r.waitMask, true, x.retries + 1, some e, some x.present⟩ t.opens }
    else (m.abortCtx e c).doActs [.lost x.task x.ct 8 e c 0]

/-! ### Exceptions -/

/-- Puts an entry into the exception ring (R256). -/
def Module.excEntry (m : Module) (code e c detail pc task inst gen ct addr : Nat) : Module :=
  let i := m.rd R.BEN_EXC_WR_NEXT
  let m := (((m.wr (R.BEN_EXC0_CODE i) code).wr (R.BEN_EXC0_ENGINE i) e).wr (R.BEN_EXC0_CONTEXT i) c).wr
    (R.BEN_EXC0_DETAIL i) detail
  let m := (((m.wr (R.BEN_EXC1_PC i) pc).wr (R.BEN_EXC1_TASK i) task).wr (R.BEN_EXC2_INSTANCE i) inst).wr
    (R.BEN_EXC2_GEN i) gen
  let m := ((m.wr (R.BEN_EXC3_CYCLE_TS i) ct).wr (R.BEN_EXC4_AT i) m.ts32).wr (R.BEN_EXC5_ADDR i) addr
  m.wr R.BEN_EXC_WR_NEXT (i + 1)

/-- Takes an exception of codes 1 to 12 in a context (R256): the entry, the counts, the event, the abort, and the
Ladle's answer. `pc` is the offending instruction's. -/
def Module.kExc (m : Module) (e c pc code detail addr : Nat) : Module :=
  match m.ctx? e c with
  | none => m
  | some x =>
    let m := m.excEntry code e c detail pc x.task x.inst x.gen x.ct addr
    let m := (m.bump (R.BEN_ENG_EXC_CNT_CNT e)).bump (R.BEN_CNT_CNT 3)
    let m := m.raiseIf R.BEN_CTRL_LOG_EN 7 1 code x.inst x.task (e + 2 ^ 8 * c + 2 ^ 16 * x.task)
    if code = 10 ∨ code = 11 then m.hardAbort e c x
    else (m.abortCtx e c).doActs [.fault x.task x.ct code e c]

/-- Writes back what an instruction did to its context, or takes its exception; `pc` is the instruction's. -/
def Module.kDone (m : Module) (e c pc : Nat) : KRes → Module
  | .ok x => m.setCtx e c x
  | .exc code detail addr => m.kExc e c pc code detail addr

/-- Issues an instruction with opcode op and fields w from context c of engine e; where e does not issue from c the
step has not come about. `f` receives the module and the context with its pc past the instruction. -/
def Module.issueM (m : Module) (e c op : Nat) (w : Kw) (f : Module → Ctx → Module) : Module :=
  match (m.engine e).issuer with
  | none => m
  | some (k, x) =>
    if k ≠ c then m
    else
      let m := m.capturePoint e c x
      let x := { x with firstAt := some (x.firstAt.getD m.mono) }
      let m := m.setCtx e c x
      if !kEncodingOk op w then m.kExc e c x.pc.toNat 1 0 0
      else
        let y := { x with pc := x.pc + 8 }
        if !x.qualified w then m.setCtx e c y else f m y

/-- The pc of the instruction being issued. -/
def Ctx.here (y : Ctx) : Nat := (y.pc - 8).toNat

/-- Issues an instruction that acts on its own context alone. DESIGN CHOICE, assumption 27. -/
def Module.issue (m : Module) (e c op : Nat) (w : Kw) (f : Ctx → KRes) : Module :=
  m.issueM e c op w fun m y => m.kDone e c y.here (f y)

/-- Issues an instruction that acts on its own context alone and raises no exception of its own. -/
def Module.issueP (m : Module) (e c op : Nat) (w : Kw) (f : Ctx → Ctx) : Module := m.issue e c op w fun y => .ok (f y)

end Sys2Proof.Machine
end

