-- ==== Sys2Proof/Machine/KStage.lean ====
section
/-!
DEFINITION. Staging, commit, check-value requests and trace marks (R284 to R287).
-/

namespace Sys2Proof.Machine

/-- FRMR: the first data word's byte 0 and the frame bytes copied from LOC (R284). -/
def Module.rawFrame (m : Module) (e c : Nat) (err : ReadErr) (x : Ctx) (w : Kw) : Module :=
  let off := (x.getG w.b).toNat
  let n := w.imm.toNat
  if !x.lay.inside 3 off n then m.kExc e c x.here 2 3 off
  else
    let m := m.readReport err 2 12 13 x.inst e
    if err.isUe then m.kExc e c x.here 10 3 off
    else m.kDone e c x.here (x.stage (.frameRaw ((x.getG w.c).setWidth 8) (x.bytesAt 3 off n)))

/-- Ends a cycle without a hand-off (R250, R285, R293, R304): the context is free, CONSEC_OVR is 0, and the cycle's
commit operand is delivered. DEDUCED, assumption 101. -/
def Module.endWithout (m : Module) (e c : Nat) : Module :=
  match m.ctx? e c with
  | none => m
  | some x =>
    let m := (m.freeCtx e c).endCycle x.task x.ct
    let m := m.modTask x.task fun t => { t with consecOvr := 0 }
    let m := (m.bump (R.SCH_CNT_CNT 4)).bump (R.BEN_CNT_CNT 2)
    ((m.trace 3 1 x.task x.ct e c 0).noRecord x.task x.ct).deliver 5 x.task x.ct

/-- COMMIT (R285): no entries, no hand-off; a record within its limits goes to the commit port and the context waits
for its hand-off. -/
def Module.commit (m : Module) (e c : Nat) (x : Ctx) : Module :=
  let l := x.recordEntries
  let len := 32 + entriesSize l
  if l = [] then (m.setCtx e c x).endWithout e c
  else if len > 4096 ∨ l.length > 255 then m.kExc e c x.here 8 l.length 0
  else
    let r : CRec := ⟨x.inst, x.gen, x.group, x.task, x.ct, len, l, e, c, x.epoch, 0, .cycle⟩
    m.setCtx e c { x with phase := .handing r }

/-- A check-value request (R286): exception 2 with DETAIL 5 where the unit does not serve the engines. The unit's
settings are those at the request. DEDUCED, assumption 26. -/
def Module.crcAsk (m : Module) (e c : Nat) (x : Ctx) (a : BitVec 6) (u : Nat) (f : CrcSet → Nat) : Module :=
  if !m.crcForEngines u then
    let (i, m) := m.freshIdx
    m.kExc e c x.here 2 5 (Config.freeWord i).toNat
  else m.setCtx e c { x with phase := .waiting (.crc a u (BitVec.ofNat 64 (f (m.crcSet u)))) }

/-- CRCB: 1 to 4,096 bytes from a space at its base + gB; exception 2 with the space's number otherwise (R286).
DEDUCED, assumptions 25 and 26. -/
def Module.crcBlock (m : Module) (e c : Nat) (err : ReadErr) (x : Ctx) (w : Kw) : Module :=
  let sp := w.sz.toNat
  let off := x.effAddr sp w.b 0
  let n := (x.getG w.c).toNat
  if n = 0 ∨ 4096 < n ∨ !x.lay.inside sp off n then m.kExc e c x.here 2 sp off
  else
    let m := m.readReport err 2 12 13 x.inst e
    if err.isUe then m.kExc e c x.here 10 sp off
    else m.crcAsk e c x w.a (w.imm.toNat % 8) fun s => s.feeds ((x.getG w.a).toNat % 2 ^ s.w) (x.bytesAt sp off n)

/-- A MARK record (Table 12.7); the issue offset from ct in units of 128 ns. -/
def Module.markTrace (m : Module) (x : Ctx) (w : Kw) : Module :=
  let off := (m.ts32 + 2 ^ 32 - x.ct % 2 ^ 32) % 2 ^ 32 / 128
  m.traceWords [x.getF w.b, BitVec.ofNat 32 x.ct, BitVec.ofNat 32 (7 + x.task * 2 ^ 3 + w.imm.toNat % 2 ^ 16 * 2 ^ 16),
    BitVec.ofNat 32 (x.inst % 4096 + off % 2 ^ 20 * 2 ^ 12)]

/-- PUBV: stages a VAR_PUB entry (R284). -/
def mPubv (e c : Nat) (w : Kw) (m : Module) : Module :=
  m.issue e c 0x90 w fun x => x.stage (.varPub (w.imm.toNat % 2 ^ 16) (x.getF w.a) (if w.sz = 2 then (x.getF w.b).setWidth 64 else x.getG w.b)
    (if w.sz = 2 then 4 else 8))
def execPubv (e c : Nat) (w : Kw) (s : State) : Host.Outcome State Fault Refusal := s.upd (mPubv e c w)

/-- FRM: stages a FRAME entry of kind 0 or 1 (R284). -/
def mFrm (e c : Nat) (w : Kw) (m : Module) : Module :=
  m.issue e c 0x91 w fun x => x.stage (.frame w.sz.toNat w.imm.toNat)
def execFrm (e c : Nat) (w : Kw) (s : State) : Host.Outcome State Fault Refusal := s.upd (mFrm e c w)

/-- FRMR: stages a raw FRAME entry copied from LOC (R284). DEDUCED, assumption 25. -/
def mFrmr (e c : Nat) (w : Kw) (err : ReadErr) (m : Module) : Module :=
  m.issueM e c 0x92 w fun m x => m.rawFrame e c err x w
def execFrmr (e c : Nat) (w : Kw) (err : ReadErr) (s : State) : Host.Outcome State Fault Refusal := s.upd (mFrmr e c w err)

/-- EVM: stages an EVENT_MARK entry (R284). -/
def mEvm (e c : Nat) (w : Kw) (m : Module) : Module :=
  m.issue e c 0x93 w fun x => x.stage (.eventMark w.imm.toNat (leBytes w.c.toNat (x.getG w.b).toNat))
def execEvm (e c : Nat) (w : Kw) (s : State) : Host.Outcome State Fault Refusal := s.upd (mEvm e c w)

/-- RECM: stages a REC_MARK entry (R284). -/
def mRecm (e c : Nat) (w : Kw) (m : Module) : Module :=
  m.issue e c 0x94 w fun x => x.stage (.recMark w.imm)
def execRecm (e c : Nat) (w : Kw) (s : State) : Host.Outcome State Fault Refusal := s.upd (mRecm e c w)

/-- COMMIT: forms the record and ends the cycle (R285). -/
def mCommit (e c : Nat) (w : Kw) (m : Module) : Module :=
  m.issueM e c 0x95 w fun m x => m.commit e c x
def execCommit (e c : Nat) (w : Kw) (s : State) : Host.Outcome State Fault Refusal := s.upd (mCommit e c w)

/-- DROP: ends the cycle without a record (R285). -/
def mDrop (e c : Nat) (w : Kw) (m : Module) : Module :=
  m.issueM e c 0x96 w fun m x => (m.setCtx e c x).endWithout e c
def execDrop (e c : Nat) (w : Kw) (s : State) : Host.Outcome State Fault Refusal := s.upd (mDrop e c w)

/-- CRCI: asks for a unit's initial value (R286). -/
def mCrci (e c : Nat) (w : Kw) (m : Module) : Module :=
  m.issueM e c 0xA0 w fun m x => m.crcAsk e c x w.a (w.imm.toNat % 8) fun s => s.init
def execCrci (e c : Nat) (w : Kw) (s : State) : Host.Outcome State Fault Refusal := s.upd (mCrci e c w)

/-- CRCF: feeds 1, 2 or 4 bytes (R286). -/
def mCrcf (e c : Nat) (w : Kw) (m : Module) : Module :=
  m.issueM e c 0xA1 w fun m x => m.crcAsk e c x w.a (w.imm.toNat % 8) fun s =>
    s.feeds ((x.getG w.a).toNat % 2 ^ s.w) (leBytes (2 ^ w.sz.toNat) (x.getG w.b).toNat)
def execCrcf (e c : Nat) (w : Kw) (s : State) : Host.Outcome State Fault Refusal := s.upd (mCrcf e c w)

/-- CRCB: feeds a block of a space (R286). DEDUCED, assumption 25. -/
def mCrcb (e c : Nat) (w : Kw) (err : ReadErr) (m : Module) : Module :=
  m.issueM e c 0xA2 w fun m x => m.crcBlock e c err x w
def execCrcb (e c : Nat) (w : Kw) (err : ReadErr) (s : State) : Host.Outcome State Fault Refusal := s.upd (mCrcb e c w err)

/-- CRCT: folds a tag (R286). -/
def mCrct (e c : Nat) (w : Kw) (m : Module) : Module :=
  m.issueM e c 0xA3 w fun m x => m.crcAsk e c x w.a (w.imm.toNat % 8) fun s =>
    s.fold ((x.getG w.a).toNat % 2 ^ s.w) (x.getG w.b).toNat
def execCrct (e c : Nat) (w : Kw) (s : State) : Host.Outcome State Fault Refusal := s.upd (mCrct e c w)

/-- CRCX: asks for the final value (R286). -/
def mCrcx (e c : Nat) (w : Kw) (m : Module) : Module :=
  m.issueM e c 0xA4 w fun m x => m.crcAsk e c x w.a (w.imm.toNat % 8) fun s => s.final ((x.getG w.a).toNat % 2 ^ s.w)
def execCrcx (e c : Nat) (w : Kw) (s : State) : Host.Outcome State Fault Refusal := s.upd (mCrcx e c w)

/-- TRC: appends a mark to the scheduling trace (R287). -/
def mTrc (e c : Nat) (w : Kw) (m : Module) : Module :=
  m.issueM e c 0xB0 w fun m x => (m.markTrace x w).setCtx e c x
def execTrc (e c : Nat) (w : Kw) (s : State) : Host.Outcome State Fault Refusal := s.upd (mTrc e c w)

end Sys2Proof.Machine
end

