-- ==== Sys2Proof/Machine/Capture.lean ====
section
/-!
DEFINITION. The end of a capture (R249, R299 to R301) and the answers of constant, global and check-value reads (R276,
R277, R286).
-/

namespace Sys2Proof.Machine

/-! ### Curd frames in the layout of Table 8.5 -/

/-- Bytes 0 to 31. -/
def Module.curdHeader (m : Module) (v : Nat) (cd : Curd) : Bytes :=
  let n := ((m.vat.rates.get? v).map (·.chans.length)).getD 0
  leBytes 8 cd.seq ++ leBytes 4 (cd.instant % 2 ^ 32) ++ leBytes 4 (cd.closeTs % 2 ^ 32) ++ leBytes 1 v ++
    leBytes 1 cd.cause ++ leBytes 2 cd.nsub ++ leBytes 4 n ++ leBytes 4 cd.flags ++ leBytes 4 0

/-- VALUE and QUALITY of vat channels first to first + n - 1; `poison` are channels of poisoned codewords (R476). -/
def Module.curdChans (m : Module) (v : Nat) (cd : Curd) (first n : Nat) (poison : List Nat) : Bytes :=
  let chans := ((m.vat.rates.get? v).map (·.chans)).getD []
  (List.range n).flatMap fun i =>
    let (x, q) := cd.val (chans.getD (first + i) 0)
    if poison.contains (first + i) then leBytes 4 f32NaN.toNat ++ leBytes 4 (q / 4 * 4 + 1)
    else leBytes 4 x.toNat ++ leBytes 4 q

/-- The frame of a vat rate that a row still holds: CURD_DEPTH further closes reuse it (R215). -/
def VRate.held (r : VRate) (p : Curd → Bool) : Option Curd :=
  r.rows.find? fun cd => p cd && decide (r.seq ≤ cd.seq + r.depth)

/-! ### Capture -/

/-- The frame that operand slot k of a task reads: the one of its instant, or for LATEST the latest (R299). None of the
former is a frame gone from its ring. -/
def Module.slotFrame (m : Module) (p : Operand) (ct : Nat) : Option Curd :=
  match m.vat.rates.get? p.source with
  | none => none
  | some r => if p.mode = 2 then r.held fun _ => true else r.held fun cd => cd.instant % 2 ^ 32 == ct

/-- The status block and dataset of a GOOSE subscription (Table 12.4). -/
def Module.gooseBlock (m : Module) (j : Nat) : Bytes :=
  let s := m.gsubSt j
  let n := ((m.cul.gsubs.get? j).map (·.dsLen)).getD 0
  leBytes 1 (m.rd (R.SCH_GSUB0_STATE j)) ++ leBytes 1 s.flags ++ [0, 0] ++ leBytes 4 (m.rd (R.SCH_GSUB1_ST_NUM j)) ++
    leBytes 4 (m.rd (R.SCH_GSUB2_SQ_NUM j)) ++ leBytes 4 (m.rd (R.SCH_GSUB3_ARRIVAL j)) ++ slice s.data 0 n

/-- Whether a frame that a task's capture needs has gone from its ring: the trigger's, or one that a map entry reads. -/
def Module.frameGone (m : Module) (r : TaskRec) (ct : Nat) (es : List MapEntry) : Bool :=
  (List.range r.ops.length).any fun k =>
    match r.ops[k]? with
    | some p => p.kind == 1 && p.mode != 2 && (m.slotFrame p ct).isNone &&
        (k == 0 || es.any fun e => (e.kind == 1 || e.kind == 2) && e.source == k)
    | none => false

/-- The bytes that a map entry of kinds 1 to 4 copies (Table 12.3); entries of kinds 5 and 6 were taken with the epoch. -/
def Module.mapBytes (m : Module) (r : TaskRec) (ct : Nat) (poison : List (Nat × Nat)) (e : MapEntry) : Option Bytes :=
  match r.ops[e.source]? with
  | some p =>
    if e.kind = 1 then
      let bad := (poison.filter (·.1 == p.source)).map (·.2)
      some (((m.slotFrame p ct).map fun cd => m.curdChans p.source cd e.first e.len bad).getD (List.replicate (8 * e.len) 0))
    else if e.kind = 2 then some (((m.slotFrame p ct).map (m.curdHeader p.source)).getD (List.replicate 32 0))
    else if e.kind = 3 then some (m.gooseBlock e.source)
    else if e.kind = 4 then some (m.lstBlock e.source)
    else none
  | none =>
    if e.kind = 3 then some (m.gooseBlock e.source)
    else if e.kind = 4 then some (m.lstBlock e.source)
    else none

/-- PRESENT: a LATEST curd operand whose rate has closed no frame is not present (R299). -/
def Module.presentOf (m : Module) (r : TaskRec) (ct present : Nat) : Nat :=
  (List.range 8).foldl (fun a k =>
    match r.ops[k]? with
    | some p =>
      if bitOf present k && !(p.kind == 1 && p.mode == 2 && (m.slotFrame p ct).isNone) then a + 2 ^ k else a
    | none => a) 0

/-- The capture that an engine runs: of the highest level, of equal level the one dispatched first (R249). -/
def Engine.capturer (g : Engine) : Option (Nat × Ctx) :=
  g.ctxs.foldl (fun best (c, x) =>
    if x.phase != .capturing then best
    else match best with
      | none => some (c, x)
      | some (_, y) => if y.level < x.level ∨ (y.level = x.level ∧ x.order < y.order) then some (c, x) else best) none

/-- The input image as captured (Tables 12.2, 12.3). -/
def Module.captureImage (m : Module) (x : Ctx) (r : TaskRec) (poison : List (Nat × Nat)) : SMap Byte :=
  let es := (m.cul.maps.drop r.mapFirst).take r.mapCount
  let img := es.foldl (fun img e =>
    match m.mapBytes r x.ct poison e with
    | some b => memPut img e.at_ b
    | none => img) x.inImg
  let seq := match r.ops[0]? with
    | some p => if p.kind = 1 then ((m.slotFrame p x.ct).map (·.seq)).getD 0 else 0
    | none => 0
  memPut (memPut img 4 (leBytes 1 (m.presentOf r x.ct x.present))) 8 (leBytes 8 seq)

/-- CAPTURE_DONE: the capture of context c of engine e completes. `dram` is what it found in instance data and the output image,
`curd` in curd rows, `poison` the vat rates and channels of an uncorrectable codeword there. A frame gone from its ring
cancels the cycle with cause 9; a context that outranks the one that issues preempts it (R241).
DESIGN CHOICE, assumption 9; DEDUCED, assumptions 28 and 73. -/
def mCaptureDone (e c : Nat) (dram curd : ReadErr) (poison : List (Nat × Nat)) (m : Module) : Module :=
  let g := m.engine e
  match g.capturer with
  | none => m
  | some (k, x) =>
    match m.taskRec x.task with
    | none => m
    | some r =>
      if k ≠ c then m
      else
        let m := (m.readReport dram 0 0 1 x.inst e).readReport curd 1 8 11 x.inst e
        if dram.isUe then m.doActs [.stop x.inst]
        else if m.frameGone r x.ct ((m.cul.maps.drop r.mapFirst).take r.mapCount) then
          (m.abortCtx e c).doActs [.lost x.task x.ct 9 e c 0]
        else
          let y := { x with inImg := m.captureImage x r (if curd.isUe then poison else []), phase := .running }
          let m := match g.issuer with
            | some (d, z) =>
              if z.level < x.level then (m.trace 2 0 z.task z.ct e d c).bump (R.SCH_CNT_CNT 9) else m
            | none => m
          m.setCtx e c y

/-! ### Answers -/

/-- A clock as RDCLK reads it (Table 11.7). -/
def Module.clockWord (m : Module) (sel : Nat) : Nat :=
  if sel = 0 then m.tns
  else if sel = 1 then m.ts32
  else if m.isOn (R.TIM_VC_CFG_EN (sel - 2)) then unsignedOf (m.vcNow (sel - 2)) 64
  else 0

/-- Answers a curd read of a rate up to a channel, with what the row's read found: the frame, or the exception (R276).
DEDUCED, assumption 73. -/
def Module.curdAnswer (m : Module) (rate seq last : Nat) (err : ReadErr) : Curd ⊕ Nat :=
  match m.vat.rates.get? rate with
  | none => .inr 2
  | some r =>
    let latest := (r.rows.head?.map (·.seq + 1)).getD 0
    if r.chans.length ≤ last ∨ latest ≤ seq then .inr 2
    else match r.held fun cd => cd.seq == seq with
      | some cd => if err.isUe then .inr 11 else .inl cd
      | none => .inr 11

/-- An exception of a global read: DETAIL 5; the spec gives no address. -/
def Module.globalExc (m : Module) (e c : Nat) (x : Ctx) (code : Nat) : Module :=
  let (i, m) := m.freshIdx
  m.kExc e c x.here code 5 (Config.freeWord i).toNat

/-- GLOBAL_READ_ANSWER: the answer that context c of engine e waits for is written and it is runnable, or the read raises its
exception; `err` is what the read found. -/
def mGlobalReadAnswer (e c : Nat) (err : ReadErr) (m : Module) : Module :=
  match m.ctx? e c with
  | none => m
  | some x =>
    let go (m : Module) (y : Ctx) : Module := m.setCtx e c { y with phase := .running }
    match x.phase with
    | .waiting (.clock a sel) => go m (x.setG a (BitVec.ofNat 64 (m.clockWord sel)))
    | .waiting (.curd q a seq first rate) =>
      let m := m.readReport err 1 8 11 x.inst e
      (match m.curdAnswer rate seq (first + 7) err with
       | .inl cd =>
         let b := m.curdChans rate cd first 8 []
         go m (x.setV a fun l => BitVec.ofNat 32 (leAt b (8 * l + (if q then 4 else 0)) 4))
       | .inr code => m.globalExc e c x code)
    | .waiting (.curdHdr a seq rate j) =>
      let m := m.readReport err 1 8 11 x.inst e
      (match m.curdAnswer rate seq 0 err with
       | .inl cd => go m (x.setG a (BitVec.ofNat 64 (leAt (m.curdHeader rate cd) (8 * j) 8)))
       | .inr code => m.globalExc e c x code)
    | .waiting (.constLd a off n sext) =>
      let m := m.readReport err 0 0 2 x.inst e
      if err.isUe then m.kExc e c x.here 11 4 off else go m (x.setG a (extendLoad (slice m.cul.consts off n) sext))
    | .waiting (.constVld a off) =>
      let m := m.readReport err 0 0 2 x.inst e
      if err.isUe then m.kExc e c x.here 11 4 off
      else go m (x.setV a fun l => BitVec.ofNat 32 (leAt m.cul.consts (off + 4 * l) 4))
    | .waiting (.crc a u result) => go (m.bump (R.CRC_REQ_CNT_CNT u)) (x.setG a result)
    | _ => m

def execCaptureDone (e c : Nat) (dram curd : ReadErr) (poison : List (Nat × Nat)) (s : State) :
    Host.Outcome State Fault Refusal := s.upd (mCaptureDone e c dram curd poison)
def execGlobalReadAnswer (e c : Nat) (err : ReadErr) (s : State) : Host.Outcome State Fault Refusal :=
  s.upd (mGlobalReadAnswer e c err)

end Sys2Proof.Machine
end

