-- ==== Sys2Proof/Machine/Host.lean ====
section
/-!
DEFINITION. The host interface (R318 to R343): violations and isolation, translation, doorbells, command and completion
queues, receive rings, curd export, shares.
-/

namespace Sys2Proof.Machine

def Module.insOn (m : Module) : Bool := m.ready 14 && m.mode != .reset && m.mode != .load && m.mode != .flush
def Module.insCnt (m : Module) (k : Nat) : Module := m.bump (R.INS_CNT_CNT k)
def Module.setHq (m : Module) (i q : Nat) (x : HQueue) : Module :=
  { m with host := { m.host with queues := m.host.queues.set (8 * i + q) x } }
def Module.owner (m : Module) (i : Nat) : Nat := m.rd (R.INS_INST_STAT_OWNER i)
def Module.isolated (m : Module) (i : Nat) : Bool := m.isOn (R.INS_INST_STAT_ISOLATED i)

/-- Whether function fn owns an admitted instance. -/
def Module.owns (m : Module) (fn i : Nat) : Bool := m.instAdmitted i && m.owner i == 0x100 + fn

/-- Whether an admitted instance is host-owned (R321). -/
def Module.hostOwned (m : Module) (i : Nat) : Bool :=
  m.instAdmitted i && decide (0x100 ≤ m.owner i) && decide (m.owner i < 0x200)

/-! ### Curd export admission (R328, R329) -/

/-- The export rate E of a ring of vat rate v, in MB/s. -/
def Module.exportRate (m : Module) (v : Nat) : Nat :=
  match m.vat.rates.get? v with
  | some r => ceilDiv ((32 + 8 * r.chans.length) * r.f) 1000000
  | none => 0

def Module.exportOf (m : Module) (i : Nat) : Nat :=
  (List.range 4).foldl (fun a v => if (m.hq i (4 + v)).en then a + m.exportRate v else a) 0

def Module.exportAll (m : Module) : Nat := m.instances.foldl (fun a i => a + m.exportOf i) 0

/-- The registers that show admitted export, and CAP_SHORT with its event (R320). -/
def Module.exportShown (m : Module) : Module :=
  let m := m.instances.foldl (fun m i => m.wr (R.INS_INST_USE_EXPORT_MBPS i) (m.exportOf i)) m
  let m := m.wr R.INS_EXPORT_LOAD_MBPS m.exportAll
  let short := decide (m.rd R.INS_DMA_CAP_MBPS < m.exportAll)
  let was := m.isOn R.INS_STATUS_CAP_SHORT
  let m := m.wr R.INS_STATUS_CAP_SHORT (b2n short)
  if short && !was then (m.flag R.INS_STATUS_CAP_SHORT_STK).raiseIf R.INS_CTRL_LOG_EN 15 3 0 0xFFFF 0xFFFF 0 else m

/-! ### Disabling queues -/

/-- Disables a queue with a cause; what it waited for is dropped. -/
def HQueue.off (q : HQueue) (cause : Nat) : HQueue := { q with en := false, cause := cause, pend := [], irqDue := false }

/-- Disables every queue of an instance with a cause; `clear` clears their configuration too (R340). -/
def Module.queuesOff (m : Module) (i cause : Nat) (clear : Bool) : Module :=
  let m := [0, 1, 2, 4, 5, 6, 7].foldl (fun m q =>
    m.setHq i q ((if clear then HQueue.init else m.hq i q).off cause)) m
  { m with host := { m.host with cmds := m.host.cmds.erase i, bufs := m.host.bufs.erase i } }.exportShown

/-- Flushes an instance's HP queue, counted (R337). -/
def Module.flushHp (m : Module) (i : Nat) : Module :=
  let n := (m.queue (.hp i)).length
  (m.setQueue (.hp i) []).bumpBy (R.SWC_HPQ_DROP_CNT_CNT i) n

/-! ### Violations and isolation (R341, R342) -/

/-- Isolates an instance. -/
def Module.isolate (m : Module) (i : Nat) : Module :=
  if m.isolated i then m
  else ((m.flag (R.INS_INST_STAT_ISOLATED i)).queuesOff i 5 false).insCnt 11
    |>.raiseIf R.INS_CTRL_LOG_EN 15 2 0 i 0xFFFF i

/-- The charged violations that the window [now - VIOL_WIN_MS, now) and the present hold. DEDUCED, assumption 79. -/
def Module.violIn (m : Module) (key : Nat) : List Nat :=
  (m.host.viol.getD key []).filter fun t => decide (m.mono ≤ t + m.rd R.INS_CTRL_VIOL_WIN_MS * 1000000 * nsUnit)

/-- Keeps the charged violations of an instance, or of 0x1000 + function, and shows their number. -/
def Module.setViol (m : Module) (key : Nat) (l : List Nat) : Module :=
  let m := { m with host := { m.host with viol := if l = [] then m.host.viol.erase key else m.host.viol.set key l } }
  m.wr (if key < 0x1000 then R.INS_INST_VIOL_WIN_CNT key else R.INS_FN_VIOL_WIN_CNT (key - 0x1000)) (min 65535 l.length)

/-- A host violation of a cause of Table 13.7, charged to an instance or to function fn: counted, logged, and answered with
isolation at VIOL_LIMIT. DEDUCED, assumption 79. -/
def Module.violation (m : Module) (cause fn : Nat) (inst : Option Nat) : Module :=
  let key := inst.getD (0x1000 + fn)
  let l := m.violIn key ++ [m.mono]
  let m := (m.insCnt 9).setViol key l
  let m := m.raiseIf R.INS_CTRL_LOG_EN 15 1 cause (inst.getD 0xFFFF) 0xFFFF key
  let hit := m.rd R.INS_CTRL_VIOL_LIMIT != 0 && decide (m.rd R.INS_CTRL_VIOL_LIMIT ≤ l.length)
  match inst with
  | some i =>
    let m := m.wr (R.INS_INST_VIOL_LAST_CAUSE i) cause
    if hit then m.isolate i else m
  | none =>
    if hit && fn != 0 then
      (m.instances.filter (m.owns fn)).foldl Module.isolate (m.flag (R.INS_FN_VIOL_ISOLATED fn))
    else m

/-- NARROW_WRITE: a write narrower than 32 bits by function fn (R18). -/
def mNarrowWrite (fn : Nat) (m : Module) : Module := m.violation 1 fn none

/-- VIOLATION_WINDOW_EXPIRY: the oldest charged violation of an instance, or of 0x1000 + function, leaves the window.
DEDUCED, assumption 79. -/
def mViolationWindowExpiry (key : Nat) (m : Module) : Module :=
  match m.host.viol.getD key [] with
  | [] => m
  | t :: r => (m.reachMono (t + m.rd R.INS_CTRL_VIOL_WIN_MS * 1000000 * nsUnit + 1)).setViol key r

/-! ### Translation (R334, R336) -/

def Module.pageSize (m : Module) (i : Nat) : Nat := if m.isOn (R.INS_INST_XLT_PAGE i) then 2097152 else 4096

def xltKey (i page : Nat) : Nat := i * 2 ^ 20 + page

/-- The pages that n bytes from an address lie on. -/
def Module.pagesOf (m : Module) (i addr n : Nat) : List Nat :=
  let ps := m.pageSize i
  (List.range ((addr + max 1 n - 1) / ps + 1 - addr / ps)).map (addr / ps + ·)

/-- Whether an instance's table lets the module read, or write, n bytes from an address. -/
def Module.reachable (m : Module) (i addr n : Nat) (write : Bool) : Bool :=
  (m.pagesOf i addr n).all fun p => decide (p < m.rd (R.INS_INST_XLT_XLT_PAGES i)) &&
    (let e := m.host.xlt.getD (xltKey i p) 0
     bitOf e 0 && bitOf e (if write then 2 else 1))

/-- The writes, by page, of bytes to an instance's address, with the owner's requester ID (R334). -/
def Module.hostPut (m : Module) (i addr : Nat) (b : Bytes) : Module :=
  let ps := m.pageSize i
  (m.pagesOf i addr b.length).foldl (fun m p =>
    let lo := max addr (p * ps)
    let hi := min (addr + b.length) ((p + 1) * ps)
    let bus := m.host.xlt.getD (xltKey i p) 0 / ps * ps + lo % ps
    m.emit (.hostWrite (m.owner i - 0x100) bus (slice b (lo - addr) (hi - lo)))) m

/-- A translation fault charged to an instance (R336). -/
def Module.xltFault (m : Module) (i : Nat) : Module := (m.insCnt 8).violation 6 0 (some i)

/-- Puts a host read in flight. -/
def Module.hostRead (m : Module) (i addr n : Nat) (u : ReadFor) : Module :=
  { m with host := { m.host with reads := m.host.reads ++ [⟨i, m.gen i, m.pagesOf i addr n, false, u⟩] } }

/-! ### Completions (R327) -/

/-- SEND frames under way, each of which will need a completion entry. -/
def Module.sending (m : Module) (i : Nat) : Nat :=
  (m.host.reads.filter fun r => r.inst == i && r.gen == m.gen i &&
    (match r.use_ with | .frame _ => true | _ => false)).length

/-- Whether the completion queue runs and has room for one more entry. -/
def Module.cqRoom (m : Module) (i : Nat) : Bool :=
  let q := m.hq i 1
  q.en && decide ((q.head + 2 ^ 16 - q.tail) % 2 ^ 16 + m.sending i < 2 ^ q.log2)

/-- Writes a completion entry (Table 13.4); a fault disables every queue of the instance. -/
def Module.complete (m : Module) (i cid status : Nat) (rx : Bool) (ts info : Nat) (irq : Bool) : Module :=
  let q := m.hq i 1
  let size := 2 ^ q.log2
  let phase := 1 - q.head / size % 2
  let b := leBytes 2 cid ++ leBytes 1 status ++ leBytes 1 (phase + 2 * b2n rx) ++ leBytes 4 ts ++ leBytes 8 info
  let addr := q.base + q.head % size * 16
  if m.reachable i addr 16 true then
    (m.hostPut i addr b).setHq i 1 { q with head := (q.head + 1) % 2 ^ 16, irqDue := q.irqDue || irq }
  else (m.xltFault i).queuesOff i 2 false

/-- COMPLETION_INTERRUPT: the vector of instance i's completion queue, at most once in each moderation window. -/
def mCompletionInterrupt (i : Nat) (m : Module) : Module :=
  let q := m.hq i 1
  if !q.en ∨ !q.irqDue then m
  else
    let m := match q.lastIrq with
      | some t => m.reachMono (t + q.modUs * 1000 * nsUnit)
      | none => m
    (m.setHq i 1 { q with irqDue := false, lastIrq := some m.mono }).emit (.msix (m.owner i - 0x100) q.vector)

/-! ### Commands (R326) -/

/-- The status with which an entry completes without being carried out; none for a sound one. -/
def CmdEntry.bad (c : CmdEntry) : Option Nat :=
  if c.opcode = 256 then some 3
  else if c.reserved ∨ c.opcode = 0 ∨ 3 < c.opcode ∨ 3 < c.flags then some 1
  else if c.opcode = 2 ∧ (c.len < 60 ∨ 9212 < c.len) then some 4
  else none

def Module.cmdsOf (m : Module) (i : Nat) : List CmdEntry := m.host.cmds.getD i []

def Module.setCmds (m : Module) (i : Nat) (l : List CmdEntry) : Module :=
  { m with host := { m.host with cmds := if l = [] then m.host.cmds.erase i else m.host.cmds.set i l } }

/-- Completes a command entry, the front one. -/
def Module.endCmd (m : Module) (i : Nat) (c : CmdEntry) (status info : Nat) : Module :=
  let m := (m.setCmds i ((m.cmdsOf i).drop 1)).insCnt 0
  m.complete i c.cid status false m.ts32 info (bitOf c.flags 1)

/-- Completes the unsound entries at the front while the completion queue has room (Table 13.7, cause 5).
DEDUCED, assumption 77. -/
def Module.drainBad (i : Nat) : Nat → Module → Module
  | 0, m => m
  | k + 1, m =>
    match m.cmdsOf i with
    | [] => m
    | c :: _ =>
      match c.bad with
      | none => m
      | some st =>
        if !m.cqRoom i ∨ m.isolated i ∨ 0 < m.sending i then m
        else
          let m := m.endCmd i c st 0
          drainBad i k (if st = 3 then m else m.violation 5 0 (some i))

/-- Fetches the next command entry where none is under way; an entry that the table does not reach is a faulty one.
DEDUCED, assumption 77. -/
def Module.fetchNext (i : Nat) : Nat → Module → Module
  | 0, m => m
  | k + 1, m =>
    let q := m.hq i 0
    let busy := m.host.reads.any fun r => r.inst == i && r.gen == m.gen i && r.use_ == .command
    if !q.en ∨ busy ∨ q.head = q.tail ∨ m.isolated i then m
    else
      let addr := q.base + q.head % 2 ^ q.log2 * 64
      if m.reachable i addr 64 false then m.hostRead i addr 64 .command
      else
        let (f, m) := m.freshIdx
        let c : CmdEntry := ⟨256, 0, (Config.freeWord f).toNat % 2 ^ 16, 0, 0, false⟩
        let m := (m.setCmds i (m.cmdsOf i ++ [c])).setHq i 0 { q with head := (q.head + 1) % 2 ^ 16 }
        fetchNext i k (m.xltFault i)

/-- What follows a change of an instance's queues: unsound entries complete, the next entry is fetched.
DEDUCED, assumption 77. -/
def Module.pump (m : Module) (i : Nat) : Module := Module.drainBad i 4096 (Module.fetchNext i 4096 (Module.drainBad i 4096 m))

/-- The front command entry of an instance, where it is sound, has an opcode and may complete. -/
def Module.frontCmd (m : Module) (i op : Nat) (f : CmdEntry → Module) : Module :=
  match m.cmdsOf i with
  | [] => m
  | c :: _ =>
    if !m.insOn ∨ c.bad.isSome ∨ c.opcode ≠ op ∨ !m.cqRoom i ∨ m.isolated i ∨ 0 < m.sending i then m else f c

/-- CMD_NOP. -/
def mCmdNop (i : Nat) (m : Module) : Module := m.frontCmd i 1 fun c => (m.endCmd i c 0 0).pump i

/-- CMD_TIME: INFO is the primary clock as total ns. -/
def mCmdTime (i : Nat) (m : Module) : Module := m.frontCmd i 3 fun c => (m.endCmd i c 0 m.tns).pump i

/-- CMD_SEND: the frame's fetch is issued; its completion follows when the frame is whole in the buffer. -/
def mCmdSend (i : Nat) (m : Module) : Module :=
  m.frontCmd i 2 fun c =>
    if m.reachable i c.addr c.len false then m.hostRead i c.addr c.len (.frame c)
    else ((m.endCmd i c 3 0).xltFault i).pump i

/-! ### Doorbells (R324) -/

/-- What every doorbell checks first: owner, isolation, an enabled queue, and its own range. -/
def Module.doorbell (m : Module) (fn i q : Nat) (ok : HQueue → Bool) (f : HQueue → Module) : Module :=
  if !m.insOn then m
  else if !m.owns fn i then m.violation 4 fn none
  else if m.isolated i then m.insCnt 12
  else
    let x := m.hq i q
    if !x.en ∨ !ok x then m.violation 4 fn (some i) else f x

def ringDist (a b : Nat) : Nat := (a + 2 ^ 16 - b % 2 ^ 16) % 2 ^ 16

/-- DB_COMMAND_TAIL. -/
def mDbCommandTail (fn i idx : Nat) (m : Module) : Module :=
  m.doorbell fn i 0 (fun q => decide (ringDist idx q.head ≤ 2 ^ q.log2)) fun q =>
    (m.setHq i 0 { q with tail := idx % 2 ^ 16 }).pump i

/-- DB_COMPLETION_HEAD. -/
def mDbCompletionHead (fn i idx : Nat) (m : Module) : Module :=
  m.doorbell fn i 1 (fun q => decide (ringDist idx q.tail ≤ ringDist q.head q.tail)) fun q =>
    (m.setHq i 1 { q with tail := idx % 2 ^ 16 }).pump i

/-- DB_RECEIVE_TAIL: the descriptors of the buffers posted are fetched. -/
def mDbReceiveTail (fn i idx : Nat) (m : Module) : Module :=
  m.doorbell fn i 2 (fun q => decide (ringDist idx q.head ≤ 2 ^ q.log2) && decide (ringDist q.tail q.head ≤ ringDist idx q.head)) fun q =>
    let new := (List.range (ringDist idx q.tail)).map fun k => (q.tail + k) % 2 ^ q.log2
    new.foldl (fun m d =>
      let addr := q.base + d * 16
      if m.reachable i addr 16 false then m.hostRead i addr 16 (.descriptor d)
      else { m with host := { m.host with bufs := m.host.bufs.set i (m.host.bufs.getD i [] ++ [(d, 2 ^ 64)]) } })
      (m.setHq i 2 { q with tail := idx % 2 ^ 16 })

/-- DB_EXPORT_CONSUMER of vat rate v. -/
def mDbExportConsumer (fn i v idx : Nat) (m : Module) : Module :=
  m.doorbell fn i (4 + v) (fun q => decide (ringDist idx q.tail ≤ ringDist q.head q.tail)) fun q =>
    m.setHq i (4 + v) { q with tail := idx % 2 ^ 16 }

/-! ### Reads that end (R338) -/

/-- The command entry that 64 bytes spell. -/
def cmdOf (b : Bytes) : CmdEntry :=
  ⟨leAt b 0 1, leAt b 1 1, leAt b 2 2, leAt b 8 8, leAt b 16 2, leAt b 4 4 != 0 || leAt b 18 46 != 0⟩

def Module.dropRead (m : Module) (k : Nat) : Module :=
  { m with host := { m.host with reads := m.host.reads.eraseIdx k } }

/-- HOST_READ_COMPLETION: the k-th read in flight is answered with data.
DESIGN CHOICE, assumption 8; DEDUCED, assumption 78. -/
def mHostReadCompletion (k : Nat) (data : Bytes) (m : Module) : Module :=
  match m.host.reads[k]? with
  | none => m
  | some r =>
    let m := m.dropRead k
    let i := r.inst
    if r.gen ≠ m.gen i then (m.insCnt 7).bump (R.INS_INST_LATE_CNT_CNT i)
    else if m.isolated i then m
    else match r.use_ with
      | .command =>
        let q := m.hq i 0
        if !q.en then m
        else ((m.setCmds i (m.cmdsOf i ++ [cmdOf data])).setHq i 0 { q with head := (q.head + 1) % 2 ^ 16 }).pump i
      | .descriptor d =>
        if !(m.hq i 2).en then m
        else { m with host := { m.host with bufs := m.host.bufs.set i (m.host.bufs.getD i [] ++ [(d, leAt data 0 8)]) } }
      | .frame c =>
        if !(m.hq i 0).en ∨ !(m.hq i 1).en then m
        else
          let (m, ok, seq) := m.sendHost i (slice data 0 c.len) (bitOf c.flags 0)
          ((m.endCmd i c (if bitOf c.flags 0 && !ok then 2 else 0) seq).insCnt 1).pump i

/-- HOST_ACCESS_TIMEOUT: the k-th read in flight ends without an answer. A command fetch is tried again; a SEND ends with
STATUS 3; a receive descriptor's buffer is one that faults. DEDUCED, assumption 77. -/
def mHostAccessTimeout (k : Nat) (m : Module) : Module :=
  match m.host.reads[k]? with
  | none => m
  | some r =>
    let m := m.dropRead k
    let i := r.inst
    if r.gen ≠ m.gen i ∨ m.isolated i then m
    else match r.use_ with
      | .command => m.pump i
      | .descriptor d => { m with host := { m.host with bufs := m.host.bufs.set i (m.host.bufs.getD i [] ++ [(d, 2 ^ 64)]) } }
      | .frame c => if (m.hq i 0).en ∧ (m.hq i 1).en then (m.endCmd i c 3 0).pump i else m

/-! ### Receive (R327) -/

/-- RECEIVE_DELIVERY: the oldest frame of instance i's HP queue goes into the next posted buffer.
DEDUCED, assumption 78. -/
def mReceiveDelivery (i : Nat) (m : Module) : Module :=
  match m.queue (.hp i), m.host.bufs.getD i [] with
  | c :: rest, (d, addr) :: more =>
    let q := m.hq i 2
    if !m.insOn ∨ !q.en ∨ !m.cqRoom i ∨ m.isolated i then m
    else
      let n := c.bytes.length
      let long := decide (q.aux % 2 ^ 15 < n)
      let ok := m.reachable i addr n true
      let m := m.setQueue (.hp i) rest
      let m := { m with host := { m.host with bufs := m.host.bufs.set i more } }
      let m := m.setHq i 2 { q with head := (q.head + 1) % 2 ^ 16 }
      let info := n % 2 ^ 14 + c.inp * 2 ^ 14 + c.vid * 2 ^ 18 + b2n c.tagged * 2 ^ 30
      if long then (m.insCnt 3).complete i d 5 true (c.ts % 2 ^ 32) info true
      else if ok then ((m.hostPut i addr c.bytes).insCnt 2).complete i d 0 true (c.ts % 2 ^ 32) info true
      else (m.complete i d 3 true (c.ts % 2 ^ 32) info true).xltFault i
  | _, _ => m

/-! ### Export (R328) -/

/-- EXPORT_FRAME_WRITE: the oldest frame that waits for instance i's ring of vat rate v; `err` and `poison` are what the read of the
row found (R476). -/
def mExportFrameWrite (i v : Nat) (err : ReadErr) (poison : List Nat) (m : Module) : Module :=
  let q := m.hq i (4 + v)
  match q.pend, m.vat.rates.get? v with
  | s :: rest, some r =>
    if !m.insOn ∨ !q.en ∨ m.isolated i then m
    else
      let q := { q with pend := rest }
      let n := 32 + 8 * r.chans.length
      let slot := ceilDiv n 64 * 64
      if 2 ^ q.log2 ≤ ringDist q.head q.tail then (m.setHq i (4 + v) q).insCnt 5
      else match r.held fun cd => cd.seq == s with
        | none => (m.setHq i (4 + v) q).insCnt 6
        | some cd =>
          let m := m.readReport err 1 8 11 i 0
          let addr := q.base + q.head % 2 ^ q.log2 * slot
          if m.reachable i addr n true && m.reachable i q.aux 8 true then
            let m := m.hostPut i addr (m.curdHeader v cd ++
              m.curdChans v cd 0 r.chans.length (if err.isUe then poison else []))
            let m := m.hostPut i q.aux (leBytes 8 (q.written + 1))
            (m.setHq i (4 + v) { q with head := (q.head + 1) % 2 ^ 16, written := q.written + 1 }).insCnt 4
          else ((m.setHq i (4 + v) (q.off 2)).xltFault i).exportShown
  | _, _ => m

/-! ### Queue configuration (R325, R329) -/

/-- Starts a queue: head, tail and producer from 0 (R325). -/
def HQueue.start (q : HQueue) : HQueue :=
  { q with en := true, cause := 0, head := 0, tail := 0, lastIrq := none, irqDue := false, written := 0, pend := [] }

/-- A write of word 2: EN, LOG2, VECTOR, MOD_US. -/
def Module.qcfgEn (m : Module) (i q v : Nat) : Module :=
  let x := m.hq i q
  let x1 := { x with log2 := if x.en then x.log2 else bitsOf v 1 4, vector := bitsOf v 5 9, modUs := bitsOf v 14 18 }
  if !bitOf v 0 then
    let m := m.setHq i q { x1 with en := false, pend := [], irqDue := false }
    let m := if q = 0 then m.setCmds i [] else if q = 2 then { m with host := { m.host with bufs := m.host.bufs.erase i } } else m
    m.exportShown
  else if x.en then m.setHq i q x1
  else if m.isolated i then m.setHq i q x1
  else if 4 ≤ q then
    let e := m.exportRate (q - 4)
    if m.rd (R.INS_INST_SHARE_DMA_MIN i) < m.exportOf i + e ∨ 40000 < m.exportAll + e then m.setHq i q { x1 with cause := 1 }
    else (m.setHq i q x1.start).exportShown
  else m.setHq i q x1.start

/-- QCFG_WRITE: function fn writes word w of INS_QCFG for the queue that its INS_QSEL names. -/
def mQcfgWrite (fn w v : Nat) (m : Module) : Module :=
  let i := m.qselInst fn
  let q := m.qselQueue fn
  if !m.insOn then m
  else if fn ≠ 0 ∧ !m.owns fn i then m.violation 8 fn none
  else if !m.hostOwned i ∨ q = 3 then m
  else
    let x := m.hq i q
    if w = 2 then m.qcfgEn i q v
    else if x.en then m
    else
      -- R19: the low word waits for the high word
      let key := fn * 2 ^ 33 + (if fn = 0 then 0x1000084 else vfBase + fn * 0x10000 + 0x44) + 4 * w
      let both (lo : Nat) : Nat := m.wlatch.getD (key - 4) lo + v % 2 ^ 32 * 2 ^ 32
      if w = 0 ∨ w = 3 then { m with wlatch := m.wlatch.set key (v % 2 ^ 32) }
      else if w = 1 then
        { m with wlatch := m.wlatch.erase (key - 4) }.setHq i q { x with base := both (x.base % 2 ^ 32) / 64 * 64 }
      else if w = 4 then
        { m with wlatch := m.wlatch.erase (key - 4) }.setHq i q { x with aux := both (x.aux % 2 ^ 32) }
      else m

/-! ### Shares (R333) -/

/-- SHARE_WRITE: a write of part 0 HP, 1 DMA or 2 REC of instance i's share, whole or refused. -/
def mShareWrite (i part v : Nat) (m : Module) : Module :=
  if m.mode = .reset ∨ !m.instAdmitted i then m
  else
    let mn := bitsOf v 0 16
    let w := bitsOf v 16 8
    let sum (f : Nat → Fld) : Nat := m.instances.foldl (fun a j => if j = i then a else a + m.rd (f j)) 0
    let bad :=
      if part = 0 then decide (60576 < m.minSum - m.guar (.hp i) + mn)
      else if part = 1 then decide (48000 < sum R.INS_INST_SHARE_DMA_MIN + mn) || decide (mn < m.exportOf i)
      else decide (4000 < sum R.INS_INST_SHARE_REC_MIN + mn)
    if bad then m.flag R.INS_STATUS_SHARE_REFUSED_STK
    else
      let m :=
        if part = 0 then (m.wr (R.INS_INST_SHARE_HP_HP_MIN i) mn).wr (R.INS_INST_SHARE_HP_HP_WEIGHT i) w
        else if part = 1 then (m.wr (R.INS_INST_SHARE_DMA_MIN i) mn).wr (R.INS_INST_SHARE_DMA_WEIGHT i) w
        else (m.wr (R.INS_INST_SHARE_REC_MIN i) mn).wr (R.INS_INST_SHARE_REC_WEIGHT i) w
      let m := m.wr R.INS_MIN_SUM_DMA (m.instances.foldl (fun a j => a + m.rd (R.INS_INST_SHARE_DMA_MIN j)) 0)
      m.wr R.INS_MIN_SUM_REC (m.instances.foldl (fun a j => a + m.rd (R.INS_INST_SHARE_REC_MIN j)) 0)

/-! ### Translation tables (R335) -/

def Module.xltResult (m : Module) (r : Nat) : Module := (m.wr R.INS_XLT_STAT_RESULT r).flag R.INS_XLT_STAT_DONE_FLG

/-- A table command acts: the reads that use the entries replaced are marked, and BUSY holds until they have ended. -/
def Module.xltReplace (m : Module) (i : Nat) (hit : Nat → Bool) (f : SMap Nat → SMap Nat) : Module :=
  let m := { m with host := { m.host with
    xlt := f m.host.xlt
    reads := m.host.reads.map fun (r : HRead) => if r.inst = i ∧ r.pages.any hit then { r with old := true } else r } }
  (m.wr R.INS_XLT_STAT_RESULT 0).flag R.INS_XLT_STAT_BUSY

/-- What both table commands check first. -/
def Module.xltCmd (m : Module) (f : Nat → Module) : Module :=
  let i := m.rd R.INS_XLT_INST_VALUE % 4096
  if m.mode = .reset ∨ m.isOn R.INS_XLT_STAT_BUSY then m
  else if !m.hostOwned i then m.xltResult 3
  else f i

/-- XLT_WRITE: sets the entry that the registers name. -/
def mXltWrite (m : Module) : Module :=
  m.xltCmd fun i =>
    let page := m.rd R.INS_XLT_PAGE_VALUE
    let e := m.rd64 R.INS_XLT_DATA_LO_ENTRY R.INS_XLT_DATA_HI_ENTRY
    if m.rd (R.INS_INST_XLT_XLT_PAGES i) ≤ page then m.xltResult 1
    else if bitsOf e 3 9 ≠ 0 ∨ (m.isOn (R.INS_INST_XLT_PAGE i) ∧ bitsOf e 12 9 ≠ 0) then m.xltResult 2
    else m.xltReplace i (· == page) fun x => if e = 0 then x.erase (xltKey i page) else x.set (xltKey i page) e

/-- Sets V = 0 in every entry of an instance. -/
def invalAll (i : Nat) (x : SMap Nat) : SMap Nat :=
  (x.map fun (k, e) => (k, if k / 2 ^ 20 = i then e / 2 * 2 else e)).filter fun (_, e) => e != 0

/-- INVAL_ALL. -/
def mInvalAll (m : Module) : Module := m.xltCmd fun i => m.xltReplace i (fun _ => true) (invalAll i)

/-- XLT_DRAIN_DONE: no access that used a replaced entry is left. -/
def mXltDrainDone (m : Module) : Module :=
  if m.isOn R.INS_XLT_STAT_BUSY ∧ !m.host.reads.any (·.old) then
    (m.wr R.INS_XLT_STAT_BUSY 0).flag R.INS_XLT_STAT_DONE_FLG
  else m

def execNarrowWrite (fn : Nat) (s : State) : Host.Outcome State Fault Refusal := s.upd (mNarrowWrite fn)
def execViolationWindowExpiry (key : Nat) (s : State) : Host.Outcome State Fault Refusal := s.upd (mViolationWindowExpiry key)
def execCompletionInterrupt (i : Nat) (s : State) : Host.Outcome State Fault Refusal := s.upd (mCompletionInterrupt i)
def execCmdNop (i : Nat) (s : State) : Host.Outcome State Fault Refusal := s.upd (mCmdNop i)
def execCmdTime (i : Nat) (s : State) : Host.Outcome State Fault Refusal := s.upd (mCmdTime i)
def execCmdSend (i : Nat) (s : State) : Host.Outcome State Fault Refusal := s.upd (mCmdSend i)
def execDbCommandTail (fn i idx : Nat) (s : State) : Host.Outcome State Fault Refusal := s.upd (mDbCommandTail fn i idx)
def execDbCompletionHead (fn i idx : Nat) (s : State) : Host.Outcome State Fault Refusal := s.upd (mDbCompletionHead fn i idx)
def execDbReceiveTail (fn i idx : Nat) (s : State) : Host.Outcome State Fault Refusal := s.upd (mDbReceiveTail fn i idx)
def execDbExportConsumer (fn i v idx : Nat) (s : State) : Host.Outcome State Fault Refusal :=
  s.upd (mDbExportConsumer fn i v idx)
def execHostReadCompletion (k : Nat) (data : Bytes) (s : State) : Host.Outcome State Fault Refusal :=
  s.upd (mHostReadCompletion k data)
def execHostAccessTimeout (k : Nat) (s : State) : Host.Outcome State Fault Refusal := s.upd (mHostAccessTimeout k)
def execReceiveDelivery (i : Nat) (s : State) : Host.Outcome State Fault Refusal := s.upd (mReceiveDelivery i)
def execExportFrameWrite (i v : Nat) (err : ReadErr) (poison : List Nat) (s : State) : Host.Outcome State Fault Refusal :=
  s.upd (mExportFrameWrite i v err poison)
def execQcfgWrite (fn w v : Nat) (s : State) : Host.Outcome State Fault Refusal := s.upd (mQcfgWrite fn w v)
def execShareWrite (i part v : Nat) (s : State) : Host.Outcome State Fault Refusal := s.upd (mShareWrite i part v)
def execXltWrite (s : State) : Host.Outcome State Fault Refusal := s.upd mXltWrite
def execInvalAll (s : State) : Host.Outcome State Fault Refusal := s.upd mInvalAll
def execXltDrainDone (s : State) : Host.Outcome State Fault Refusal := s.upd mXltDrainDone

end Sys2Proof.Machine
end

