-- ==== Sys2Proof/Machine/Evr.lean ====
section
/-!
DEFINITION. The event recorder's writer and the Cave (R375 to R388): records in both layouts, the log ring, the
header copies, freeze and thaw, the buffer of the ZT2200 layout, start-up and FLUSH.
-/

namespace Sys2Proof.Machine

/-! ### Records -/

/-- A native record (Table 15.2). -/
def EvRec.native (r : EvRec) : Bytes :=
  let len := 16 * ceilDiv (44 + 8 * r.vals.length) 16
  let body := leBytes 2 len ++ leBytes 1 r.typ ++ leBytes 1 r.vals.length ++ leBytes 8 r.seq ++ leBytes 8 r.time ++
    leBytes 2 r.code ++ leBytes 1 r.source ++ leBytes 1 r.flags ++ leBytes 2 r.inst ++ leBytes 2 r.task ++
    leBytes 1 r.dlen ++ [0, 0, 0] ++ leBytes 8 r.data ++ (r.vals.map (leBytes 8)).flatten
  let body := body ++ List.replicate (len - 4 - body.length) 0
  body ++ leBytes 4 (crc32c body)

/-- A PAD record of n bytes (R375). -/
def padRecord (n : Nat) : Bytes :=
  let body := leBytes 2 n ++ leBytes 1 2 ++ List.replicate (n - 7) 0
  body ++ leBytes 4 (crc32c body)

/-- SOURCE and CODE of a ZT2200 record: 0xFE, 0xFD and 0xFC for LOST, START and FORMAT (R377). -/
def EvRec.ztSource (r : EvRec) : Nat :=
  if r.typ = 1 then 0xFE else if r.typ = 3 then 0xFD else if r.typ = 4 then 0xFC else r.source

/-- A ZT2200 record (Table 15.4): the first 8 items, each cut to its low 32 bits. -/
def EvRec.zt (r : EvRec) : Bytes :=
  let v := r.vals.take 8
  let trunc := decide (8 < r.vals.length) || v.any fun x => decide (2 ^ 32 ≤ x)
  let body := leBytes 4 r.seq ++ leBytes 4 (r.time / 1000000000) ++ leBytes 4 (r.time % 1000000000) ++
    leBytes 2 (if r.typ = 0 then r.code else 0) ++ leBytes 1 r.ztSource ++ leBytes 1 (v.length + 128 * b2n trunc) ++
    leBytes 8 r.data ++ (v.map (leBytes 4)).flatten
  let body := body ++ List.replicate (62 - body.length) 0
  body ++ leBytes 2 (crc16 body)

/-! ### The Cave (Table 15.6) -/

def logStart : Nat := 0x020000
def logEnd : Nat := 0x1000000

/-- The length of the record at an offset of the log region. -/
def Evr.lenAt (e : Evr) (p : Nat) : Nat :=
  if e.layout = 1 then 64 else let l := ofLe (memBytes e.cave p 2); if l < 16 then 16 else l

/-- HEAD past one record. -/
def Evr.advanceHead (e : Evr) : Evr :=
  let p := e.head + e.lenAt e.head
  { e with head := if p ≥ logEnd then logStart else p, full := false }

/-- Advances HEAD past whole records until n bytes at TAIL are free (R386). -/
def Evr.makeRoom : Nat → Nat → Evr → Evr
  | 0, _, e => e
  | k + 1, n, e =>
    if (e.head = e.tail ∧ e.full) ∨ (e.tail < e.head ∧ e.head < e.tail + n) then makeRoom k n e.advanceHead else e

/-- Puts bytes at TAIL and moves TAIL past them; past the region's end it returns to the start and WRAPS counts.
DEDUCED, assumption 89. -/
def Evr.put (e : Evr) (b : Bytes) : Evr :=
  let e := e.makeRoom 64 b.length
  let t := e.tail + b.length
  let t' := if t ≥ logEnd then logStart else t
  { e with
    cave := memPut e.cave e.tail b, tail := t'
    wraps := if t ≥ logEnd then e.wraps + 1 else e.wraps, full := t' = e.head }

/-- Writes a record into the log region; one that does not fit before the end is preceded by a PAD (R386).
DEDUCED, assumption 89. -/
def Evr.writeLog (e : Evr) (b : Bytes) : Evr :=
  let e := if e.tail + b.length > logEnd then e.put (padRecord (logEnd - e.tail)) else e
  e.put b

/-- A header copy (R385). -/
def Evr.header (e : Evr) (count : Nat) : Bytes :=
  let body := leBytes 4 0x5643545A ++ leBytes 2 1 ++ leBytes 1 e.layout ++ [0] ++ leBytes 8 count ++
    leBytes 8 e.nextSeq ++ leBytes 4 e.head ++ leBytes 4 e.tail ++ leBytes 4 e.wraps ++ leBytes 1 e.loadNext ++
    leBytes 1 (b2n e.trip) ++ List.replicate 22 0
  body ++ leBytes 4 (crc32c body)

/-- COUNT of the header copy at an offset, none where its MAGIC or CRC is wrong. -/
def headerCount (cave : SMap Byte) (off : Nat) : Option Nat :=
  let b := memBytes cave off 64
  if leAt b 0 4 = 0x5643545A ∧ leAt b 60 4 = crc32c (b.take 60) then some (leAt b 8 8) else none

/-- Rewrites the copy with the lower COUNT, with COUNT one above the other copy's (R385). DEDUCED, assumption 89. -/
def Evr.writeHeader (e : Evr) : Evr :=
  let c0 := (headerCount e.cave 0).getD 0
  let c1 := (headerCount e.cave 0x800).getD 0
  let (off, n) := if c0 ≤ c1 then (0, c1 + 1) else (0x800, c0 + 1)
  { e with cave := memPut e.cave off (e.header n), count := n }

/-- Initialises the log region in a layout. -/
def Evr.initLog (e : Evr) (layout : Nat) : Evr :=
  { e with layout := layout, head := logStart, tail := logStart, full := false, buf := [] }

/-! ### The writer (R379) -/

/-- Takes the oldest entry and writes it to the Cave, or to the buffer of R378. A record that finds the buffer full
is lost. -/
def Module.writeOne (m : Module) : Module :=
  match m.evr.queue with
  | [] => m
  | r :: q =>
    let m := { m with evr := { m.evr with queue := q } }
    if m.evr.layout = 1 then
      if m.evr.buf.length ≥ 1024 then m.loseEvent.enqueueLost
      else ({ m with evr := { m.evr with buf := m.evr.buf ++ [r.zt] } }.bump (R.EVR_CNT_CNT 1)).enqueueLost
    else ({ m with evr := (m.evr.writeLog r.native).writeHeader }.bump (R.EVR_CNT_CNT 1)).enqueueLost

/-- Moves the buffer's contents to the Cave, oldest first (R378). -/
def Module.moveBuffer (m : Module) : Module :=
  if m.evr.buf = [] then m
  else
    let e := m.evr.buf.foldl (fun e b => e.writeLog b) m.evr
    { m with evr := { e with buf := [] }.writeHeader }.bump (R.EVR_CNT_CNT 4)

def Module.writeAll : Nat → Module → Module
  | 0, m => m
  | k + 1, m => if m.evr.queue = [] then m else writeAll k m.writeOne

/-- RECORD_WRITE: the writer runs once EVR is usable and the log is not frozen (R380, R383). -/
def mRecordWrite (m : Module) : Module :=
  if m.mode = .reset ∨ m.evr.frozen ∨ !m.ready 9 then m else m.writeOne

/-- BUFFER_MOVE: in ZT2200 layout, when the buffer holds 768 records (R378); a freeze stops moves too (R380). -/
def mBufferMove (m : Module) : Module :=
  if m.evr.layout = 1 ∧ !m.evr.frozen ∧ 768 ≤ m.evr.buf.length then m.moveBuffer else m

/-! ### Commands (R380, R382) -/

def Module.evrResult (m : Module) (r : Nat) : Module := (m.wr R.EVR_CMD_STAT_RESULT r).flag R.EVR_CMD_STAT_DONE_FLG

/-- Whether the recorder accepts commands; refused with RESULT 3 before its readiness. -/
def Module.evrCmd (m : Module) (f : Module → Module) : Module :=
  if m.mode = .reset then m else if m.ready 9 then f m else m.evrResult 3

/-- FREEZE: takes effect when the record being written is complete, which here is at once. -/
def mFreeze (m : Module) : Module :=
  m.evrCmd fun m =>
    if m.evr.frozen ∨ m.mode = .flush then m.evrResult 1
    else
      ({ m with evr := { m.evr with
          frozen := true
          thawAt := m.mono + m.rd R.EVR_CTRL_FREEZE_MAX_MS * 1000000 * nsUnit } }.bump (R.EVR_CNT_CNT 5)).evrResult 1

def mThaw (m : Module) : Module :=
  m.evrCmd fun m => { m with evr := { m.evr with frozen := false } }.evrResult 1

/-- FLUSH of EVR_CMD: moves the buffer in ZT2200 layout (R378). -/
def mEvrFlush (m : Module) : Module :=
  m.evrCmd fun m => (if m.evr.layout = 1 ∧ !m.evr.frozen then m.moveBuffer else m).evrResult 1

/-- AUTOMATIC_THAW: at the end of [freeze, freeze + FREEZE_MAX_MS) the recorder thaws and raises event 1 (R380). -/
def mAutomaticThaw (m : Module) : Module :=
  if m.evr.frozen then
    let m := m.reachMono m.evr.thawAt
    ({ m with evr := { m.evr with frozen := false } }.bump (R.EVR_CNT_CNT 6)).raise' 10 1 0 0
  else m

/-- CAVE_DATA_READ: the PF reads the word at EVR_CAVE_ADDR, which then adds 4 (R388). -/
def mCaveDataRead (m : Module) : Module :=
  let a := m.rd R.EVR_CAVE_ADDR_ADDR
  { m with rdata := BitVec.ofNat 32 (m.word 0xb00044) }.wr R.EVR_CAVE_ADDR_ADDR (a + 4)

/-! ### Start-up and FLUSH (R383 to R385) -/

/-- The offset of the valid header copy with the higher COUNT (R385). -/
def validHeader (cave : SMap Byte) : Option Nat :=
  match headerCount cave 0, headerCount cave 0x800 with
  | none, none => none
  | some _, none => some 0
  | none, some _ => some 0x800
  | some a, some b => if b ≤ a then some 0 else some 0x800

/-- The recorder as a header copy describes it. DEDUCED, assumption 112. -/
def Evr.fromHeader (e : Evr) (off : Nat) : Evr :=
  let b := memBytes e.cave off 64
  { e with
    layout := leAt b 6 1, count := leAt b 8 8, nextSeq := leAt b 16 8, head := leAt b 24 4
    tail := leAt b 28 4, wraps := leAt b 32 4, loadNext := leAt b 36 1, trip := leAt b 37 1 == 1 }

/-- A Cave whose header copies are both invalid, in a layout: an empty log, empty load report slots. -/
def Evr.fresh (e : Evr) (layout : Nat) : Evr :=
  { e with
    cave := e.cave.filter fun (k, _) => decide (0x15000 ≤ k)
    nextSeq := 0, wraps := 0, loadNext := 0, loads := 0, trip := false, count := 0 }.initLog layout

/-- The Cave at LOAD: the valid header copy with the higher COUNT, or a fresh Cave. TRIP 1 sets THERMAL_STK and is
cleared in the next header update (R385). A START record follows (R383). -/
def Module.evrLoadEntry (m : Module) : Module :=
  let e0 : Evr := { m.evr with
    queue := [], buf := [], frozen := false, freezeReq := false, lost := 0, flushing := false, full := false }
  let m := match validHeader m.evr.cave with
    | none =>
      let lay := m.rd R.EVR_CTRL_MODE
      ({ m with evr := e0.fresh lay }.flag R.EVR_STATUS_INIT_STK).ownRecord 4 lay false
    | some off =>
      let e := e0.fromHeader off
      let m := { m with evr := { e with trip := false } }
      if e.trip then m.flag R.SYS_RESET_CAUSE_THERMAL_STK else m
  m.ownRecord 3 (m.word 0xc) false

/-- A thermal trip that finds the module in RESET, with nothing to flush: the Cave header alone takes the TRIP mark.
DEDUCED, assumption 89. -/
def Evr.markTrip (e : Evr) : Evr :=
  let e := match validHeader e.cave with
    | none => e.fresh 0
    | some off => e.fromHeader off
  { e with trip := true }.writeHeader

/-- EVR becomes usable (R383): a changed MODE initialises the log region in the new layout, with a FORMAT record
ahead of the held records. -/
def Module.evrReady (m : Module) : Module :=
  let mode := m.rd R.EVR_CTRL_MODE
  if mode = m.evr.layout then m
  else ({ m with evr := m.evr.initLog mode }.flag R.EVR_STATUS_INIT_STK).ownRecord 4 mode true

/-- The flush of R384: the whole queue, the buffer, then the header, with TRIP after a thermal trip.
DEDUCED, assumption 89. -/
def Module.evrFlushAll (m : Module) (trip : Bool) : Module :=
  let m := { m with evr := { m.evr with frozen := false } }
  let m := (m.writeAll 600).moveBuffer
  { m with evr := { m.evr with trip := trip }.writeHeader }

def execRecordWrite (s : State) : Host.Outcome State Fault Refusal := s.upd mRecordWrite
def execFreeze (s : State) : Host.Outcome State Fault Refusal := s.upd mFreeze
def execThaw (s : State) : Host.Outcome State Fault Refusal := s.upd mThaw
def execEvrFlush (s : State) : Host.Outcome State Fault Refusal := s.upd mEvrFlush
def execAutomaticThaw (s : State) : Host.Outcome State Fault Refusal := s.upd mAutomaticThaw
def execBufferMove (s : State) : Host.Outcome State Fault Refusal := s.upd mBufferMove
def execCaveDataRead (s : State) : Host.Outcome State Fault Refusal := s.upd mCaveDataRead

end Sys2Proof.Machine
end

