-- ==== Sys2Proof/Machine/LoadField.lean ====
section
/-!
DEFINITION. What the loader applies sections with: ranges and their fitting (R106), reading a field of a section body,
entries of the load report (R110), and the objects that a culture image holds before they are linked (R107).
-/

namespace Sys2Proof.Machine

/-! ### Ranges (R106) -/

/-- What a field may hold. `step` and `stepOnes` ask for multiples (the latter also takes all ones of 32 bits); `near`
lists the allowed values of a set without a fixed step, ascending; `enum` lists the ranges of defined values; `fixed`
is one value. -/
inductive Rng where
  | any
  | num (lo hi : Int)
  | step (lo hi by_ : Int)
  | stepOnes (by_ : Int)
  | near (l : List Int)
  | enum (l : List (Int × Int))
  | fixed (v : Int)
  deriving DecidableEq, Repr

/-- The nearest of an ascending list of values, the lower one at a tie. -/
def nearest (l : List Int) (v : Int) : Int :=
  l.foldl (fun best x => if (x - v).natAbs < (best - v).natAbs then x else best) (l.headD v)

/-- The multiple of a step that a value takes: the nearest at most hi, the lower one midway. -/
def toStep (v hi by_ : Int) : Int :=
  let r := v % by_
  if 2 * r ≤ by_ ∨ hi < v - r + by_ then v - r else v - r + by_

/-- The value applied where `v` is offered and `d` is the default, with the reason of Table 4.9 (0 for none).
DEDUCED, assumption 106. -/
def Rng.fit (d v : Int) : Rng → Int × Nat
  | .any => (v, 0)
  | .num lo hi => if v < lo then (lo, 1) else if hi < v then (hi, 2) else (v, 0)
  | .step lo hi b =>
    if v < lo then (lo, 1) else if hi < v then (hi, 2) else if v % b = 0 then (v, 0) else (toStep v hi b, 15)
  | .stepOnes b => if v = 0xFFFFFFFF ∨ v % b = 0 then (v, 0) else (toStep v 0xFFFFFFFF b, 15)
  | .near l =>
    let lo := l.headD v
    let hi := l.getLastD v
    if v < lo then (lo, 1) else if hi < v then (hi, 2) else if l.contains v then (v, 0) else (nearest l v, 15)
  | .enum l => if l.any fun (a, b) => decide (a ≤ v) && decide (v ≤ b) then (v, 0) else (d, 3)
  | .fixed x => if v = x then (v, 0) else (x, 3)

/-! ### The objects of an image -/

/-- A vat rate record (Table 8.6). -/
structure RateR where
  en : Bool
  code : Nat
  decim : Nat
  w : Nat
  depth : Nat
  deriving DecidableEq, Repr

/-- A stream record (Table 8.7). -/
structure StreamR where
  dst : Nat
  vid : Nat
  appid : Nat
  code : Nat
  noAsdu : Nat
  nchan : Nat
  profile : Nat
  subst : Nat
  policy : Nat
  reqGlobal : Bool
  simAccept : Bool
  auth : Bool
  en : Bool
  confRev : Nat
  xmitNs : Nat
  maxSubst : Nat
  lossN : Nat
  recoverN : Nat
  key : Nat
  svId : Bytes
  deriving DecidableEq, Repr

/-- A channel record (Table 8.8). -/
structure ChanR where
  stream : Nat
  src : Nat
  vrate : Nat
  decl : Nat
  scale : Nat
  deriving DecidableEq, Repr

/-- A chain record (Table 9.4): its stages are (SET, NMAX, DECIM). -/
structure ChainR where
  chain : Nat
  kdef : Nat
  stages : List (Nat × Nat × Nat)
  deriving DecidableEq, Repr

/-- An instance record (Table 13.8). -/
structure InstR where
  id : Nat
  owner : Nat
  size : Nat
  txPorts : Nat
  hpMin : Nat
  hpWeight : Nat
  dmaWeight : Nat
  recWeight : Nat
  page : Nat
  dmaMin : Nat
  recMin : Nat
  xltPages : Nat
  chainFirst : Nat
  chainCount : Nat
  layout : Nat
  deriving DecidableEq, Repr

/-- A connection record (Table 17.8). -/
structure ConnR where
  en : Bool
  dir : Bool
  goose : Bool
  idSeal : Bool
  trigAll : Bool
  restore : Bool
  cls : Nat
  dlen : Nat
  id : Nat
  dst : Nat
  vid : Nat
  task : Nat
  pub : Nat
  dataOff : Nat
  refreshUs : Nat
  maxAgeUs : Nat
  leadNs : Nat
  wdogUs : Nat
  seqWin : Nat
  recoverN : Nat
  safeOff : Nat
  deriving DecidableEq, Repr

/-- A session record (Table 14.9). -/
structure SessR where
  en : Bool
  flags : Nat
  vrate : Nat
  group : Nat
  inst : Nat
  gmaster : Bool
  trendK : Nat
  preUs : Nat
  postUs : Nat
  maxUs : Nat
  ringMib : Nat
  trendMib : Nat
  chFirst : Nat
  chCount : Nat
  condFirst : Nat
  condCount : Nat
  deriving DecidableEq, Repr

/-- A slot record of the KEYS section (R461). -/
structure KeyR where
  slot : Nat
  parent : Nat
  attr : Nat
  import_ : Bool
  alg : Nat
  keyId : Nat
  label : Bytes
  deriving DecidableEq, Repr

/-- The objects of the sections as applied, in record order, and where the parts that hold them begin within their
section body. -/
structure Img where
  insts : List InstR
  rates : List RateR
  streams : List StreamR
  chans : List ChanR
  chanBase : Nat
  nSets : Nat
  chains : List ChainR
  chainBase : Nat
  entries : List Nat
  codeLen : Nat
  tasks : List TaskRec
  maps : List MapEntry
  vars : List VarRec
  varBase : Nat
  regions : List RegionRec
  regionBase : Nat
  inits : List RegionRec
  initBase : Nat
  pubs : List PubRec
  gsubs : List GSubRec
  gsubBase : Nat
  conns : List ConnR
  sess : List SessR
  achans : List AcqChan
  achanBase : Nat
  conds : List AcqCond
  condBase : Nat
  lists : List (List (Nat × Nat × Nat))
  rules : List (EvRule × Nat)
  ruleBase : Nat
  keys : List KeyR
  cakSlots : List Nat
  hbStation : Bool
  groupBad : List Nat
  deriving DecidableEq, Repr

def Img.init : Img :=
  ⟨[], [], [], [], 0, 0, [], 0, [], 0, [], [], [], 0, [], 0, [], 0, [], [], 0, [], [], [], 0, [], 0, [], [], 0, [], [],
    false, []⟩

/-! ### The loader at work -/

/-- The loader: the module as applied so far, the copy, the section TYPE and body it works on (no body for a section that
takes its defaults), the report's entries (newest first), the cases beyond 1,024, the objects. -/
structure Ld where
  m : Module
  copy : Nat
  typ : Nat
  body : Option Bytes
  rep : List Bytes
  cnt : Nat
  lost : Nat
  img : Img

abbrev LdM := StateM Ld

/-- The bytes of a load report entry (Table 4.8). -/
def repEntry (field offered applied reason bit copy : Nat) : Bytes :=
  leBytes 4 field ++ leBytes 4 offered ++ leBytes 4 applied ++ leBytes 1 reason ++ leBytes 1 bit ++ leBytes 1 copy ++ [0]

/-- Writes a report entry, or counts it once 1,024 are written (R110). -/
def Ld.note (s : Ld) (field offered applied reason bit : Nat) : Ld :=
  if s.cnt < 1024 then { s with rep := repEntry field offered applied reason bit s.copy :: s.rep, cnt := s.cnt + 1 }
  else { s with lost := s.lost + 1 }

/-- A case of the section at work, at a byte offset of its body. DEDUCED, assumption 105. -/
def ldNote (off offered applied reason bit : Nat) : LdM Unit :=
  modify fun s => s.note (s.typ * 2 ^ 24 + off) offered applied reason bit

/-- A rejected object: its section, the offset of its record, its index (R110). -/
def Ld.reject (s : Ld) (typ off idx reason : Nat) : Ld := s.note (typ * 2 ^ 24 + off) idx 0 reason 0

/-- Sets a register field in the module that is being loaded. -/
def ldReg (f : Fld) (v : Nat) : LdM Unit := modify fun s => { s with m := s.m.wr f v }

def ldFlag (f : Fld) (b : Bool) : LdM Unit := ldReg f (b2n b)

def ldMod (f : Module → Module) : LdM Unit := modify fun s => { s with m := f s.m }

def ldImg (f : Img → Img) : LdM Unit := modify fun s => { s with img := f s.img }

/-- A field of the body: w bits from bit `lsb` of the little-endian number that begins at byte `off`, fitted to its range,
with an entry where the value changed. DEDUCED, assumption 105. -/
def ldField (off lsb w : Nat) (d : Int) (r : Rng) (sgn : Bool) : LdM Int := do
  match (← get).body with
  | none => return d
  | some b =>
    let raw := bitsOf (leAt b off (ceilDiv (lsb + w) 8)) lsb w
    let v : Int := if sgn then signedOf raw w else raw
    let (a, why) := r.fit d v
    if why = 0 then return v
    else
      ldNote off (unsignedOf v 32) (unsignedOf a 32) why lsb
      return a

/-- A whole field of n bytes read as a natural. -/
def ldNat (off n d : Nat) (r : Rng) : LdM Nat := return (← ldField off 0 (8 * n) d r false).toNat

/-- A field of n bytes clamped to a range. -/
def ldNum (off n lo hi d : Nat) : LdM Nat := ldNat off n d (.num lo hi)

/-- An enumerated byte with the values 0 to n. DEDUCED, assumption 106. -/
def ldEnum (off n d : Nat) : LdM Nat := ldNat off 1 d (.enum [(0, n)])

/-- Bits of a field, fitted to a range. -/
def ldBits (off lsb w d : Nat) (r : Rng) : LdM Nat := return (← ldField off lsb w d r false).toNat

/-- One flag of a field. -/
def ldBit (off lsb : Nat) (d : Bool) : LdM Bool := return (← ldBits off lsb 1 (b2n d) .any) == 1

/-- An enumerated byte with the values 0 and 1. -/
def ldBool (off : Nat) (d : Bool) : LdM Bool := return (← ldEnum off 1 (b2n d)) == 1

/-- A byte string; all 0 by default. -/
def ldBytes (off n : Nat) : LdM Bytes := do
  match (← get).body with
  | none => return List.replicate n 0
  | some b => return slice b off n

/-- An address in network order. -/
def ldMac (off d : Nat) : LdM Nat := do
  match (← get).body with
  | none => return d
  | some b => return beAt b off 6

/-- A count of records: as the image holds it, which lays out the body, and as applied. DEDUCED, assumption 106. -/
def ldCount (off n hi : Nat) : LdM (Nat × Nat) := do
  let a ← ldNum off n 0 hi 0
  match (← get).body with
  | none => return (0, 0)
  | some b => return (leAt b off n, a)

/-- A length in bytes, a multiple of 8: as the image holds it and as applied. -/
def ldLen (off n hi : Nat) : LdM (Nat × Nat) := do
  let a ← ldNat off n 0 (.step 0 hi 8)
  match (← get).body with
  | none => return (0, 0)
  | some b => return (leAt b off n, a)

/-- The records of a part, in order: n of a size from a base. -/
def ldRecs {α : Type} (n base size : Nat) (f : Nat → Nat → LdM α) : LdM (List α) :=
  (List.range n).mapM fun i => f i (base + size * i)

end Sys2Proof.Machine
end

