-- ==== Sys2Proof/Machine/LoadApply.lean ====
section
/-!
DEFINITION. How the loader applies each section of Table 4.5: the fields of a body in ascending byte offset, each fitted to its
range (R105, R106). Registers are set at once; records become the objects that the link step takes up. A section that is absent or
takes its defaults is applied with no body (R102, R103).
-/

namespace Sys2Proof.Machine

/-! ### MODULE, REGINIT, TIME -/

def applyModule : LdM Unit := do
  let st ← ldBytes 0 32
  let pm ← ldBool 32 false
  let tw ← ldNum 36 4 0 60000 5000
  let rt ← ldNum 40 4 (tw + 1000) 600000 30000
  ldMod fun m => { m with
    sys := { m.sys with station := st, timeWaitMs := tw, ripenTmoMs := rt }
    red := { m.red with cfg := { m.red.cfg with pairMode := pm } } }

/-- The fields that REGINIT may set, with their ranges: Reset "C", access RW or RWS, carried by no section (R109).
DEDUCED, assumption 107. -/
def reginitRange (addr lsb : Nat) : Option Rng :=
  if addr = 0x900000 then some .any
  else if addr = 0x900014 then some (.num 1 10000)
  else if 0x901000 ≤ addr ∧ addr < 0x902000 ∧ addr % 16 = 0 ∧ lsb = 8 then some (.num 1 1048575)
  else if addr = 0x700000 then (if lsb = 9 then some (.num 50 100) else if lsb = 1 then none else some .any)
  else if addr = 0x1000000 then (if lsb = 8 then some (.num 100 60000) else some .any)
  else if (addr = 0x500000 ∨ addr = 0x600000 ∨ addr = 0xd00000 ∨ addr = 0xc00000 ∨ addr = 0xa00000) ∧ lsb = 0 then some .any
  else if addr = 0xe00000 ∧ lsb = 15 then some .any
  else if 0xf00000 ≤ addr ∧ addr < 0xf01000 ∧ addr % 0x200 < 0x1c then some .any
  else if 0xf01000 ≤ addr ∧ addr < 0xf01020 then some (.enum [(0, 0), (0x100, 0x1FF)])
  else none

/-- The bits that a field takes up in its word. -/
def FDesc.mask (f : FDesc) : Nat := (2 ^ f.width - 1) * 2 ^ f.lsb

/-- One record of REGINIT (Table 4.7), at a body offset. DEDUCED, assumption 107. -/
def applyRegRecord (b : Bytes) (o : Nat) : LdM Unit := do
  let addr := leAt b o 4
  let mask := leAt b (o + 4) 4
  let value := leAt b (o + 8) 4
  let d := if addr % 4 = 0 ∧ addr < 0x1200000 then findReg addr else none
  let fs := ((d.map (·.fields)).getD []).filter fun f => mask &&& f.mask != 0
  let bad := d.isNone || mask != fs.foldl (fun a f => a ||| f.mask) 0 ||
    fs.any fun f => (reginitRange addr f.lsb).isNone
  if bad then ldNote o addr 0 13 0
  else
    for f in fs do
      let v := bitsOf value f.lsb f.width
      let (a, why) := ((reginitRange addr f.lsb).getD .any).fit (f.at addr).dflt v
      if why ≠ 0 then ldNote o v a.toNat why f.lsb
      ldReg (f.at addr) a.toNat

def applyReginit : LdM Unit := do
  match (← get).body with
  | none => pure ()
  | some b => (List.range (b.length / 12)).forM fun i => applyRegRecord b (12 * i)

def applyTime : LdM Unit := do
  let profile ← ldEnum 0 1 0
  let domain ← ldNum 1 1 0 255 0
  let ports ← ldNum 2 2 0 0x3FF 0x3FF
  let role ← ldEnum 4 1 0
  let p1 ← ldNum 5 1 0 255 128
  let p2 ← ldNum 6 1 0 255 128
  let logSync ← ldField 7 0 8 0 (.num (-4) 0) true
  ldReg R.TIM_SERVO_KP (← ldNum 8 2 1 65535 45875)
  ldReg R.TIM_SERVO_KI (← ldNum 10 2 0 65535 19661)
  ldReg R.TIM_LIMITS_MAX_PPB (← ldNum 12 4 1000 500000 100000)
  ldReg R.TIM_STEP_NS_STEP_NS (← ldNum 16 4 100 1000000 1000)
  ldReg R.TIM_LIMITS_STEP_RUN_EN (← ldEnum 20 1 0)
  ldReg R.TIM_LOCK_LOCK_N (← ldNum 21 1 1 15 4)
  ldReg R.TIM_LOCK_LOCK_NS (← ldNum 22 2 10 10000 100)
  ldReg R.TIM_HOLD_HOLD_TMO_MS (← ldNum 24 2 100 60000 3000)
  ldReg R.TIM_LOCK_SRC_EN (← ldNum 26 1 0 7 7)
  ldReg R.TIM_HOLD_HAUL_ORIG (← ldEnum 27 1 0)
  ldReg R.TIM_LOCK_QUAL_S (← ldNum 28 1 1 255 10)
  ldReg R.TIM_UTC_UTC_OFFSET (← ldNum 29 1 0 255 37)
  let freq ← ldField 32 0 32 0 (.num (-1000) 1000) true
  (List.range 4).forM fun v => do
    ldReg (R.TIM_VC_CFG_EN v) (← ldEnum (36 + 4 * v) 1 0)
    ldReg (R.TIM_VC_CFG_BIND v) (← ldEnum (37 + 4 * v) 1 0)
    ldReg (R.TIM_VC_CFG_DOMAIN v) (← ldNum (38 + 4 * v) 1 0 255 0)
  ldMod fun m => { m with tim := { m.tim with cfg := ⟨profile, domain, ports, role, p1, p2, logSync, freq⟩ } }

/-! ### PORTS (R146) -/

/-- FEC choices at a SPEED (Table 5.1); at SPEED 0 the rate is the fitted module's, and every choice stands. -/
def fecChoices (speed : Nat) : List (Int × Int) :=
  if speed = 1 then [(0, 1)] else if speed = 2 then [(0, 2)] else [(0, 3)]

def applyPort (n o : Nat) : LdM Unit := do
  let red := (← get).m.redund (n - 1)
  let upper := decide (n % 2 = 1) && red != 0
  ldFlag (R.MAC_CTRL_EN n) (← ldBool o true)
  let low := (← get).m.rd (R.MAC_CTRL_SPEED (n - 1))
  let speed ← ldNat (o + 1) 1 (if n = 10 then 3 else if upper then low else 0)
    (if n = 10 then .fixed 3 else if upper then .fixed low else .enum [(0, 3)])
  ldReg (R.MAC_CTRL_SPEED n) speed
  let lowFec := (← get).m.rd (R.MAC_CTRL_FEC (n - 1))
  ldReg (R.MAC_CTRL_FEC n) (← ldNat (o + 2) 1 (if upper then lowFec else 0)
    (if n = 10 then .enum [(0, 0), (3, 3)] else if upper then .fixed lowFec else .enum (fecChoices speed)))
  if n % 2 = 0 ∧ n < 10 then ldReg (R.MAC_CTRL_REDUND n) (← ldEnum (o + 3) 2 0)
  ldReg (R.MAC_CTRL_MAX_LEN n) (← ldNum (o + 4) 2 1518 9216 1536)
  if n < 10 then
    ldFlag (R.MAC_PAUSE_CFG_RX_PAUSE_EN n) (← ldBit (o + 6) 0 false)
    ldFlag (R.MAC_PAUSE_CFG_RX_PFC_EN n) (← ldBit (o + 6) 1 false)
  ldReg (R.MAC_PAUSE_CFG_IGN_PAUSE n) (← ldNum (o + 7) 1 0 255 0xF0)
  ldReg (R.MAC_HOLD_HOLD_US n)
    (← ldNat (o + 8) 2 (if n = 10 then 0 else 2000) (if n = 10 then .fixed 0 else .num 0 10000))
  ldFlag (R.MAC_CTRL_MACSEC_EN n) (← ldBool (o + 10) false)
  (List.range 8).forM fun q => do
    ldReg (R.MAC_AGE_AGE_US n q) (← ldNum (o + 12 + 2 * q) 2 0 10000 (if q < 4 then 0 else 1000))

def applyPorts : LdM Unit := (List.range 11).forM fun n => applyPort n (32 * n)

/-! ### SWITCH (R168) -/

/-- One class of a port record; the minimum may take up what the minimums applied before it leave of 60,576 (R165). -/
def applyClass (p q o left : Nat) : LdM Nat := do
  let d := if p = 11 then 512 else if q = 7 then 128 else 32
  let mn ← ldField o 0 16 d (.num 0 left) false
  ldReg (R.SWC_Q_CFG_MIN_CELLS p q) mn.toNat
  ldReg (R.SWC_Q_CFG_ALPHA p q) (← ldBits o 16 8 64 (.num 1 255))
  ldReg (R.SWC_Q_CFG_WRR p q) (← ldBits o 24 8 1 (.num 1 255))
  ldReg (R.SWC_Q_SHAPE_IDLE_SLOPE p q) (← ldNum (o + 4) 2 0 25000 0)
  ldReg (R.SWC_Q_HICREDIT_HI_CREDIT p q) (← ldNum (o + 8) 4 1024 1048576 16384)
  return left - mn.toNat

def applySwPort (p o left : Nat) : LdM Nat := do
  ldReg (R.SWC_PORT_CFG_PVID p) (← ldBits o 0 12 1 (.num 1 4094))
  ldReg (R.SWC_PORT_CFG_DEF_PCP p) (← ldBits o 12 3 0 .any)
  ldReg (R.SWC_PORT_CFG_LEARN p) (← ldBits o 15 1 0 .any)
  ldReg (R.SWC_PORT_CFG_CUT_THRU p) (← ldBits o 16 1 0 .any)
  ldReg (R.SWC_PORT_CFG_ING_FILTER p) (← ldBits o 17 1 1 .any)
  ldReg (R.SWC_PCP_MAP_MAP p) (← ldBits (o + 4) 0 24 0xFAC688 .any)
  if p = 10 then return left
  else (List.range 8).foldlM (fun left q => applyClass p q (o + 8 + 12 * q) left) left

/-- Puts what the SWITCH section names, or VLAN 1 where it takes its defaults, into the tables. -/
def applySwitch : LdM Unit := do
  let (rv, nv) ← ldCount 0 2 4094
  let (rf, nf) ← ldCount 2 4 65536
  let (rg, ng) ← ldCount 6 2 8192
  let (rs, ns) ← ldCount 8 2 1024
  ldReg R.SWC_CTRL_LEARN_AGE_S (← ldNum 10 2 0 65535 300)
  let _ ← (List.range 12).foldlM (fun left p => applySwPort p (16 + 128 * p) left) 60576
  let vb := 1552
  let fb := vb + 16 * rv
  let gb := fb + 16 * rf
  let sb := gb + 8 * rg
  let mb := sb + 516 * rs
  if (← get).body.isNone then
    ldMod fun m => { m with sw := { m.sw with vlans := [(1, ⟨0xFFF, 0, 0, 0, 0, false⟩)] } }
  (List.range nv).forM fun i => do
    let o := vb + 16 * i
    let vid ← ldNum o 2 1 4094 1
    let w0 ← ldBits (o + 4) 0 32 0 .any
    let w1 ← ldBits (o + 8) 0 32 0 .any
    let w2 ← ldBits (o + 12) 0 32 0 .any
    if bitOf w0 31 then
      ldMod fun m => { m with sw := { m.sw with vlans := m.sw.vlans.set vid (VlanEntry.ofWords w0 w1 w2) } }
  (List.range nf).forM fun i => do
    let o := fb + 16 * i
    let lo ← ldBits o 0 32 0 .any
    let w1 ← ldBits (o + 4) 0 32 0 .any
    let w2 ← ldBits (o + 8) 0 32 0 .any
    let w3 ← ldBits (o + 12) 0 32 0 .any
    if bitOf w2 31 then
      let key := fdbKey (lo + 2 ^ 32 * bitsOf w1 0 16) (bitsOf w1 16 12)
      ldMod fun m =>
        let e := { FdbEntry.ofWords w2 w3 m.mono with static := true }
        { m with sw := { m.sw with fdb := m.sw.fdb.set key e } }
  (List.range ng).forM fun i => do
    let o := gb + 8 * i
    let x ← ldNum o 2 0 8191 0
    let w ← ldBits (o + 4) 0 32 0 .any
    ldMod fun m => { m with sw := { m.sw with mcg := m.sw.mcg.set x (McGroup.ofWord w) } }
  (List.range ns).forM fun i => do
    let o := sb + 516 * i
    let x ← ldNum o 2 0 1023 0
    let b ← ldBytes (o + 4) 512
    ldMod fun m => { m with sw := { m.sw with
      hpSets := (List.range 128).foldl (fun s w =>
        let v := leAt b (4 * w) 4
        if v = 0 then s.erase (x * 128 + w) else s.set (x * 128 + w) v) m.sw.hpSets } }
  (List.range 4).forM fun s => do
    let o := mb + 8 * s
    ldReg (R.SWC_MIR0_EN s) (← ldBits o 0 1 0 .any)
    ldReg (R.SWC_MIR0_DEST s) (← ldBits o 1 4 0 (.num 0 10))
    ldReg (R.SWC_MIR0_MIR_CLASS s) (← ldBits o 5 3 0 (.num 0 6))
    ldReg (R.SWC_MIR0_DEST_INST s) (← ldBits o 8 12 0 .any)
    ldReg (R.SWC_MIR1_ING s) (← ldBits (o + 4) 0 12 0 .any)
    ldReg (R.SWC_MIR1_EGR s) (← ldBits (o + 4) 12 12 0 .any)
  ldMod fun m => m.wr R.SWC_STATUS_FDB_USED m.sw.fdb.length

/-! ### INSTANCES (R344) -/

def applyInst (_ o : Nat) : LdM InstR := do
  let id ← ldNum o 2 0 4095 0
  let owner ← ldNat (o + 2) 2 0 (.enum [(0, 0), (0x100, 0x1FF)])
  let size ← ldNat (o + 4) 4 4096 (.step 4096 262144 4096)
  let tx ← ldNum (o + 8) 2 0 0x3FF 0
  let hpMin ← ldNum (o + 10) 2 0 60576 16
  let hpW ← ldNum (o + 12) 1 1 255 16
  let dmaW ← ldNum (o + 13) 1 1 255 16
  let recW ← ldNum (o + 14) 1 1 255 16
  let page ← ldEnum (o + 15) 1 0
  let dmaMin ← ldNum (o + 16) 4 0 48000 0
  let recMin ← ldNum (o + 20) 4 0 4000 0
  let xlt ← ldNum (o + 24) 4 0 1048576 0
  let cf ← ldNum (o + 28) 4 0 65535 0
  let cc ← ldNum (o + 32) 4 0 65536 0
  let lay ← ldBits (o + 36) 0 32 0 .any
  return ⟨id, owner, size, tx, hpMin, hpW, dmaW, recW, page, dmaMin, recMin, xlt, cf, cc, lay⟩

def applyInstances : LdM Unit := do
  let (_, n) ← ldCount 0 2 4096
  let l ← ldRecs n 16 48 applyInst
  ldImg fun g => { g with insts := l }

/-- INST_SIZE of the record that names an instance; the largest value where none does (R105). -/
def Img.instSize (g : Img) (i : Nat) : Nat := ((g.insts.find? (·.id == i)).map (·.size)).getD 262144

/-! ### VAT (R218) and FILTER (R236) -/

def applyRate (_ o : Nat) : LdM RateR := do
  let en ← ldBool o false
  let code ← ldEnum (o + 1) 5 1
  let decim ← ldNum (o + 2) 2 1 32768 1
  let w ← ldNum (o + 4) 4 1000 2000000 200000
  let depth ← ldNum (o + 8) 2 16 1024 256
  return ⟨en, code, decim, w, depth⟩

def applyStream (_ o : Nat) : LdM StreamR := do
  let dst ← ldMac o 0
  let vid ← ldNum (o + 6) 2 0 4094 0
  let appid ← ldNum (o + 8) 2 0x4000 0x7FFF 0x4000
  let code ← ldEnum (o + 10) 5 1
  let no ← ldNum (o + 11) 1 1 8 1
  let nchan ← ldNum (o + 12) 1 1 32 8
  let profile ← ldEnum (o + 13) 1 0
  let subst ← ldEnum (o + 14) 2 0
  let policy ← ldBits (o + 15) 0 2 0 (.enum [(0, 2)])
  let rg ← ldBit (o + 15) 2 false
  let sim ← ldBit (o + 15) 3 false
  let auth ← ldBit (o + 15) 4 false
  let en ← ldBit (o + 15) 5 true
  let conf ← ldBits (o + 16) 0 32 1 .any
  let xmit ← ldNum (o + 20) 4 0 1000000 0
  let maxSubst ← ldNum (o + 24) 2 0 65535 4
  let lossN ← ldNum (o + 26) 1 1 255 8
  let recN ← ldNum (o + 27) 1 1 255 16
  let key ← ldNum (o + 28) 2 0 1023 0
  let svId ← ldBytes (o + 32) 64
  return ⟨dst, vid, appid, code, no, nchan, profile, subst, policy, rg, sim, auth, en, conf, xmit, maxSubst, lossN, recN, key, svId⟩

/-- Whether fp32 bits are finite. -/
def finiteBits (w : Nat) : Bool := bitsOf w 23 8 != 255

/-- An fp32 field; a value that `ok` refuses takes the default, with reason 3. -/
def ldFloat (off d : Nat) (ok : Nat → Bool) : LdM Nat := do
  let v ← ldBits off 0 32 d .any
  if ok v then return v
  else
    ldNote off v d 3 0
    return d

def fpOne : Nat := 0x3F800000

/-- Nonzero and finite. -/
def scaleOk (v : Nat) : Bool := finiteBits v && v % 2 ^ 31 != 0

def applyChan (streams : List StreamR) (_ o : Nat) : LdM ChanR := do
  let s ← ldNum o 2 0 2047 0
  let src ← ldNum (o + 2) 1 0 31 0
  let v ← ldNum (o + 3) 1 0 3 0
  let f := match streams[s]? with
    | some x => rateCode x.code
    | none => 4000
  let decl ← ldNum (o + 4) 4 0 (1000000000 / f - 1) 0
  let scale ← ldFloat (o + 8) fpOne scaleOk
  return ⟨s, src, v, decl, scale⟩

def applyVat : LdM Unit := do
  let (rs, ns) ← ldCount 0 2 2048
  let (_, nc) ← ldCount 4 4 65536
  let rates ← ldRecs 4 16 16 applyRate
  let streams ← ldRecs ns 80 128 applyStream
  let cb := 80 + 128 * rs
  let chans ← ldRecs nc cb 16 (applyChan streams)
  ldImg fun g => { g with rates := rates, streams := streams, chans := chans, chanBase := cb }

def applySet (s o : Nat) : LdM Unit := do
  ldReg (R.FLT_SET_WORD s) (← ldNum o 4 0 262143 0)
  ldReg (R.FLT_SET_N s) (← ldNum (o + 4) 2 1 511 1)
  ldReg (R.FLT_SET_KIND s) (← ldEnum (o + 6) 1 0)
  ldReg (R.FLT_SET_VALID s) 1

/-- The taps of a set as applied; 1 for a set that the section does not hold. -/
def ldTaps (s : Nat) : LdM Nat := do
  let l ← get
  return if s < l.img.nSets then l.m.rd (R.FLT_SET_N s) else 1

def applyStage (o : Nat) : LdM (Nat × Nat × Nat) := do
  let set ← ldNum o 2 0 1023 0
  let taps ← ldTaps set
  let nmax ← ldNum (o + 2) 2 taps 511 taps
  let decim ← ldNum (o + 4) 1 1 32 1
  return (set, nmax, decim)

def applyChain (_ o : Nat) : LdM ChainR := do
  let c ← ldNum o 4 0 65535 0
  let n ← ldNum (o + 4) 1 1 3 1
  let k ← ldNum (o + 5) 2 1 256 16
  let st ← (List.range 3).mapM fun i => applyStage (o + 8 + 8 * i)
  return ⟨c, k, st.take n⟩

def applyFilter : LdM Unit := do
  let (rs, ns) ← ldCount 0 2 1024
  let (rw, nw) ← ldCount 4 4 262144
  let (_, nc) ← ldCount 8 4 65536
  let _ ← ldRecs ns 16 16 applySet
  ldImg fun g => { g with nSets := ns }
  let wb := 16 + 16 * rs
  match (← get).body with
  | none => pure ()
  | some b => ldMod fun m => { m with vat := { m.vat with
      cmem := (List.range nw).foldl (fun s w =>
        let v := leAt b (wb + 4 * w) 4
        if v = 0 then s.erase w else s.set w v) m.vat.cmem } }
  let cb := wb + 4 * rw
  let chains ← ldRecs nc cb 32 applyChain
  ldImg fun g => { g with chains := chains, chainBase := cb }

/-! ### CODE (R265) -/

def applyCode : LdM Unit := do
  let kib ← ldNat 0 2 128 (.step 16 256 16)
  let (re, ne) ← ldCount 2 2 8192
  let (rc, nc) ← ldLen 4 4 (1024 * kib)
  let (_, nk) ← ldLen 8 4 67108864
  ldReg R.BEN_CTRL_MISMATCH_LIMIT (← ldNum 12 1 1 255 3)
  ldFlag R.BEN_CTRL_LOG_EN (← ldBool 13 true)
  let entries ← ldRecs ne 32 4 fun _ o => ldBits o 0 32 0 .any
  let cb := 32 + 8 * ceilDiv re 2
  let code ← ldBytes cb nc
  let consts ← ldBytes (cb + rc) nk
  ldReg R.BEN_LAYOUT_CODE_KIB kib
  ldReg R.BEN_LAYOUT_CTX_BYTES ((524288 - 1024 * kib - 16384) / 4)
  ldMod fun m => { m with cul := { m.cul with codeKib := kib, code := code, consts := consts } }
  ldImg fun g => { g with entries := entries, codeLen := nc }

/-! ### TASKS (R316) and GOOSE (R317) -/

/-- The divisors of 1,000,000 from 10. -/
def tickPeriods : List Int :=
  [10, 16, 20, 25, 32, 40, 50, 64, 80, 100, 125, 160, 200, 250, 320, 400, 500, 625, 800, 1000, 1250, 1600, 2000,
   2500, 3125, 4000, 5000, 6250, 8000, 10000, 12500, 15625, 20000, 25000, 31250, 40000, 50000, 62500, 100000,
   125000, 200000, 250000, 500000, 1000000]

def applyOperand (o : Nat) : LdM Operand := do
  let kind ← ldEnum o 5 0
  let mode ← ldEnum (o + 1) 2 2
  let src ← ldBits (o + 2) 0 16 0 .any
  let p1 ← ldBits (o + 4) 0 32 0 (if kind = 4 then .near tickPeriods else .any)
  let p2 ← ldBits (o + 8) 0 16 0 (if kind = 4 then .num 0 (min (p1 - 1) 65535) else .any)
  return ⟨kind, mode, src, p1, p2⟩

def applyTask (nMap : Nat) (_ o : Nat) : LdM TaskRec := do
  let inst ← ldNum o 2 0 4095 0
  let entry ← ldNum (o + 2) 2 0 8191 0
  let level ← ldNum (o + 4) 1 0 63 0
  let en ← ldBit (o + 5) 0 true
  let pclass ← ldBit (o + 5) 1 false
  let groupEn ← ldBit (o + 5) 2 false
  let faultStop ← ldBit (o + 5) 3 false
  let group ← ldNum (o + 6) 1 0 255 0
  let maxOpen ← ldNum (o + 7) 1 1 8 2
  let deadline ← ldNum (o + 8) 4 10000 100000000 1000000
  let budget ← ldNum (o + 12) 4 1000 deadline deadline
  let engines ← ldBits (o + 16) 0 32 0xFFFFFFFF (.enum [(1, 0xFFFFFFFF)])
  let inLen ← ldNum (o + 20) 2 16 49152 16
  let outLen ← ldNum (o + 22) 2 0 49152 0
  let size := (← get).img.instSize inst
  let winOff ← ldNat (o + 24) 4 0 (.step 0 (size - 32) 32)
  let winLen ← ldNat (o + 28) 2 (min 4096 (size - winOff)) (.step 32 (min 49152 (size - winOff)) 32)
  let ovr ← ldNum (o + 30) 1 1 255 3
  let retry ← ldNum (o + 31) 1 0 3 1
  let locLen ← ldNum (o + 32) 4 0 121856 0
  let mapFirst ← ldNum (o + 36) 4 0 nMap 0
  let mapCount ← ldNum (o + 40) 1 0 64 0
  let safeOff ← ldNat (o + 44) 4 0xFFFFFFFF (.stepOnes 8)
  let ops ← (List.range 8).mapM fun k => applyOperand (o + 48 + 10 * k)
  return ⟨inst, entry, level, en, pclass, groupEn, faultStop, group, maxOpen, deadline, budget, engines, inLen, outLen, winOff,
    winLen, ovr, retry, locLen, mapFirst, mapCount, safeOff, ops⟩

def applyMap (_ o : Nat) : LdM MapEntry := do
  let kind ← ldNat o 1 1 (.enum [(1, 6)])
  let src ← ldBits (o + 2) 0 16 0 .any
  let first ← ldBits (o + 4) 0 32 0 .any
  let len ← ldBits (o + 8) 0 32 0 .any
  let dst ← ldNat (o + 12) 4 16 (.step 0 0xFFFFFFF8 8)
  return ⟨kind, src, first, len, dst⟩

def applyVar (_ o : Nat) : LdM VarRec := do
  let inst ← ldNum o 2 0 4095 0
  let width ← ldNat (o + 2) 1 4 (.enum [(4, 4), (8, 8)])
  let q ← ldBits (o + 4) 0 32 1 .any
  let v ← ldBits (o + 8) 0 64 0 .any
  return ⟨inst, width, q, v⟩

/-- An online region record, or with `data` an initial data record. -/
def applyRegion (data : Bool) (_ o : Nat) : LdM RegionRec := do
  let inst ← ldNum o 2 0 4095 0
  let size := (← get).img.instSize inst
  let off ← ldNum (o + 4) 4 64 (size - 1) 64
  let len ← ldNum (o + 8) 4 1 (size - off) 1
  let d ← if data then ldNat (o + 12) 4 0 (.step 0 0xFFFFFFF8 8) else pure 0
  return ⟨inst, off, len, d⟩

def applyTasks : LdM Unit := do
  let (rt, nt) ← ldCount 0 2 8192
  ldReg R.SCH_CTRL_RSV_LEVEL (← ldNum 2 1 1 63 48)
  let log ← ldNum 3 1 12 20 16
  let (rm, nm) ← ldCount 4 4 65536
  let (rv, nv) ← ldCount 8 4 65536
  let (rr, nr) ← ldCount 12 2 4096
  let (ri, ni) ← ldCount 14 2 16384
  let (_, nb) ← ldLen 16 4 0xFFFFFFF8
  let mb := 32 + 128 * rt
  let vb := mb + 16 * rm
  let gb := vb + 16 * rv
  let ib := gb + 16 * rr
  let tasks ← ldRecs nt 32 128 (applyTask nm)
  let maps ← ldRecs nm mb 16 applyMap
  let vars ← ldRecs nv vb 16 applyVar
  let regions ← ldRecs nr gb 16 (applyRegion false)
  let inits ← ldRecs ni ib 16 (applyRegion true)
  let blob ← ldBytes (ib + 16 * ri) nb
  ldMod fun m => { m with cul := { m.cul with traceLog2 := log, tblob := blob } }
  ldImg fun g => { g with
    tasks := tasks, maps := maps, vars := vars, varBase := vb, regions := regions, regionBase := gb, inits := inits, initBase := ib }

def applyPub (_ o : Nat) : LdM PubRec := do
  let dst ← ldMac o 0
  let vid ← ldNum (o + 6) 2 1 4094 1
  let appid ← ldNum (o + 8) 2 0 0x3FFF 0
  let cls ← ldNum (o + 10) 1 0 7 7
  let en ← ldBit (o + 11) 0 true
  let auth ← ldBit (o + 11) 1 false
  let task ← ldNum (o + 12) 2 0 8191 0
  let dsOff ← ldBits (o + 14) 0 16 0 .any
  let dsLen ← ldNum (o + 16) 2 1 1400 1
  let key ← ldNum (o + 18) 2 0 1023 0
  let conf ← ldBits (o + 20) 0 32 1 .any
  let mn ← ldNum (o + 24) 2 1 1000 2
  let mx ← ldNum (o + 26) 2 mn 60000 1000
  let ne ← ldNum (o + 28) 2 1 65535 1
  let gocb ← ldBytes (o + 64) 64
  let ds ← ldBytes (o + 128) 64
  let go ← ldBytes (o + 192) 64
  return ⟨dst, vid, appid, cls, en, auth, task, dsOff, dsLen, key, conf, mn, mx, ne, gocb, ds, go⟩

def applyGsub (_ o : Nat) : LdM GSubRec := do
  let dst ← ldMac o 0
  let vid ← ldNum (o + 6) 2 1 4094 1
  let appid ← ldNum (o + 8) 2 0 0x3FFF 0
  let en ← ldBit (o + 10) 0 true
  let auth ← ldBit (o + 10) 1 false
  let sim ← ldBit (o + 10) 2 false
  let trig ← ldBit (o + 10) 3 false
  let subst ← ldBit (o + 10) 4 false
  let lst ← ldBit (o + 10) 5 false
  let dsLen ← ldNum (o + 12) 2 1 1400 1
  let key ← ldNum (o + 14) 2 0 1023 0
  let conf ← ldBits (o + 16) 0 32 1 .any
  let safe ← ldNat (o + 20) 4 0 (.step 0 0xFFFFFFF8 8)
  let conn ← ldNum (o + 24) 2 0 1023 0
  let ne ← ldNum (o + 26) 2 1 65535 1
  let gocb ← ldBytes (o + 64) 64
  let ds ← ldBytes (o + 128) 64
  return ⟨dst, vid, appid, en, auth, sim, trig, subst, lst, dsLen, key, conf, safe, conn, ne, gocb, ds⟩

def applyGoose : LdM Unit := do
  let (rp, np) ← ldCount 0 2 2048
  let (rs, ns) ← ldCount 4 2 8192
  let bl ← ldBits 8 0 32 0 .any
  let sb := 16 + 256 * rp
  let pubs ← ldRecs np 16 256 applyPub
  let subs ← ldRecs ns sb 192 applyGsub
  let blob ← ldBytes (sb + 192 * rs) bl
  ldMod fun m => { m with cul := { m.cul with gblob := blob } }
  ldImg fun g => { g with pubs := pubs, gsubs := subs, gsubBase := sb }

/-! ### LST (R435), PAIR (R411) -/

def applyConn (_ o : Nat) : LdM ConnR := do
  let en ← ldBit o 0 true
  let dir ← ldBit o 1 false
  let goose ← ldBit o 2 false
  let seal' ← ldBit o 3 false
  let trig ← ldBit o 4 false
  let rest ← ldBit o 5 false
  let cls ← ldNum (o + 1) 1 0 7 7
  let dlen ← ldNum (o + 2) 2 1 1024 1
  let id ← ldBits (o + 4) 0 64 0 .any
  let dst ← ldMac (o + 12) 0
  let vid ← ldNum (o + 18) 2 1 4094 1
  let task ← ldNum (o + 20) 2 0 8191 0
  let pub ← ldNum (o + 22) 2 0 2047 0
  let dataOff ← ldBits (o + 24) 0 16 0 .any
  let refresh ← ldNum (o + 28) 4 100 1000000 1000
  let age ← ldNum (o + 32) 4 10 1000000 2000
  let lead ← ldNum (o + 36) 4 0 100000 1000
  let wdog ← ldNum (o + 40) 4 100 2000000 3000
  let win ← ldNum (o + 44) 2 1 65535 16
  let recN ← ldNum (o + 46) 1 1 255 3
  let safe ← ldNat (o + 48) 4 0xFFFFFFFF (.stepOnes 8)
  return ⟨en, dir, goose, seal', trig, rest, cls, dlen, id, dst, vid, task, pub, dataOff, refresh, age, lead, wdog, win, recN, safe⟩

def applyLst : LdM Unit := do
  let (rc, nc) ← ldCount 0 2 1024
  let (_, bl) ← ldLen 4 4 0xFFFFFFF8
  let mac ← ldMac 8 0
  let conns ← ldRecs nc 16 64 applyConn
  let blob ← ldBytes (16 + 64 * rc) bl
  ldMod fun m => { m with lst := { m.lst with srcMac := mac, blob := blob } }
  ldImg fun g => { g with conns := conns }

def applyPair : LdM Unit := do
  let id ← ldNum 0 2 1 65535 1
  let pref ← ldEnum 2 1 0
  ldFlag R.RED_CTRL_REVERT (← ldBit 3 0 true)
  let st ← ldBit 3 1 false
  let port ← ldNat 4 1 0 (.enum [(0, 0), (2, 2), (4, 4), (6, 6), (8, 8)])
  let cls ← ldNum 5 1 0 6 6
  let vid ← ldNum 6 2 1 4094 1
  let dst ← ldMac 8 0x035A54000000
  let pw ← ldNum 16 4 0 10000 500
  let rev ← ldNum 20 4 100 600000 2000
  let yld ← ldNum 24 4 10 60000 100
  let margin ← ldNum 28 1 1 255 32
  let xm ← ldNum 29 1 1 16 4
  let slack ← ldNum 30 2 10 10000 200
  let tmo ← ldNum 32 4 1 10000 50
  let pens ← ([4, 8, 32, 64, 16, 8, 1] : List Nat).zipIdx.mapM fun (d, i) => ldNum (36 + i) 1 0 255 d
  let watch ← ldNum 44 2 0 0x3FF 0
  let lead ← ldNum 48 4 1000 100000 5000
  let pd ← ldBytes 64 256
  let ld ← ldBytes 320 128
  ldImg fun g => { g with hbStation := st }
  ldMod fun m => { m with red := { m.red with cfg :=
    ⟨m.red.cfg.pairMode, id, pref, st, port, cls, vid, dst, pw, rev, yld, margin, xm, slack, tmo, pens, watch, lead, ofLe pd, ofLe ld⟩ } }

/-! ### RECORD (R369), EVENTS (R389) -/

def applySess (nCh nCond : Nat) (_ o : Nat) : LdM SessR := do
  let en ← ldBool o false
  let flags ← ldBits (o + 1) 0 8 0x38 .any
  let v ← ldNum (o + 2) 1 0 3 0
  let group ← ldNum (o + 3) 1 0 255 0
  let inst ← ldNum (o + 4) 2 0 4095 0
  let gm ← ldBool (o + 6) false
  let k ← ldNum (o + 7) 1 1 16 8
  let pre ← ldNum (o + 8) 4 0 10000000 100000
  let post ← ldNum (o + 12) 4 1 60000000 400000
  let mx ← ldNum (o + 16) 4 post 600000000 post
  let ring ← ldNum (o + 20) 2 1 8192 64
  let trend ← ldNum (o + 22) 2 0 1024 0
  let cf ← ldNum (o + 24) 4 0 nCh 0
  let cc ← ldNum (o + 28) 2 0 (nCh - cf) 0
  let nc ← ldNum (o + 31) 1 0 32 0
  let co ← ldNum (o + 32) 2 0 (nCond - nc) 0
  return ⟨en, flags, v, group, inst, gm, k, pre, post, mx, ring, trend, cf, cc, co, nc⟩

def applyAchan (_ o : Nat) : LdM AcqChan := do
  let kind ← ldNat o 1 1 (.enum [(1, 5)])
  let bit ← ldNum (o + 1) 1 0 63 0
  let src ← ldBits (o + 2) 0 16 0 .any
  let byte ← ldBits (o + 4) 0 32 0 .any
  let a ← ldFloat (o + 8) fpOne scaleOk
  let b ← ldBits (o + 12) 0 32 0 .any
  return ⟨kind, bit, src, byte, BitVec.ofNat 32 a, BitVec.ofNat 32 b⟩

/-- The OP of a condition, by its TYPE (Table 14.9). -/
def applyOp (o typ : Nat) : LdM Nat := do
  if typ = 1 ∨ typ = 2 then ldEnum o 1 0
  else if typ = 3 then ldEnum o 2 0
  else if typ = 4 then ldBits o 0 1 0 .any
  else if typ = 5 then
    let op ← ldBits o 0 2 0 (.enum [(0, 2)])
    let kind ← ldBits o 2 3 0 (.enum [(0, 3)])
    let off ← ldBits o 5 1 0 .any
    return op + 4 * kind + 32 * off
  else ldBits o 0 8 0 .any

/-- HYST of types 1 and 2: 0 or more; a negative one takes 0, a NaN the default. DEDUCED, assumption 86. -/
def ldHyst (off : Nat) : LdM Nat := do
  let v ← ldBits off 0 32 0 .any
  if bitsOf v 23 8 = 255 ∧ v % 2 ^ 23 ≠ 0 then
    ldNote off v 0 3 0
    return 0
  else if 2 ^ 31 < v then
    ldNote off v 0 1 0
    return 0
  else return v

def applyCond (_ o : Nat) : LdM AcqCond := do
  let typ ← ldEnum o 7 0
  let op ← applyOp (o + 1) typ
  let ch ← ldBits (o + 2) 0 16 0 .any
  let th ←
    if typ = 5 then do
      let sel ← ldBits (o + 4) 0 16 0 .any
      let w ← ldBits (o + 4) 16 8 1 (.num 1 8)
      pure (sel + 2 ^ 16 * w)
    else ldBits (o + 4) 0 32 0 .any
  let hyst ← if typ = 1 ∨ typ = 2 then ldHyst (o + 8) else ldBits (o + 8) 0 32 0 .any
  let lp ←
    if typ = 2 then ldNum (o + 12) 4 1 256 1
    else if typ = 4 then ldNum (o + 12) 4 1 4096 1
    else ldBits (o + 12) 0 32 1 .any
  let value ← ldBits (o + 16) 0 64 0 .any
  let mask ← ldBits (o + 24) 0 64 0 .any
  return ⟨typ, op, ch, th, hyst, lp, value, mask⟩

def applyRecord : LdM Unit := do
  let (rc, nc) ← ldCount 0 2 33792
  let (rd, nd) ← ldCount 2 2 512
  let (_, nm) ← ldCount 4 4 65536
  ldReg R.ACQ_CTRL_HAUL_ID (← ldNum 8 1 0 15 0)
  let sess ← ldRecs 16 16 64 (applySess nc nd)
  let cb := 1040
  let db := cb + 16 * rc
  let chans ← ldRecs nc cb 16 applyAchan
  let conds ← ldRecs nd db 32 applyCond
  let masks ← ldRecs nm (db + 32 * rd) 8 fun _ o => do
    let lo ← ldBits o 0 32 0 .any
    let hi ← ldBits (o + 4) 0 32 0 .any
    return (BitVec.ofNat 32 lo, BitVec.ofNat 32 hi)
  ldMod fun m => { m with acq := { m.acq with masks := masks } }
  ldImg fun g => { g with sess := sess, achans := chans, achanBase := cb, conds := conds, condBase := db }

/-- A list's items as (index, KIND, REF); items beyond COUNT and items of KIND 0 are none. -/
def applyList (_ o : Nat) : LdM (List (Nat × Nat × Nat)) := do
  let n ← ldNum o 1 1 64 1
  let l ← (List.range 64).mapM fun i => do
    let kind ← ldEnum (o + 8 + 8 * i) 2 0
    let ref ← ldBits (o + 12 + 8 * i) 0 32 0 .any
    return (i, kind, ref)
  return (l.take n).filter fun x => x.2.1 != 0

def applyRule (_ o : Nat) : LdM (EvRule × Nat) := do
  let src ← ldBits o 0 8 0 .any
  let act ← ldBool (o + 1) true
  let lo ← ldBits (o + 2) 0 16 0 .any
  let hi ← ldBits (o + 4) 0 16 0 .any
  let l ← ldBits (o + 6) 0 8 0xFF .any
  return (⟨src, act, lo, hi, if l = 0xFF then none else some l⟩, l)

def applyEvents : LdM Unit := do
  ldReg R.EVR_CTRL_MODE (← ldEnum 0 1 0)
  let (rl, nl) ← ldCount 1 1 64
  let (_, nr) ← ldCount 2 2 1024
  ldReg R.EVR_CTRL_FREEZE_MAX_MS (← ldNum 4 4 10 60000 1000)
  let lists ← ldRecs nl 16 520 applyList
  let rb := 16 + 520 * rl
  let rules ← ldRecs nr rb 8 applyRule
  ldImg fun g => { g with lists := lists, rules := rules, ruleBase := rb }

/-! ### KEYS (R461), MEMERR (R487) -/

/-- A slot, or 0xFFFF for none. -/
def slotOrNone : Rng := .enum [(0, 1023), (0xFFFF, 0xFFFF)]

def applyKeyPort (_ o : Nat) : LdM (Nat × PortKey) := do
  let cak ← ldNat o 2 0xFFFF slotOrNone
  let prio ← ldBits (o + 2) 0 8 128 .any
  let len ← ldNum (o + 4) 1 1 32 1
  let ckn ← ldBytes (o + 8) 32
  return (cak, ⟨if cak = 0xFFFF then none else some cak, prio, ckn.take len⟩)

def applyKeySlot (_ o : Nat) : LdM KeyR := do
  let slot ← ldNum o 2 0 1023 0
  let parent ← ldBits (o + 2) 0 16 0xFFFF .any
  let attr ← ldEnum (o + 4) 6 0
  let len ← ldBits (o + 5) 0 8 0 .any
  let imp ← ldBit (o + 6) 0 false
  let alg ← ldEnum (o + 7) 4 0
  let id ← ldBits (o + 8) 0 32 0 .any
  let label ← ldBytes (o + 16) 64
  return ⟨slot, parent, attr, imp, alg, id, slice label 0 len⟩

def applyKeys : LdM Unit := do
  let (_, n) ← ldCount 0 2 1024
  let img ← ldNat 2 2 0xFFFF slotOrNone
  ldFlag R.KEY_STATUS_LOG_EN (← ldBool 4 true)
  let ports ← ldRecs 11 16 40 applyKeyPort
  let keys ← ldRecs n 456 80 applyKeySlot
  ldMod fun m => { m with keys := { m.keys with
    imgSlot := if img = 0xFFFF then none else some img, ports := ports.zipIdx.map fun (x, p) => (p, x.2) } }
  ldImg fun g => { g with keys := keys, cakSlots := ports.map (·.1) }

def applyMemerr : LdM Unit := do
  ldFlag R.ERR_CTRL_LOG_EN (← ldBool 0 true)
  ldReg R.ERR_CTRL_IRQ_MASK (← ldNum 1 1 0 15 6)
  ldReg R.ERR_CTRL_IRQ_VECTOR (← ldNum 2 2 0 511 0)
  ldReg R.ERR_CTRL_CE_LIMIT (← ldNum 4 4 1 65535 100)

/-! ### All sections -/

/-- The highest section TYPE of Table 4.5. -/
def lastSection : Nat := 0x11

/-- Applies the section of a TYPE. -/
def applySection (typ : Nat) : LdM Unit :=
  match typ with
  | 1 => applyModule
  | 2 => applyReginit
  | 3 => applyTime
  | 4 => applyPorts
  | 5 => applySwitch
  | 6 => applyInstances
  | 7 => applyVat
  | 8 => applyFilter
  | 9 => applyCode
  | 10 => applyTasks
  | 11 => applyGoose
  | 12 => applyLst
  | 13 => applyPair
  | 14 => applyRecord
  | 15 => applyEvents
  | 16 => applyKeys
  | 17 => applyMemerr
  | _ => pure ()

/-- Whether LENGTH is valid for a section's format 1, by the counts that the body's header holds (R103).
DEDUCED, assumption 106. -/
def lengthValid (typ : Nat) (b : Bytes) (len : Nat) : Bool :=
  let n (off k : Nat) : Nat := leAt b off k
  match typ with
  | 1 => len == 48
  | 2 => len % 12 == 0
  | 3 => len == 64
  | 4 => len == 352
  | 5 => len == 1552 + 16 * (n 0 2 + n 2 4) + 8 * (n 6 2 + 4) + 516 * n 8 2
  | 6 => len == 16 + 48 * n 0 2
  | 7 => len == 80 + 128 * n 0 2 + 16 * n 4 4
  | 8 => len == 16 + 16 * n 0 2 + 4 * n 4 4 + 32 * n 8 4
  | 9 => len == 32 + 8 * ceilDiv (n 2 2) 2 + n 4 4 + n 8 4
  | 10 => len == 32 + 128 * n 0 2 + 16 * (n 4 4 + n 8 4 + n 12 2 + n 14 2) + n 16 4
  | 11 => len == 16 + 256 * n 0 2 + 192 * n 4 2 + n 8 4
  | 12 => len == 16 + 64 * n 0 2 + n 4 4
  | 13 => len == 512
  | 14 => len == 1040 + 16 * n 0 2 + 32 * n 2 2 + 8 * n 4 4
  | 15 => len == 16 + 520 * n 1 1 + 8 * n 2 2
  | 16 => len == 456 + 80 * n 0 2
  | 17 => len == 32
  | _ => false

end Sys2Proof.Machine
end

