-- ==== Sys2Proof/Machine/LoadLink.lean ====
section
/-!
DEFINITION. The link and admission step of the loader (R107): which objects of the image stand, with an entry of the load
report for each that does not, in ascending section TYPE and record order; then the objects that depended on a rejected one.
-/

namespace Sys2Proof.Machine

/-! ### Objects that stand -/

/-- The kinds of object that may be rejected. -/
inductive ObjKind where
  | inst | rate | stream | chan | set | chain | entry | task | var | region | init | pub | gsub | conn | sess | rule | key
  deriving DecidableEq, Repr

def ObjKind.code : ObjKind → Nat
  | .inst => 0 | .rate => 1 | .stream => 2 | .chan => 3 | .set => 4 | .chain => 5 | .entry => 6 | .task => 7 | .var => 8
  | .region => 9 | .init => 10 | .pub => 11 | .gsub => 12 | .conn => 13 | .sess => 14 | .rule => 15 | .key => 16

/-- The link step at work: the loader, and the objects rejected so far with their reasons. -/
structure Lk where
  ld : Ld
  dead : SMap Nat

def ObjKind.at (k : ObjKind) (i : Nat) : Nat := k.code * 2 ^ 20 + i

/-- Whether object i of a kind has not been rejected. -/
def Lk.alive (s : Lk) (k : ObjKind) (i : Nat) : Bool := (s.dead.get? (k.at i)).isNone

/-- Whether object i of n exists and stands. -/
def Lk.has (s : Lk) (k : ObjKind) (i n : Nat) : Bool := decide (i < n) && s.alive k i

/-- Rejects an object: an entry at the offset of its record (R110). -/
def Lk.kill (s : Lk) (k : ObjKind) (i typ off reason : Nat) : Lk :=
  { ld := s.ld.reject typ off i reason, dead := s.dead.set (k.at i) reason }

/-- The objects of a list that stand, with their indexes. -/
def Lk.standing {α : Type} (s : Lk) (k : ObjKind) (l : List α) : List (Nat × α) :=
  (l.zipIdx.filter fun (_, i) => s.alive k i).map fun (x, i) => (i, x)

/-- Judges the objects of a list that stand, in order; `why` gives a reason, 0 for none, and what it keeps count of. -/
def Lk.judge {α β : Type} (s : Lk) (k : ObjKind) (typ base size : Nat) (l : List α) (acc : β)
    (why : Lk → β → Nat → α → Nat × β) : Lk × β :=
  l.zipIdx.foldl (fun (s, acc) (x, i) =>
    if s.alive k i then
      let (r, acc) := why s acc i x
      (if r = 0 then s else s.kill k i typ (base + size * i) r, acc)
    else (s, acc)) (s, acc)

/-- Judges without keeping count. -/
def Lk.judge' {α : Type} (s : Lk) (k : ObjKind) (typ base size : Nat) (l : List α) (why : Lk → Nat → α → Nat) : Lk :=
  (s.judge k typ base size l () fun s _ i x => (why s i x, ())).1

def Lk.img (s : Lk) : Img := s.ld.img
def Lk.modM (s : Lk) (f : Module → Module) : Lk := { s with ld := { s.ld with m := f s.ld.m } }

/-- The reason of an object whose references, consistency and capacity are judged in that order.
DEDUCED, assumption 109. -/
def whyNot (missing broken full : Bool) : Nat := if missing then 12 else if broken then 11 else if full then 10 else 0

/-! ### EP in the forwarding (R154) -/

/-- The lowest multicast group that nothing names. -/
def Sw.freeGroup (sw : Sw) : Option Nat :=
  (List.range 8192).find? fun g => (sw.mcg.get? g).isNone && !sw.fdb.any fun (_, f) => f.mcast && f.mcg == g

/-- The lowest HP set without a member. -/
def Sw.freeHpSet (sw : Sw) : Option Nat :=
  (List.range 1024).find? fun s => !sw.hpSets.any fun (k, _) => k / 128 == s

/-- A static entry of a multicast group. DEDUCED, assumption 110. -/
def groupEntry (g now mirror : Nat) : FdbEntry := ⟨0, 0, g, true, true, mirror, now⟩

/-- Adds EP to what one key is forwarded to; none where the table, the groups or the HP sets are full. -/
def Sw.addEp (sw : Sw) (now dst vid : Nat) : Option Sw :=
  let key := fdbKey dst vid
  match sw.fdb.get? key with
  | none =>
    if 65536 ≤ sw.fdb.length then none
    else if isGroup dst then
      sw.freeGroup.map fun g => { sw with
        fdb := sw.fdb.set key (groupEntry g now 0), mcg := sw.mcg.set g ⟨2 ^ 11, 0, false⟩ }
    else some { sw with fdb := sw.fdb.set key ⟨11, 0, 0, false, true, 0, now⟩ }
  | some f =>
    if f.mcast then
      let g := sw.mcg.getD f.mcg ⟨0, 0, false⟩
      some { sw with mcg := sw.mcg.set f.mcg { g with ports := g.ports ||| 2 ^ 11 } }
    else if f.dest = 11 then some sw
    else if f.dest = 10 then
      match sw.freeGroup, sw.freeHpSet with
      | some g, some h => some { sw with
          fdb := sw.fdb.set key (groupEntry g now f.mirror), mcg := sw.mcg.set g ⟨2 ^ 11 + 2 ^ 10, h, true⟩
          hpSets := sw.hpSets.set (h * 128 + f.hpInst / 32) (2 ^ (f.hpInst % 32)) }
      | _, _ => none
    else
      sw.freeGroup.map fun g => { sw with
        fdb := sw.fdb.set key (groupEntry g now f.mirror), mcg := sw.mcg.set g ⟨2 ^ 11 + 2 ^ f.dest, 0, false⟩ }

/-- The distinct PVIDs of P0 to P9. -/
def Module.pvids (m : Module) : List Nat :=
  (List.range 10).foldl (fun l p => let v := m.rd (R.SWC_PORT_CFG_PVID p); if l.contains v then l else l ++ [v]) []

/-- Adds EP to the forwarding of a destination; VID 0 stands for every distinct PVID. The answer says whether it fitted.
DEDUCED, assumptions 96 and 110. -/
def Lk.forwardEp (s : Lk) (dst vid : Nat) : Lk × Bool :=
  let m := s.ld.m
  match (if vid = 0 then m.pvids else [vid]).foldlM (fun (sw : Sw) v => sw.addEp m.mono dst v) m.sw with
  | some sw => (s.modM fun m => { m with sw := sw }, true)
  | none => (s, false)

/-! ### KEYS (R441, R445, R448, R461) -/

/-- Whether a slot record breaks a rule of its own: a slot already defined, R441, R445, the ATTR of an IMPORT. -/
def keyBroken (before : List KeyR) (k : KeyR) : Bool :=
  before.any (·.slot == k.slot) || labelOwn k.label ||
    (if k.import_ then !(k.attr == 1 || k.attr == 2 || k.attr == 6)
     else !labelOk k.label || (k.parent != 0xFFFF && decide (k.slot ≤ k.parent)))

/-- The slot records that stand, in order: those that break no rule and whose parents stand. -/
def keysStanding : Nat → List KeyR → List KeyR
  | 0, l => l
  | n + 1, l =>
    keysStanding n (l.filter fun k => k.import_ || k.parent == 0xFFFF || l.any (·.slot == k.parent))

/-- The slot records with the reason for which each is rejected, 0 for none. -/
def keyReasons (l : List KeyR) : List (KeyR × Nat) :=
  let own := l.zipIdx.map fun (k, i) => (k, if keyBroken (l.take i) k then 11 else 0)
  let good := (own.filter (·.2 == 0)).map (·.1)
  let stand := keysStanding 10 good
  own.map fun (k, r) => (k, if r ≠ 0 then r else if stand.contains k then 0 else 12)

/-- Whether a slot is defined with an attribute. -/
def Img.keyAttr (g : Img) (slot attr : Nat) : Bool :=
  (keyReasons g.keys).any fun (k, r) => r == 0 && k.slot == slot && k.attr == attr

/-! ### INSTANCES (R165, R330, R332, R334, R344) -/

/-- The minimums of the SWITCH section. -/
def Module.switchMins (m : Module) : Nat := classQueues.foldl (fun a j => a + m.guar j) 0

/-- The sums of the minimums admitted: HP cells, DMA, recorder bandwidth, pages; whether one did not fit. -/
structure InstUse where
  hp : Nat
  dma : Nat
  rec_ : Nat
  xlt : Nat
  full : Bool

def InstUse.add (u : InstUse) (x : InstR) : InstUse :=
  ⟨u.hp + x.hpMin, u.dma + x.dmaMin, u.rec_ + x.recMin, u.xlt + x.xltPages, u.full⟩

def InstUse.fits (u : InstUse) : Bool :=
  !u.full && decide (u.hp ≤ 60576) && decide (u.dma ≤ 48000) && decide (u.rec_ ≤ 4000) && decide (u.xlt ≤ 33554432)

/-- Whether the chain ranges of two records overlap. -/
def InstR.overlaps (a b : InstR) : Bool :=
  decide (max a.chainFirst b.chainFirst < min (a.chainFirst + a.chainCount) (b.chainFirst + b.chainCount))

/-- Puts an indexed record into a list in ascending ID. -/
def byId (x : Nat × InstR) : List (Nat × InstR) → List (Nat × InstR)
  | [] => [x]
  | y :: r => if x.2.id < y.2.id then x :: y :: r else y :: byId x r

def Lk.insts (s : Lk) : List (Nat × InstR) := s.standing .inst s.img.insts

/-- DEDUCED, assumption 109. -/
def Lk.linkInsts (s : Lk) : Lk :=
  let s := s.judge' .inst 6 16 48 s.img.insts fun s i x =>
    whyNot false (s.insts.any fun (j, y) => decide (j < i) && (y.id == x.id || y.overlaps x)) false
  let order := s.insts.foldr byId []
  (order.foldl (fun (s, u) (i, x) =>
    let v := InstUse.add u x
    if v.fits then (s, v) else (s.kill .inst i 6 (16 + 48 * i) 10, { u with full := true }))
    (s, (⟨s.ld.m.switchMins, 0, 0, 0, false⟩ : InstUse))).1

/-- The admitted record that names an instance. -/
def Lk.inst? (s : Lk) (i : Nat) : Option InstR := (s.insts.find? fun (_, x) => x.id == i).map (·.2)

/-! ### VAT (R154, R195 to R197, R218, R448) -/

/-- What the admitted channel records take: the largest window and decimation of each stream channel (keyed stream × 32 +
channel), the channel-rate budget, the SRAM; whether the budget or the SRAM has turned one away. -/
structure VatUse where
  pairs : SMap (Nat × Nat)
  budget : Nat
  sram : Nat
  noBudget : Bool
  noSram : Bool

/-- I_DEPTH of R197. -/
def inputDepth (w d fs : Nat) : Nat := ceilDiv ((w + 1000000) * fs) 1000000000 + d

/-- A channel record is charged. -/
def VatUse.add (u : VatUse) (pair fs : Nat) (r : RateR) (d : Nat) : VatUse :=
  let (w1, d1, before) := match u.pairs.get? pair with
    | some (w0, d0) => (max w0 r.w, max d0 d, inputDepth w0 d0 fs)
    | none => (r.w, d, 0)
  { u with
    pairs := u.pairs.set pair (w1, d1)
    budget := if (u.pairs.get? pair).isSome then u.budget else u.budget + fs
    sram := u.sram + 8 * r.depth + 8 * (inputDepth w1 d1 fs - before) }

/-- F_v of a rate record, none where it is not a whole number. -/
def RateR.f? (r : RateR) : Option Nat := if rateCode r.code % r.decim = 0 then some (rateCode r.code / r.decim) else none

def RateR.f (r : RateR) : Nat := rateCode r.code / max 1 r.decim

def sramBytes : Nat := 67108864

/-- The SRAM of the enabled rates that stand. -/
def Lk.rates (s : Lk) : List (Nat × RateR) := (s.standing .rate s.img.rates).filter (·.2.en)

def Lk.rate? (s : Lk) (v : Nat) : Option RateR := (s.rates.find? fun (i, _) => i == v).map (·.2)

def Lk.stream? (s : Lk) (i : Nat) : Option StreamR := if s.alive .stream i then s.img.streams[i]? else none

def Lk.rateSram (s : Lk) : Nat := s.rates.foldl (fun a (_, r) => a + 32 * r.depth) 0

/-- The decimation of a channel record, none where the stream rate is not a whole multiple. -/
def Lk.decim? (s : Lk) (c : ChanR) : Option Nat :=
  match s.stream? c.stream, s.rate? c.vrate with
  | some x, some r => if rateCode x.code % r.f = 0 then some (rateCode x.code / r.f) else none
  | _, _ => none

def Lk.chans (s : Lk) : List (Nat × ChanR) := s.standing .chan s.img.chans

/-- What the channel records that stand take, charged in order. -/
def Lk.vatUse (s : Lk) : VatUse :=
  s.chans.foldl (fun u (_, c) =>
    match s.stream? c.stream, s.rate? c.vrate, s.decim? c with
    | some x, some r, some d => u.add (32 * c.stream + c.src) (rateCode x.code) r d
    | _, _, _ => u) ⟨[], 0, s.rateSram, false, false⟩

def Lk.chanMissing (s : Lk) (c : ChanR) : Bool := (s.stream? c.stream).isNone || (s.rate? c.vrate).isNone

/-- One channel record against the budget and the SRAM. -/
def admitChan (u : VatUse) (pair fs : Nat) (r : RateR) (d : Nat) : Nat × VatUse :=
  let v := u.add pair fs r d
  let excess := decide (78643200 < v.budget)
  if (u.noBudget ∧ v.budget ≠ u.budget) ∨ excess then (10, { u with noBudget := true })
  else if u.noSram ∨ sramBytes < v.sram then (10, { u with noSram := true })
  else (0, v)

/-- DEDUCED, assumption 109. -/
def Lk.linkVat (s : Lk) : Lk :=
  let s := s.judge' .rate 7 16 16 s.img.rates fun _ _ r => whyNot false (r.en && r.f?.isNone) false
  let s := s.img.streams.zipIdx.foldl (fun s (x, i) =>
    let off := 80 + 128 * i
    if x.auth && !s.img.keyAttr x.key 1 then s.kill .stream i 7 off 12
    else match s.forwardEp x.dst x.vid with
      | (s, true) => s
      | (s, false) => s.kill .stream i 7 off 10) s
  (s.judge .chan 7 s.img.chanBase 16 s.img.chans (⟨[], 0, s.rateSram, false, false⟩ : VatUse) fun s u i c =>
    match s.stream? c.stream, s.rate? c.vrate with
    | some x, some r =>
      let twin := s.chans.any fun (j, y) =>
        decide (j < i) && y.stream == c.stream && y.src == c.src && y.vrate == c.vrate
      match s.decim? c with
      | none => (11, u)
      | some d => if x.nchan ≤ c.src ∨ twin then (11, u) else admitChan u (32 * c.stream + c.src) (rateCode x.code) r d
    | _, _ => (12, u)).1

/-! ### FILTER (R219, R222, R227, R236) -/

/-- The words that a set stores (Table 9.1). -/
def setStored (n kind : Nat) : Nat := if kind = 0 then ceilDiv n 2 else 16 * (n - 1) + 1

/-- Whether a set crosses a bank boundary or holds a word that is not finite. -/
def Module.setBroken (m : Module) (s : Nat) : Bool :=
  let w := m.rd (R.FLT_SET_WORD s)
  let k := setStored (m.rd (R.FLT_SET_N s)) (m.rd (R.FLT_SET_KIND s))
  decide (262144 < w + k) || w / 32768 != (w + k - 1) / 32768 ||
    m.vat.cmem.any fun (x, v) => decide (w ≤ x) && decide (x < w + k) && !finiteBits v

/-- The costs of a chain: Q in MAC/s, K in MACs, B in bytes (R227). `fs` is the chain's input rate. -/
def ChainR.cost (c : ChainR) (fs : Nat) : Nat × Nat × Nat :=
  let (q, _) := c.stages.foldl (fun (q, r) (_, n, d) => (q + n * (r / d), r / d)) (0, fs)
  let (k, _) := c.stages.foldr (fun (_, n, d) (k, mNext) => (k + mNext * min n (mNext * d), mNext * d)) (0, 1)
  let b := 32 + 8 * c.stages.foldl (fun a (_, n, _) => a + n) 0
  (q, k, ceilDiv b 32 * 32)

/-- Whether a chain breaks R219 for a channel of input rate fs and decimation d. -/
def Lk.chainBroken (s : Lk) (c : ChainR) (fs d : Nat) : Bool :=
  let kinds := c.stages.zipIdx.any fun ((set, _, _), i) => s.ld.m.rd (R.FLT_SET_KIND set) != b2n (i == 0)
  let (whole, _) := c.stages.foldl (fun (ok, r) (_, _, d) => (ok && r % d == 0, r / d)) (true, fs)
  kinds || !whole || c.stages.foldl (fun a (_, _, d) => a * d) 1 != d

/-- The chain record that stands for a channel. -/
def Lk.chainOf (s : Lk) (c : Nat) : Option (Nat × ChainR) :=
  (s.standing .chain s.img.chains).find? fun (_, x) => x.chain == c

def Lk.chainMissing (s : Lk) (x : ChainR) : Bool :=
  !s.has .chan x.chain s.img.chans.length || x.stages.any fun (set, _, _) => !s.has .set set s.img.nSets

/-- The sums of the admitted chains; whether one did not fit. -/
structure FltUse where
  q : Nat
  k : Nat
  b : Nat
  full : Bool

/-- One channel and its chain, if it has one: the chain is admitted, or both are rejected. -/
def Lk.linkChain (s : Lk) (u : FltUse) (c : Nat) (ch : ChanR) : Lk × FltUse :=
  let off := s.img.chanBase + 16 * c
  match s.chainOf c with
  | none => (if s.alive .chan c then s.kill .chan c 7 off 12 else s, u)
  | some (i, x) =>
    let fs := ((s.stream? ch.stream).map fun y => rateCode y.code).getD 1
    let (q, k, b) := x.cost fs
    let v : FltUse := ⟨u.q + q, u.k + k, u.b + b, u.full⟩
    let missing := s.chainMissing x
    let broken := s.chainBroken x fs ((s.decim? ch).getD 0)
    let excess := u.full || decide (36000000000 < v.q) || decide (72000 < v.k) || decide (sramBytes < s.vatUse.sram + v.b)
    let why := whyNot missing broken excess
    if why = 0 then (s, v)
    else
      let s := s.kill .chain i 8 (s.img.chainBase + 32 * i) why
      (if s.alive .chan c then s.kill .chan c 7 off 12 else s, if why = 10 then { u with full := true } else u)

def Lk.linkFilter (s : Lk) : Lk :=
  let s := (List.range s.img.nSets).foldl (fun s i => if s.ld.m.setBroken i then s.kill .set i 8 (16 + 16 * i) 11 else s) s
  let s := s.judge' .chain 8 s.img.chainBase 32 s.img.chains fun s i x =>
    whyNot (decide (s.img.chans.length ≤ x.chain))
      (match i, s.img.chains[i - 1]? with
       | 0, _ => false
       | _, some y => decide (x.chain ≤ y.chain)
       | _, none => false) false
  (s.img.chans.zipIdx.foldl (fun (s, u) (ch, c) => Lk.linkChain s u c ch) (s, (⟨0, 0, 0, false⟩ : FltUse))).1

/-! ### CODE (R265) -/

def Lk.linkCode (s : Lk) : Lk :=
  s.judge' .entry 9 32 4 s.img.entries fun s _ pc => whyNot false (pc % 8 != 0 || decide (s.img.codeLen ≤ pc)) false

/-! ### TASKS (R248, R288 to R291, R299) -/

/-- The grid of instants of an operand: of a rate, of a tick (PERIOD_US, PHASE_US), or a source of its own. -/
inductive Grid where
  | rate (f : Nat)
  | tick (p q : Nat)
  | other (kind source : Nat)
  deriving DecidableEq, Repr

/-- The operand whose instants a commit operand carries: its predecessor's trigger. -/
def Lk.rootOp : Nat → Lk → Operand → Operand
  | 0, _, o => o
  | n + 1, s, o =>
    if o.kind = 5 then
      match (s.img.tasks[o.source]?).bind (·.ops.head?) with
      | some p => rootOp n s p
      | none => o
    else o

def Lk.grid (s : Lk) (o : Operand) : Grid :=
  let o := Lk.rootOp (s.img.tasks.length + 1) s o
  if o.kind = 1 then .rate (((s.rate? o.source).map (·.f)).getD 1)
  else if o.kind = 4 then .tick o.p1 o.p2 else .other o.kind o.source

/-- Whether an instant within its second, in ns, lies on a grid. -/
def Grid.has (g : Grid) (t : Nat) : Bool :=
  match g with
  | .rate f => gridNs f (gridAt f t) == t
  | .tick p q => t % 1000 == 0 && t / 1000 % p == q
  | .other _ _ => false

/-- Whether every instant of a grid is one of another (R290, R198). -/
def Grid.within (a b : Grid) : Bool :=
  if a = b then true
  else match a with
    | .rate f => (List.range f).all fun n => b.has (gridNs f n)
    | .tick p q => (List.range (1000000 / p)).all fun k => b.has (1000 * (q + p * k))
    | .other _ _ => false

/-- The operands in use with their slots. -/
def TaskRec.used (r : TaskRec) : List (Operand × Nat) := r.ops.zipIdx.filter fun (o, _) => o.kind != 0

/-- The map entries of a task. -/
def Img.mapsOf (g : Img) (r : TaskRec) : List MapEntry := (g.maps.drop r.mapFirst).take r.mapCount

/-- The vat channels of a rate. -/
def Lk.nchan (s : Lk) (v : Nat) : Nat := (s.chans.filter fun (_, c) => c.vrate == v).length

def Lk.varOk (s : Lk) (i : Nat) : Bool := s.has .var i s.img.vars.length
def Lk.gsubOk (s : Lk) (i : Nat) : Bool := s.has .gsub i s.img.gsubs.length
def Lk.connOk (s : Lk) (i : Nat) : Bool := s.has .conn i s.img.conns.length
def Lk.taskOk (s : Lk) (i : Nat) : Bool := s.has .task i s.img.tasks.length

/-- Whether a task names something that is missing. -/
def Lk.taskMissing (s : Lk) (r : TaskRec) : Bool :=
  (s.inst? r.inst).isNone || !s.has .entry r.entry s.img.entries.length ||
  decide (s.img.maps.length < r.mapFirst + r.mapCount) ||
  (r.used.any fun (o, _) =>
    match o.kind with
    | 1 => (s.rate? o.source).isNone
    | 2 => !s.gsubOk o.source
    | 3 => !s.connOk o.source
    | 5 => !s.taskOk o.source
    | _ => false) ||
  (s.img.mapsOf r).any fun e =>
    match e.kind with
    | 3 => !s.gsubOk e.source
    | 4 => !s.connOk e.source
    | 5 => !s.varOk e.source
    | 6 => !s.taskOk e.source
    | _ => false

/-- The trigger period in ns (R289); none for other triggers. -/
def Lk.period (s : Lk) (o : Operand) : Option Nat :=
  if o.kind = 1 then (s.rate? o.source).map fun r => ceilDiv 1000000000 r.f
  else if o.kind = 4 then some (o.p1 * 1000) else none

/-- R289. -/
def Lk.classBroken (s : Lk) (r : TaskRec) : Bool :=
  decide (r.deadlineNs < r.budgetNs) ||
  (r.pclass && (decide (r.level < s.ld.m.rd R.SCH_CTRL_RSV_LEVEL) ||
    match (r.ops.head?).bind s.period with
    | none => true
    | some p => decide (250000 < p) || decide (p < r.deadlineNs)))

/-- Whether a task's commit operands lead back to it. -/
def Lk.reaches : Nat → Lk → Nat → List Nat → Bool
  | 0, _, _, _ => false
  | n + 1, s, t, l =>
    let next := l.flatMap fun i => match s.img.tasks[i]? with
      | some r => (r.used.filter fun (o, _) => o.kind == 5).map (·.1.source)
      | none => []
    next.contains t || (next != [] && reaches n s t next.eraseDups)

/-- The tasks that a task's commit operands and task output entries name. -/
def Img.tasksNamed (g : Img) (r : TaskRec) : List Nat :=
  ((r.used.filter fun (o, _) => o.kind == 5).map (·.1.source)) ++ (((g.mapsOf r).filter (·.kind == 6)).map (·.source))

def Lk.ownerOf (s : Lk) (t : Nat) : Option Nat := ((s.img.tasks[t]?).bind fun r => s.inst? r.inst).map (·.owner)

/-- R290. -/
def Lk.operandsBroken (s : Lk) (t : Nat) (r : TaskRec) : Bool :=
  match r.used with
  | (o, 0) :: rest =>
    o.mode != 0 || rest.any (fun (p, _) => p.mode == 0) ||
    (rest.any fun (p, _) => p.mode == 1 &&
      ((p.kind != 1 && p.kind != 5) || !(s.grid o).within (s.grid p))) ||
    ((s.img.tasksNamed r).any fun i => s.ownerOf i != s.ownerOf t) ||
    Lk.reaches s.img.tasks.length s t [t]
  | _ => true

/-- The bytes that a map entry takes in the image. -/
def Lk.mapLen (s : Lk) (e : MapEntry) : Nat :=
  match e.kind with
  | 1 => 8 * e.len
  | 2 => 32
  | 3 => 16 + ((s.img.gsubs[e.source]?).map (·.dsLen)).getD 0
  | 4 => 16 + ((s.img.conns[e.source]?).map (·.dlen)).getD 0
  | 5 => 16
  | _ => e.len

/-- R299. -/
def Lk.mapsBroken (s : Lk) (r : TaskRec) : Bool :=
  let l := s.img.mapsOf r
  let spans := l.map fun e => (e.at_, e.at_ + s.mapLen e)
  (l.any fun e =>
    if e.kind = 1 ∨ e.kind = 2 then
      match r.ops[e.source]? with
      | some o => o.kind != 1 || (e.kind == 1 && decide (s.nchan o.source < e.first + e.len))
      | none => true
    else e.kind == 4 && ((s.img.conns[e.source]?).map (·.dir)).getD false) ||
  (spans.any fun (a, b) => decide (a < 16) || decide (r.inLen < b)) ||
  spans.zipIdx.any fun ((a, b), i) => (spans.take i).any fun (c, d) => decide (max a c < min b d)

/-- Whether a task fits local memory (R248). -/
def Lk.fitsLocal (s : Lk) (r : TaskRec) : Bool :=
  let up (n : Nat) : Nat := ceilDiv n 32 * 32
  let img := up r.inLen + up r.outLen + up r.winLen
  decide (1024 + img + up r.locLen ≤ s.ld.m.rd R.BEN_LAYOUT_CTX_BYTES) && decide (img ≤ 49152)

/-- DEDUCED, assumption 109. -/
def Lk.linkTasks (s : Lk) : Lk :=
  let s := (s.judge .task 10 32 128 s.img.tasks (0, false) fun s (sum, full) i r =>
    let excess := full || decide (65536 < sum + r.maxOpen)
    let why := whyNot (s.taskMissing r) (s.classBroken r || s.operandsBroken i r || s.mapsBroken r) (!s.fitsLocal r || excess)
    (why, if why = 0 then (sum + r.maxOpen, full) else (sum, full || (why == 10 && s.fitsLocal r)))).1
  let s := s.judge' .var 10 s.img.varBase 16 s.img.vars fun s _ x => whyNot (s.inst? x.inst).isNone false false
  let s := s.judge' .region 10 s.img.regionBase 16 s.img.regions fun s _ x => whyNot (s.inst? x.inst).isNone false false
  s.judge' .init 10 s.img.initBase 16 s.img.inits fun s _ x => whyNot (s.inst? x.inst).isNone false false

/-! ### GOOSE (R154, R317, R448) and LST (R154, R419, R435) -/

def Lk.pubMissing (s : Lk) (r : PubRec) : Bool := (r.auth && !s.img.keyAttr r.keySlot 1) || !s.taskOk r.task

def Lk.gsubMissing (s : Lk) (r : GSubRec) : Bool :=
  (r.auth && !s.img.keyAttr r.keySlot 1) || (r.lst && !s.connOk r.lstConn)

def Lk.outLen (s : Lk) (t : Nat) : Nat := ((s.img.tasks[t]?).map (·.outLen)).getD 0

def Lk.linkGoose (s : Lk) : Lk :=
  let s := s.judge' .pub 11 16 256 s.img.pubs fun s _ r =>
    whyNot (s.pubMissing r) (decide (s.outLen r.task < r.dsOff + r.dsLen)) false
  s.img.gsubs.zipIdx.foldl (fun s (r, j) =>
    let off := s.img.gsubBase + 192 * j
    if s.gsubMissing r then s.kill .gsub j 11 off 12
    else match s.forwardEp r.dst r.vid with
      | (s, true) => s
      | (s, false) => s.kill .gsub j 11 off 10) s

/-- The encoded length of the element that carries a PDU (R414). -/
def elementLen (dlen : Nat) : Nat :=
  let l := 24 + dlen
  if l < 128 then 2 + l else if l < 256 then 3 + l else 4 + l

def Lk.connMissing (s : Lk) (x : ConnR) : Bool :=
  (x.dir && (!s.taskOk x.task || (x.goose && !s.has .pub x.pub s.img.pubs.length))) ||
    (x.safeOff != 0xFFFFFFFF && decide (s.ld.m.lst.blob.length < x.safeOff + x.dlen))

/-- The consistency rules of a connection. -/
def Lk.connBroken (s : Lk) (c : Nat) (x : ConnR) : Bool :=
  let earlier := (s.standing .conn s.img.conns).filter fun (j, _) => decide (j < c)
  (x.dir && decide (s.outLen x.task < x.dataOff + x.dlen)) ||
  (x.dir && x.goose && (
    (match s.img.pubs[x.pub]? with
     | some p => p.task != x.task || p.numEnt != 1
     | none => false) ||
    earlier.any fun (_, y) => y.dir && y.goose && y.pub == x.pub)) ||
  (!x.dir && !x.goose && earlier.any fun (_, y) =>
    !y.dir && !y.goose && y.dst == x.dst && y.vid == x.vid && y.id == x.id) ||
  (s.standing .gsub s.img.gsubs).any fun (_, r) =>
    r.lst && r.lstConn == c && (x.dir || !x.goose || r.dsLen != elementLen x.dlen)

def Lk.linkLst (s : Lk) : Lk :=
  s.img.conns.zipIdx.foldl (fun s (x, c) =>
    let off := 16 + 64 * c
    let why := whyNot (s.connMissing x) (s.connBroken c x) false
    if why ≠ 0 then s.kill .conn c 12 off why
    else if x.dir || x.goose then s
    else match s.forwardEp x.dst x.vid with
      | (s, true) => s
      | (s, false) => s.kill .conn c 12 off 10) s

/-! ### PAIR (R395) -/

/-- The station path: rejected where HB_PORT is not the lower port of a PRP pair, else HB_DST reaches EP. -/
def Lk.linkPair (s : Lk) : Lk :=
  let cfg := s.ld.m.red.cfg
  if !cfg.stEn then s
  else if s.ld.m.redund cfg.hbPort ≠ 1 then
    let flags := b2n (s.ld.m.isOn R.RED_CTRL_REVERT) + 2
    { s with ld := s.ld.note (13 * 2 ^ 24 + 3) flags 0 11 0 }.modM fun m =>
      { m with red := { m.red with cfg := { cfg with stEn := false } } }
  else if cfg.pairMode then (s.forwardEp cfg.hbDst cfg.hbVid).1 else s

/-! ### RECORD (R345, R346, R354, R356, R360, R366, R369) -/

def SessR.chans (x : SessR) (g : Img) : List (AcqChan × Nat) := (g.achans.zipIdx.drop x.chFirst).take x.chCount
def SessR.conds (x : SessR) (g : Img) : List (AcqCond × Nat) := (g.conds.zipIdx.drop x.condFirst).take x.condCount

/-- Whether a channel entry of a session names a missing source. DEDUCED, assumption 116. -/
def Lk.achanMissing (s : Lk) (v : Nat) (c : AcqChan) : Bool :=
  match c.kind with
  | 2 => !s.varOk c.source
  | 3 => !s.gsubOk c.source
  | 4 => !s.connOk c.source
  | _ => decide (s.nchan v ≤ c.source)

/-- Whether a condition names a missing source (Table 14.6). DEDUCED, assumption 116. -/
def Lk.acondMissing (s : Lk) (c : AcqCond) : Bool :=
  c.typ == 5 &&
    match bitsOf c.op 2 3 with
    | 0 => !s.gsubOk c.ch
    | 1 => !s.has .stream c.ch s.img.streams.length
    | 2 => !s.connOk c.ch
    | _ => decide (10 ≤ c.ch)

/-- The analogue, binary and trend columns of a list of entries. -/
def columns (l : List AcqChan) : Nat × Nat × Nat :=
  ((l.filter (·.kind == 1)).length, (l.filter fun c => c.kind == 2 || c.kind == 3 || c.kind == 4).length,
    (l.filter (·.kind == 5)).length)

/-- R356 for a condition of a session at rate f. -/
def condBroken (cols : Nat × Nat × Nat) (f : Nat) (c : AcqCond) : Bool :=
  let (na, nb, _) := cols
  match c.typ with
  | 1 => decide (na ≤ c.ch)
  | 2 => decide (na ≤ c.ch)
  | 3 => decide (nb ≤ c.ch)
  | 4 => decide (na ≤ c.ch) || f % c.lp != 0
  | 5 => bitsOf c.op 2 3 == 3 && !bitOf c.op 5
  | _ => false

def SessR.slot (x : SessR) (g : Img) : Nat :=
  let (na, nb, _) := columns ((x.chans g).map (·.1))
  let data := if bitOf x.flags 1 then 4 * na + 2 * ceilDiv nb 16 else 4 * na + 4 * ceilDiv nb 32
  ceilDiv (8 + data) 32 * 32

def SessR.trendSlot (x : SessR) (g : Img) : Nat :=
  let (_, _, nt) := columns ((x.chans g).map (·.1))
  if nt = 0 then 0 else ceilDiv (8 + 16 * nt) 32 * 32

/-- Inflow in MB/s, rounded up (R360). -/
def SessR.inflow (x : SessR) (g : Img) (f : Nat) : Nat :=
  ceilDiv (x.slot g * f * 2 ^ x.trendK + x.trendSlot g * f) (2 ^ x.trendK * 1000000)

/-- Whether the ring holds fewer than R_MAX + 1 slots. -/
def SessR.ringShort (x : SessR) (g : Img) (f : Nat) : Bool :=
  decide (x.ringMib * 2 ^ 20 / x.slot g < ceilDiv ((x.preUs + x.maxUs) * f) 1000000 + 1)

def SessR.global (x : SessR) : Bool := bitOf x.flags 0

/-- What the admitted sessions take: reserved inflow, MiB of DRAM; whether either has turned one away. -/
structure AcqUse where
  mbps : Nat
  mib : Nat
  noBw : Bool
  noMib : Bool

/-- The references of a session that an entry does not report on. -/
def Lk.sessMissing (s : Lk) (x : SessR) : Bool :=
  (s.rate? x.vrate).isNone || (s.inst? x.inst).isNone ||
    ((x.chans s.img).any fun (c, _) => s.achanMissing x.vrate c) || (x.conds s.img).any fun (c, _) => s.acondMissing c

/-- Reports the entries and conditions of a session that name a missing source, and makes the conditions that break R356
conditions that never fire. -/
def Lk.linkConds (s : Lk) (x : SessR) : Lk :=
  let f := ((s.rate? x.vrate).map (·.f)).getD 1
  let cols := columns ((x.chans s.img).map (·.1))
  let s : Lk := (x.chans s.img).foldl (fun (s : Lk) (c, i) =>
    if s.achanMissing x.vrate c then { s with ld := s.ld.reject 14 (s.img.achanBase + 16 * i) i 12 } else s) s
  (x.conds s.img).foldl (fun (s : Lk) (c, i) =>
    let off := s.img.condBase + 32 * i
    if s.acondMissing c then { s with ld := s.ld.reject 14 off i 12 }
    else if condBroken cols f c then
      let ld := s.ld.reject 14 off i 11
      { s with ld := { ld with img := { ld.img with conds := ld.img.conds.set i { c with typ := 0 } } } }
    else s) s

/-- A session that is not enabled is none, and nothing is reported of it. -/
def Lk.noSess (s : Lk) (i : Nat) : Lk := { s with dead := s.dead.set (ObjKind.sess.at i) 0 }

def Lk.linkRecord (s : Lk) : Lk :=
  (s.img.sess.zipIdx.foldl (fun ((s : Lk), u) (x, i) =>
    if !x.en then (Lk.noSess s i, u)
    else
      let s := Lk.linkConds s x
      let g := s.img
      let off := 16 + 64 * i
      let f := ((s.rate? x.vrate).map (·.f)).getD 1
      let (na, nb, nt) := columns ((x.chans g).map (·.1))
      let globals := (s.standing .sess g.sess).filter fun (j, y) => decide (j < i) && y.global
      let broken := (x.global && globals.any fun (_, y) => y.group == x.group) || x.ringShort g f
      let bw := if bitOf x.flags 2 then x.inflow g f else 0
      let mib := x.ringMib + x.trendMib
      let cols := decide (1024 < na) || decide (1024 < nb) || decide (64 < nt) || (x.global && decide (4 ≤ globals.length))
      let overBw := bitOf x.flags 2 && (u.noBw || decide (2000 < u.mbps + bw))
      let overMib := u.noMib || decide (8192 < u.mib + mib)
      let why := whyNot (s.sessMissing x) broken (cols || overBw || overMib)
      if why = 0 then (s, ({ u with mbps := u.mbps + bw, mib := u.mib + mib } : AcqUse))
      else
        let u : AcqUse := if why = 10 ∧ !cols then { u with noBw := u.noBw || overBw, noMib := u.noMib || overMib } else u
        (s.kill .sess i 14 off why, u)) (s, (⟨0, 0, false, false⟩ : AcqUse))).1

/-! ### EVENTS (R389), KEYS (R461) -/

/-- Whether a snapshot item names something. -/
def Lk.itemOk (s : Lk) (kind ref : Nat) : Bool :=
  if kind = 1 then ref % 4 == 0 && decide (ref < 0x1200000) && (findReg ref).isSome else s.varOk ref

def Lk.linkEvents (s : Lk) : Lk :=
  let s := s.img.lists.zipIdx.foldl (fun (s : Lk) (l, i) =>
    l.foldl (fun (s : Lk) (k, kind, ref) =>
      if s.itemOk kind ref then s
      else { s with ld := s.ld.reject 15 (16 + 520 * i + 8 + 8 * k) k 12 }) s) s
  s.judge' .rule 15 s.img.ruleBase 8 s.img.rules fun s _ (_, l) =>
    whyNot (l != 0xFF && decide (s.img.lists.length ≤ l)) false false

/-- The slot records, then the port records whose CAK_SLOT is no LINK slot of an IMPORT record.
DEDUCED, assumption 109. -/
def Lk.linkKeys (s : Lk) : Lk :=
  let s := s.img.cakSlots.zipIdx.foldl (fun (s : Lk) (c, p) =>
    if c = 0xFFFF ∨ ((keyReasons s.img.keys).any fun (k, r) => r == 0 && k.slot == c && k.attr == 2 && k.import_) then s
    else
      let s : Lk := { s with ld := s.ld.note (16 * 2 ^ 24 + 16 + 40 * p) c 0xFFFF 3 0 }
      s.modM fun m => { m with keys := { m.keys with
        ports := modMap m.keys.ports p ⟨none, 128, []⟩ fun x => { x with cak := none } } }) s
  (keyReasons s.img.keys).zipIdx.foldl (fun s ((_, r), i) => if r = 0 then s else s.kill .key i 16 (456 + 80 * i) r) s

/-! ### Dependents of rejected objects (R107) -/

/-- One pass over every object that stands: those whose references no longer stand are rejected.
DEDUCED, assumption 109. -/
def Lk.sweep (s : Lk) : Lk :=
  let s := s.judge' .chan 7 s.img.chanBase 16 s.img.chans fun s c x => whyNot (s.chanMissing x || (s.chainOf c).isNone) false false
  let s := s.judge' .chain 8 s.img.chainBase 32 s.img.chains fun s _ x => whyNot (s.chainMissing x) false false
  let s := s.judge' .task 10 32 128 s.img.tasks fun s _ r => whyNot (s.taskMissing r) false false
  let s := s.judge' .pub 11 16 256 s.img.pubs fun s _ r => whyNot (s.pubMissing r) false false
  let s := s.judge' .gsub 11 s.img.gsubBase 192 s.img.gsubs fun s _ r => whyNot (s.gsubMissing r) false false
  let s := s.judge' .conn 12 16 64 s.img.conns fun s _ x => whyNot (s.connMissing x) false false
  s.judge' .sess 14 16 64 s.img.sess fun s _ x => whyNot (s.sessMissing x) false false

/-- Passes until one rejects nothing. -/
def Lk.close : Nat → Lk → Lk
  | 0, s => s
  | n + 1, s =>
    let t := s.sweep
    if t.dead.length = s.dead.length then s else close n t

/-- The whole link step, but for commit groups. DEDUCED, assumption 109. -/
def Lk.run (s : Lk) : Lk :=
  let s := s.linkInsts.linkVat.linkFilter.linkCode.linkTasks.linkGoose.linkLst.linkPair.linkRecord.linkEvents.linkKeys
  Lk.close 65536 s

end Sys2Proof.Machine
end

