-- ==== Sys2Proof/Machine/Loader.lean ====
section
/-!
DEFINITION. The culture loader (R95 to R112): the header checks, the choice of a copy, the sections, what the linked objects set
up, commit groups (R49, R50), the load report and its copy in the Cave.
-/

namespace Sys2Proof.Machine

/-! ### Header checks (Table 4.3) -/

/-- An entry of the section table (Table 4.2). -/
structure SectionEntry where
  typ : Nat
  sformat : Nat
  essential : Bool
  offset : Nat
  length : Nat
  crc : Nat
  digest : Bytes

/-- H of R98. -/
def headerLen (b : Bytes) : Nat := 256 + 64 * leAt b 6 2

def sectionEntry (b : Bytes) (i : Nat) : SectionEntry :=
  let o := 256 + 64 * i
  ⟨leAt b o 2, leAt b (o + 2) 2, bitOf (leAt b (o + 4) 4) 0, leAt b (o + 8) 4, leAt b (o + 12) 4, leAt b (o + 16) 4,
    slice b (o + 24) 32⟩

def sectionTable (b : Bytes) : List SectionEntry := (List.range (leAt b 6 2)).map (sectionEntry b)

/-- Check 8: the section table is sound. -/
def tableSound (b : Bytes) : Bool :=
  let l := sectionTable b
  (l.all fun e => e.offset % 256 == 0 && decide (headerLen b + 72 ≤ e.offset) && decide (e.offset + e.length ≤ leAt b 8 4)) &&
  (l.zipIdx.all fun (e, i) => (l.take i).all fun d =>
    decide (d.typ < e.typ) &&
      (decide (d.offset + d.length ≤ e.offset) || decide (e.offset + e.length ≤ d.offset) || d.length == 0 || e.length == 0))

/-- Whether an OTP owner slot is programmed. -/
def Module.owned (m : Module) : Bool := (List.range 4).any fun n => (m.ownerSlot n).programmed

/-- Check 5 (R100). -/
def Module.ownerOk (m : Module) (b : Bytes) : Bool :=
  !m.owned ||
    (let x := m.ownerSlot (leAt b 14 1)
     decide (leAt b 14 1 ≤ 3) && x.live && x.hash == sha256 (slice b 64 64))

/-- The number of the first check of Table 4.3 that a header fails, 0 for none. DEDUCED, assumption 104. -/
def Module.headerCheck (m : Module) (b : Bytes) : Nat :=
  let h := headerLen b
  let n := leAt b 6 2
  let len := leAt b 8 4
  if leAt b 0 4 ≠ 0x5543545A then 1
  else if leAt b 4 2 ≠ 1 ∨ n = 0 ∨ 64 < n then 2
  else if leAt b h 4 ≠ crc32c (b.take h) then 3
  else if leAt b 12 2 ≠ 0x6432 then 4
  else if !m.ownerOk b then 5
  else if !ecdsaVerify (slice b 64 64) (b.take (h + 8)) (slice b (h + 8) 64) then 6
  else if len < 4424 ∨ 67108864 < len then 7
  else if !tableSound b then 8 else 0

/-! ### Sections (R102 to R104) -/

/-- Why a section takes its defaults as a whole, with OFFERED and APPLIED; reason 0 for none.
DEDUCED, assumption 105. -/
def sectionFault (e : SectionEntry) (body : Bytes) : Nat × Nat × Nat :=
  if crc32c body ≠ e.crc then (4, e.crc, crc32c body)
  else if sha256 body ≠ e.digest then (5, ofBe (e.digest.drop 28), 0)
  else if e.sformat ≠ 1 then (6, e.sformat, 0)
  else if !lengthValid e.typ body e.length then (7, e.length, 0)
  else (0, 0, 0)

/-- Whether a TYPE stands in Table 4.5. -/
def knownType (t : Nat) : Bool := decide (1 ≤ t) && decide (t ≤ lastSection)

/-- Checks every section of an image as R103 does; answers whether all pass. -/
def sectionsGood (b : Bytes) : Bool :=
  (sectionTable b).all fun e => !knownType e.typ || (sectionFault e (slice b e.offset e.length)).1 == 0

/-- An entry for a whole section. DEDUCED, assumption 105. -/
def Ld.whole (s : Ld) (typ offered applied reason : Nat) : Ld :=
  s.note (typ % 256 * 2 ^ 24 + 0xFFFFFF) offered applied reason 0

/-- Applies the section of a TYPE, absent or not. DEDUCED, assumption 108. -/
def Ld.section (s : Ld) (b : Bytes) (typ : Nat) : Ld :=
  match (sectionTable b).find? (·.typ == typ) with
  | none => ((applySection typ).run { s with typ := typ, body := none }).2
  | some e =>
    let body := slice b e.offset e.length
    let (why, offered, applied) := sectionFault e body
    if why = 0 then ((applySection typ).run { s with typ := typ, body := some body }).2
    else
      let s := s.whole typ offered applied why
      let s := if e.essential then { s with m := s.m.flag R.CFG_STATUS_UNUSABLE } else s
      ((applySection typ).run { s with typ := typ, body := none }).2

/-- Every section in ascending TYPE; unknown ones are reported at their place. -/
def Ld.sections (s : Ld) (b : Bytes) : Ld :=
  let unknown (p : Nat → Bool) (s : Ld) : Ld :=
    ((sectionTable b).filter fun e => p e.typ).foldl (fun s e => Ld.whole s e.typ e.typ 0 8) s
  let s := unknown (· == 0) s
  let s := (List.range lastSection).foldl (fun s i => Ld.section s b (i + 1)) s
  unknown (fun t => decide (lastSection < t)) s

/-! ### What the linked objects set up -/

def Module.commitInst (m : Module) (x : InstR) : Module :=
  let i := x.id
  let m := ((m.wr (R.INS_INST_STAT_STATE i) 2).wr (R.INS_INST_STAT_OWNER i) x.owner).flag (R.INS_INST_STAT_DRAINED i)
  let m := (m.wr (R.INS_INST_SHARE_HP_HP_MIN i) x.hpMin).wr (R.INS_INST_SHARE_HP_HP_WEIGHT i) x.hpWeight
  let m := (m.wr (R.INS_INST_SHARE_DMA_MIN i) x.dmaMin).wr (R.INS_INST_SHARE_DMA_WEIGHT i) x.dmaWeight
  let m := (m.wr (R.INS_INST_SHARE_REC_MIN i) x.recMin).wr (R.INS_INST_SHARE_REC_WEIGHT i) x.recWeight
  let m := (m.wr (R.INS_INST_XLT_XLT_PAGES i) x.xltPages).wr (R.INS_INST_XLT_PAGE i) x.page
  { m with cul := { m.cul with
    instSizes := m.cul.instSizes.set i x.size, layouts := m.cul.layouts.set i x.layout
    txPorts := m.cul.txPorts.set i x.txPorts } }

def Module.commitInsts (m : Module) (l : List (Nat × InstR)) : Module :=
  let m := l.foldl (fun m (_, x) => m.commitInst x) m
  (m.wr R.INS_MIN_SUM_DMA (l.foldl (fun a (_, x) => a + x.dmaMin) 0)).wr R.INS_MIN_SUM_REC
    (l.foldl (fun a (_, x) => a + x.recMin) 0)

/-- Rate records: what the registers show of all four, and the enabled ones that stand. -/
def Lk.commitRates (s : Lk) (m : Module) : Module :=
  let m := s.img.rates.zipIdx.foldl (fun (m : Module) (r, v) =>
    let m := ((m.wr (R.VAT_RATE_CFG_EN v) (b2n (s.rate? v).isSome)).wr (R.VAT_RATE_CFG_RATE_CODE v) r.code).wr
      (R.VAT_RATE_CFG_DECIM v) r.decim
    (m.wr (R.VAT_WINDOW_W_NS v) r.w).wr (R.VAT_RATE_DEPTH_CURD_DEPTH v) r.depth) m
  s.rates.foldl (fun (m : Module) (v, r) =>
    let cs := (s.chans.filter fun (_, c) => c.vrate == v).map (·.1)
    let x : VRate := ⟨r.f, r.w, r.depth, cs, 0, [], 0, [], [], false, false⟩
    { m with vat := { m.vat with rates := m.vat.rates.set v x } }) m

def Module.commitStream (m : Module) (s : Nat) (x : StreamR) (depth : Nat) : Module :=
  let m := (((m.wr (R.VAT_STRM_CFG_EN s) (b2n x.en)).wr (R.VAT_STRM_CFG_RATE_CODE s) x.code).wr
    (R.VAT_STRM_CFG_NOASDU s) x.noAsdu).wr (R.VAT_STRM_CFG_NCHAN s) x.nchan
  let m := (((m.wr (R.VAT_STRM_CFG_SUBST s) x.subst).wr (R.VAT_STRM_CFG_SYNC_POLICY s) x.policy).wr
    (R.VAT_STRM_CFG_REQ_GLOBAL s) (b2n x.reqGlobal)).wr (R.VAT_STRM_CFG_SIM_ACCEPT s) (b2n x.simAccept)
  let m := (m.wr (R.VAT_STRM_CFG_AUTH s) (b2n x.auth)).wr (R.VAT_STRM_CFG_PROFILE s) x.profile
  let m := (m.wr (R.VAT_STRM_SUB_APPID s) x.appid).wr (R.VAT_STRM_SUB_VID s) x.vid
  let m := ((m.wr (R.VAT_STRM_LIM_MAX_SUBST s) x.maxSubst).wr (R.VAT_STRM_LIM_LOSS_N s) x.lossN).wr
    (R.VAT_STRM_LIM_RECOVER_N s) x.recoverN
  let st : Stream := ⟨x.dst, unpad x.svId, x.confRev, x.xmitNs, x.key, depth, [], if x.en then .wait else .disabled, none, 0, 0, 0,
    [], none, 0, [], 0, [], m.word (R.VAT_STRM_CFG_EN s).addr⟩
  { m with vat := { m.vat with streams := m.vat.streams.set s st } }

/-- The largest I_DEPTH among a stream's channels. -/
def VatUse.depthOf (u : VatUse) (s fs : Nat) : Nat :=
  u.pairs.foldl (fun a (k, w, d) => if k / 32 = s then max a (inputDepth w d fs) else a) 0

def Lk.commitVat (s : Lk) (m : Module) : Module :=
  let u := s.vatUse
  let m := s.commitRates m
  let m := (s.standing .stream s.img.streams).foldl (fun (m : Module) (i, x) =>
    m.commitStream i x (u.depthOf i (rateCode x.code))) m
  (m.wr R.VAT_BUDGET_USED u.budget).wr R.VAT_SRAM_USED_BYTES u.sram

/-- An admitted channel with its chain. -/
def Lk.commitChan (s : Lk) (m : Module) (c : Nat) (x : ChanR) : Module :=
  match s.chainOf c, s.stream? x.stream with
  | some (_, k), some st =>
    let stages := k.stages.map fun (set, n, d) => (⟨set, n, d, []⟩ : Stage)
    let ch : Chan := ⟨x.stream, x.src, x.vrate, x.decl, BitVec.ofNat 32 x.scale, k.kdef, stages, none, none, none, true, x.decl,
      none, false⟩
    let m := (m.wr (R.VAT_SKEW_SIGMA_NS c) x.decl).wr (R.FLT_GDELAY_GD_NS c) (gDelayNs (m.gHalf stages) (rateCode st.code))
    { m with vat := { m.vat with chans := m.vat.chans.set c ch } }.wr (R.FLT_CHAIN_STAT_STATE c) 1
  | _, _ => m

/-- The costs of the channels that stand, with their numbers. -/
def Lk.chainCosts (s : Lk) : List (Nat × Nat × Nat × Nat) :=
  s.chans.filterMap fun (c, x) =>
    match s.chainOf c, s.stream? x.stream with
    | some (_, k), some st => some (c, k.cost (rateCode st.code))
    | _, _ => none

def Lk.commitFilter (s : Lk) (m : Module) : Module :=
  let m := (List.range s.img.nSets).foldl (fun (m : Module) i => if s.alive .set i then m else m.wr (R.FLT_SET_VALID i) 0) m
  let m := s.chans.foldl (fun m (c, x) => s.commitChan m c x) m
  let l := s.chainCosts
  let m := m.wr R.FLT_LOAD_MMACS (ceilDiv (l.foldl (fun a (_, q, _) => a + q) 0) 1000000)
  let m := m.wr R.FLT_CLOSE_LOAD_MACS (l.foldl (fun a (_, _, k, _) => a + k) 0)
  let m := m.wr R.FLT_SRAM_USED_BYTES (l.foldl (fun a (_, _, _, b) => a + b) 0)
  s.insts.foldl (fun (m : Module) (_, x) =>
    let mine := l.filter fun (c, _) => decide (x.chainFirst ≤ c) && decide (c < x.chainFirst + x.chainCount)
    m.wr (R.INS_INST_USE_FLT_MMACS x.id) (ceilDiv (mine.foldl (fun a (_, q, _) => a + q) 0) 1000000)) m

/-- A list's standing objects as a map by index. -/
def Lk.mapOf {α : Type} (s : Lk) (k : ObjKind) (l : List α) : SMap α := (s.standing k l)

def Lk.commitTasks (s : Lk) (m : Module) : Module :=
  let g := s.img
  { m with cul := { m.cul with
    entries := s.mapOf .entry g.entries, tasks := s.mapOf .task g.tasks, maps := g.maps, vars := s.mapOf .var g.vars
    regions := (s.standing .region g.regions).map (·.2), inits := (s.standing .init g.inits).map (·.2)
    pubs := s.mapOf .pub g.pubs, gsubs := s.mapOf .gsub g.gsubs } }

def Module.commitConn (m : Module) (c : Nat) (x : ConnR) : Module :=
  let m := (((m.wr (R.LST_CONN0_DIR c) (b2n x.dir)).wr (R.LST_CONN0_CARRIAGE c) (b2n x.goose)).wr
    (R.LST_CONN0_ID_SEAL c) (b2n x.idSeal)).wr (R.LST_CONN0_TRIG_ALL c) (b2n x.trigAll)
  let m := ((m.wr (R.LST_CONN0_RESTORE c) (b2n x.restore)).wr (R.LST_CONN0_CLASS c) x.cls).wr (R.LST_CONN0_DLEN c) x.dlen
  let m := m.wr64 (R.LST_CONN1_ID_LO c) (R.LST_CONN2_ID_HI c) x.id
  let m := (m.wr (R.LST_CONN3_MAX_AGE_US c) x.maxAgeUs).wr (R.LST_CONN4_WDOG_US c) x.wdogUs
  let m := (m.wr (R.LST_CONN5_SEQ_WIN c) x.seqWin).wr (R.LST_CONN5_RECOVER_N c) x.recoverN
  let m := (m.wr (R.LST_CONN6_AGE_LEAD_NS c) x.leadNs).wr (R.LST_CONN7_REFRESH_US c) x.refreshUs
  let k : Conn := ⟨x.en, x.dst, x.vid, x.task, x.pub, x.dataOff, if x.safeOff = 0xFFFFFFFF then none else some x.safeOff, [], 0, none,
    0, 0, 0, 0, false, false, false, 0⟩
  { m with lst := { m.lst with conns := m.lst.conns.set c k } }

def Lk.commitLst (s : Lk) (m : Module) : Module :=
  (s.standing .conn s.img.conns).foldl (fun (m : Module) (c, x) => m.commitConn c x) m

/-- The channel record at a position of a vat rate's curd frame. -/
def Lk.chanAt (s : Lk) (v pos : Nat) : Nat := (((s.chans.filter fun (_, c) => c.vrate == v)[pos]?).map (·.1)).getD 0

def Lk.commitSess (s : Lk) (m : Module) (i : Nat) (x : SessR) : Module :=
  let g := s.img
  let chans := (x.chans g).map fun (c, _) =>
    if c.kind = 1 ∨ c.kind = 5 then { c with source := s.chanAt x.vrate c.source } else c
  let conds := (x.conds g).map fun (c, _) => (c, (⟨true, [], none, 0⟩ : CondSt))
  let trend := if x.trendSlot g = 0 then 0 else x.trendMib * 2 ^ 20 / x.trendSlot g
  let n : Session := ⟨x.flags, x.vrate, x.group, x.inst, x.gmaster, x.trendK, x.preUs * 1000, x.postUs * 1000, x.maxUs * 1000,
    x.ringMib * 2 ^ 20 / x.slot g, trend, chans, conds, .idle, false, false, 0, [], 0, 0, none, 0, [], none, [], 0, 0, 0, 0, 0, [],
    0, 0, 0, 0, []⟩
  { m with acq := { m.acq with sessions := m.acq.sessions.set i n } }

def Lk.commitRecord (s : Lk) (m : Module) : Module :=
  let l := s.standing .sess s.img.sess
  let m := l.foldl (fun m (i, x) => s.commitSess m i x) m
  let mbps := l.foldl (fun a (_, x) =>
    if bitOf x.flags 2 then a + x.inflow s.img (((s.rate? x.vrate).map (·.f)).getD 1) else a) 0
  (m.wr R.ACQ_BW_RES_MBPS mbps).wr R.ACQ_BW_POOL_MIB (l.foldl (fun a (_, x) => a + x.ringMib + x.trendMib) 0)

def Lk.commitEvents (s : Lk) (m : Module) : Module :=
  let lists := s.img.lists.zipIdx.map fun (l, i) =>
    (i, (l.filter fun (_, kind, ref) => s.itemOk kind ref).map fun (_, kind, ref) => (⟨kind, ref⟩ : SnapItem))
  { m with cul := { m.cul with snapLists := lists, evRules := (s.standing .rule s.img.rules).map (·.2.1) } }

def Lk.commitKeys (s : Lk) (m : Module) : Module :=
  let good := (keyReasons s.img.keys).filter (·.2 == 0)
  good.foldl (fun (m : Module) (k, _) =>
    let x : KeySlot := { KeySlot.init with
      attr := k.attr, section_ := true, import_ := k.import_, keyIds := [(0, k.keyId)], alg := k.alg, parent := k.parent
      label := k.label }
    { m with keys := { m.keys with slots := m.keys.slots.set k.slot x } }) m

/-! ### Commit groups (R49, R50) -/

/-- Whether two tasks have the same TRIGGER operand and the same SYNC operands. -/
def TaskRec.sameOperands (a b : TaskRec) : Bool :=
  let syncs (r : TaskRec) : List (Nat × Nat) := (r.used.filter fun (o, _) => o.mode == 1).map fun (o, _) => (o.kind, o.source)
  let trig (r : TaskRec) : Option (Nat × Nat × Nat × Nat) := (r.ops.head?).map fun o => (o.kind, o.source, o.p1, o.p2)
  trig a == trig b && (syncs a).length == (syncs b).length && (syncs a).all fun x => (syncs a).count x == (syncs b).count x

/-- Judges the commit groups in ascending number; a group that stands is enabled, a rejected one reported once. -/
def Lk.linkGroups (s : Lk) : Lk :=
  let tasks := s.standing .task s.img.tasks
  ((List.range 256).foldl (fun ((s : Lk), (used : Nat), (full : Bool)) g =>
    match tasks.filter fun (_, r) => r.groupEn && r.group == g with
    | [] => (s, used, full)
    | (t, r) :: rest =>
      let l := (t, r) :: rest
      let broken := decide (32 < l.length) || rest.any fun (i, x) => !r.sameOperands x || s.ownerOf i != s.ownerOf t
      let excess := full || decide (256 < used + l.length)
      let why := whyNot false broken excess
      if why = 0 then
        (s.modM fun m => (m.flag (R.PRS_GRP_CFG_EN g)).wr (R.PRS_GRP_CFG_MEMBERS g) l.length, used + l.length, full)
      else
        let ld := s.ld.note (10 * 2 ^ 24 + 32 + 128 * t + 6) g 0 why 0
        ({ s with ld := { ld with img := { ld.img with groupBad := ld.img.groupBad ++ [g] } } }, used, full || why == 10))
    (s, 0, false)).1

/-- Everything that the linked objects set up. -/
def Lk.commit (s : Lk) : Module :=
  let m := s.ld.m.commitInsts s.insts
  let m := s.commitTasks (s.commitFilter (s.commitVat m))
  s.commitKeys (s.commitEvents (s.commitRecord (s.commitLst m)))

/-! ### The minimal culture (R101) -/

/-- The built-in minimal culture (Table 4.4): the defaults of every field, and instance 0.
DESIGN CHOICE, assumption 82; DEDUCED, assumption 108. -/
def Module.applyMinimal (m : Module) : Module :=
  let m := { m with
    cul := { Culture.init with instSizes := [(0, 4096)], layouts := [(0, 0)], txPorts := [(0, 0x3FF)] } }
  let m := m.flag R.SYS_MODE_MINIMAL
  let m := ((m.wr (R.INS_INST_STAT_STATE 0) 2).wr (R.INS_INST_STAT_OWNER 0) 0x100).flag (R.INS_INST_STAT_DRAINED 0)
  let m := (m.wr (R.INS_INST_SHARE_HP_HP_MIN 0) 1024).wr (R.INS_INST_SHARE_HP_HP_WEIGHT 0) 16
  let m := (m.wr (R.INS_INST_XLT_XLT_PAGES 0) 512).flag (R.INS_INST_XLT_PAGE 0)
  let m := (List.range 10).foldl (fun m p => m.flag (R.MAC_CTRL_EN p)) m
  (m.wr (R.MAC_CTRL_EN 10) 0).wr R.CFG_STATUS_LOADED_COPY 2

/-! ### LOAD as a whole -/

/-- A copy's bytes in culture flash. DESIGN CHOICE, assumption 10. -/
def Module.flash (m : Module) (copy : Nat) : Bytes := if copy = 0 then m.persist.flashA else m.persist.flashB

/-- Shows what a header check of a copy found, with its SERIAL. -/
def Module.showCopy (m : Module) (copy check serial : Nat) : Module :=
  let hdr := if check = 0 then 1 else 2
  let m := if copy = 0 then (m.wr R.CFG_STATUS_A_HDR hdr).wr R.CFG_STATUS_A_CHECK check
    else (m.wr R.CFG_STATUS_B_HDR hdr).wr R.CFG_STATUS_B_CHECK check
  m.wr64 (R.CFG_COPY_SERIAL_LO_SERIAL copy) (R.CFG_COPY_SERIAL_HI_SERIAL copy) (if check = 0 then serial else 0)

/-- The header of a copy is checked and shown; whether it is good. DEDUCED, assumption 104. -/
def Ld.header (s : Ld) (copy : Nat) : Ld × Bool :=
  let b := s.m.flash copy
  let check := s.m.headerCheck b
  let s := { s with copy := copy }
  let unowned := !s.m.owned && (check == 0 || decide (5 < check))
  let s := if unowned then { s with m := s.m.flag R.CFG_STATUS_UNOWNED }.note 0 0 0 14 0 else s
  let s := if check = 0 then s else s.note 0 check 0 9 0
  ({ s with m := s.m.showCopy copy check (leAt b 16 8) }, check == 0)

/-- The image of a good copy is applied, linked and admitted. -/
def Ld.image (s : Ld) (copy : Nat) : Ld :=
  let b := s.m.flash copy
  let s := s.sections b
  let k := (Lk.run ⟨s, []⟩).linkGroups
  let m := k.commit
  let m := (m.wr R.CFG_STATUS_LOADED_COPY copy).wr64 R.CFG_SERIAL_LO_SERIAL R.CFG_SERIAL_HI_SERIAL (leAt b 16 8)
  { k.ld with m := m }

/-- LOAD from the copies as they stand (R96, R101). DEDUCED, assumption 111. -/
def Ld.load (s : Ld) : Ld :=
  match s.header 0 with
  | (s, true) => s.image 0
  | (s, false) =>
    match s.header 1 with
    | (s, true) => s.image 1
    | (s, false) => { s with m := s.m.applyMinimal }

/-- A loader that has found nothing yet. -/
def Ld.start (m : Module) : Ld := ⟨m, 0, 0, none, [], 0, 0, Img.init⟩

/-! ### The report (R110) and its copy in the Cave (Table 15.7) -/

/-- Shows the report in CFG_REPORT, CFG_STATUS and CFG_LOST_CNT. -/
def Module.showReport (m : Module) (entries : List Bytes) (lost : Nat) : Module :=
  let m := entries.zipIdx.foldl (fun (m : Module) (b, i) =>
    (List.range 4).foldl (fun m k => m.wr (R.CFG_REPORT_ENTRY i k) (leAt b (4 * k) 4)) m) m
  (m.wr R.CFG_STATUS_REPORT_CNT entries.length).wr R.CFG_LOST_CNT_CNT lost

/-- Where load report slot n of the Cave begins. -/
def reportSlot (n : Nat) : Nat := 0x1000 + 0x5000 * n

/-- LOADNO of a slot, none where it holds no report. -/
def Evr.loadNo (e : Evr) (n : Nat) : Option Nat :=
  let b := memBytes e.cave (reportSlot n) 12
  if leAt b 0 4 = 0x524C545A then some (leAt b 4 4) else none

/-- The header of a load report slot. -/
def Module.reportHeader (m : Module) (no : Nat) (entries : List Bytes) (lost : Nat) : Bytes :=
  let body := leBytes 4 0x524C545A ++ leBytes 4 no ++ leBytes 8 (m.rd64 R.CFG_SERIAL_LO_SERIAL R.CFG_SERIAL_HI_SERIAL) ++
    slice m.sys.station 0 32 ++ leBytes 1 (m.rd R.CFG_STATUS_LOADED_COPY) ++ [0] ++ leBytes 2 entries.length ++
    leBytes 4 lost ++ leBytes 4 (m.word 0xc)
  body ++ leBytes 4 (crc32c (body ++ entries.flatten))

/-- Writes the report to the slot that LOAD_NEXT names, its entries before its header, then the Cave header. -/
def Module.caveReport (m : Module) (entries : List Bytes) (lost : Nat) : Module :=
  let e := m.evr
  let n := e.loadNext % 4
  let no := ((e.loadNo ((n + 3) % 4)).getD 0) + 1
  let cave := memPut e.cave (reportSlot n + 64) entries.flatten
  let cave := memPut cave (reportSlot n) (m.reportHeader no entries lost)
  { m with evr := { e with cave := cave, loadNext := (n + 1) % 4, loads := min 4 (e.loads + 1) }.writeHeader }

/-- The end of LOAD: the report as far as it was written, and RATE_MISMATCH under the SPEEDs loaded. -/
def Module.loadEnd (m : Module) (entries : List Bytes) (lost : Nat) : Module :=
  ((m.showMismatch.showReport entries lost).wr R.CFG_LOAD_MS_MS (m.tns / 1000000)).caveReport entries lost

/-- What the header checks show of the copies. DESIGN CHOICE, assumption 23. -/
def copyFields : List Fld :=
  [R.CFG_STATUS_A_HDR, R.CFG_STATUS_A_CHECK, R.CFG_STATUS_B_HDR, R.CFG_STATUS_B_CHECK, R.CFG_STATUS_UNOWNED,
   R.CFG_COPY_SERIAL_LO_SERIAL 0, R.CFG_COPY_SERIAL_HI_SERIAL 0, R.CFG_COPY_SERIAL_LO_SERIAL 1, R.CFG_COPY_SERIAL_HI_SERIAL 1]

/-- A module-wide fault ends LOAD (R112): the report up to the case reached, at a point that the spec leaves open; all that was
applied is discarded for the minimal culture. DESIGN CHOICE, assumption 23. -/
def Module.loadFault (m : Module) : Module :=
  let l := (Ld.start m).load
  let (i, m) := m.freshIdx
  let n := Config.loadReached i
  let m := if n = 0 then m else copyFields.foldl (fun m f => m.wr f (l.m.rd f)) m
  m.applyMinimal.loadEnd (l.rep.reverse.take (n - 1)) (min l.lost (n - 1 - 1024))

end Sys2Proof.Machine
end

