-- ==== Sys2Proof/Machine/Modes.lean ====
section
/-!
DEFINITION. Operating modes: what every change of mode does (R118, R119), leaving TEST, SAFE-HOLD as a whole (R53, R117,
R119).
-/

namespace Sys2Proof.Machine

/-- Changes the operating mode, with its event (Table 15.1). -/
def Module.toMode (m : Module) (md : Mode) : Module :=
  let old := m.mode
  let m := if old = .ripen then m.wr R.CFG_RIPEN_STAT_ELAPSED_MS ((m.mono - m.sys.upAt) / (1000000 * nsUnit)) else m
  { m with mode := md }.raise' 0 3 md.code old.code

/-- What leaving TEST ends: the simulation latches, the armed injection, the capture point (R202, R264, R486). -/
def Module.leaveTest (m : Module) : Module :=
  if m.mode = .test then (m.vatLeaveTest.gooseLeaveTest.wr R.ERR_INJECT_ARM 0).wr R.BEN_DBG_ARM_EN 0 else m

/-- Aborts every held cycle and cancels every open one, as R305 does for one instance. -/
def Module.stopTasks (m : Module) : Module :=
  let held := m.ctxsOf fun _ => true
  let opens := m.cul.tasks.flatMap fun (t, _) => (m.task t).opens.map fun o => (t, o.ct)
  let m := held.foldl (fun m (e, c, _) => m.abortCtx e c) m
  m.doActs ((held.map fun (e, c, x) => Act.lost x.task x.ct 6 e c 0) ++ (opens.map fun (t, ct) => Act.cancelOpen t ct 6))

/-- Discards every record that has not been admitted, and fails every commit group (R53). -/
def Module.dropRecords (m : Module) : Module :=
  let recs := m.press.pending
  let full := m.press.complete
  let m := { m with press := { m.press with pending := [], complete := [] } }
  let m := full.foldl (fun m l => m.grpFailed (grpOf l).1 (grpOf l).2 3) m
  m.doActs ((recs.map fun r => Act.discard r 6) ++ (full.flatMap fun l => l.map fun r => Act.discard r 6) ++
    (m.press.groups.map fun (g, _) => Act.grpFail g 3))

/-- The safe values of every instance in one epoch, ascending (R53). -/
def Module.safeAll (m : Module) : Module := if m.ready 7 ∧ m.instances ≠ [] then m.applySafe m.instances else m

/-- Entry to SAFE-HOLD as a whole with a cause (R119). A fault in LOAD leaves the minimal culture with cause 6 (R112); in
SAFE-HOLD, RESET and FLUSH a fault changes nothing. -/
def Module.safeHold (m : Module) (cause : Nat) : Module :=
  if m.mode = .reset ∨ m.mode = .flush ∨ m.mode = .safeHold then m
  else
    let fault := m.mode == .load && decide (2 < cause)
    let cause := if fault then 6 else cause
    let m := if fault then m.loadFault else m
    let m := if m.mode = .load then { m with sys := { m.sys with upAt := m.mono, waitEnded := false } } else m
    let m := (m.leaveTest.wr R.CFG_MODE_STAT_SAFEHOLD_CAUSE cause).raise' 0 2 cause 0
    let m := (m.toMode .safeHold).vatStop.acqHalt.stopTasks.dropRecords
    { m with red := { m.red with xfers := [], forward := [] } }.safeAll

end Sys2Proof.Machine
end

