-- ==== Sys2Proof/Machine/Engines.lean ====
section
/-!
DEFINITION. Lockstep mismatches, self-test and fencing of engines (R258 to R263).
-/

namespace Sys2Proof.Machine

/-- An engine changes state, with event 2. -/
def Module.toEngState (m : Module) (e : Nat) (st : EngState) (retest : Bool) : Module :=
  (m.setEngine e { m.engine e with state := st, retest := retest }).raiseIf R.BEN_CTRL_LOG_EN 7 2 st.code 0xFFFF 0xFFFF e

/-- The mismatches of an engine in the window [now - 24 h, now). -/
def Module.mismatches (m : Module) (e : Nat) : Nat := ((m.engine e).mism.filter fun t => decide (m.mono < t + dayUnits)).length

/-- If no engine passes, SAFE-HOLD with cause 5 (R261). -/
def Module.enginesLost (m : Module) : Module :=
  if m.mode = .ripen ∧ (List.range 32).all fun e => (m.engine e).state == .failed then m.safeHold 5 else m

/-- A self-test that fails. -/
def Module.testFailed (m : Module) (e : Nat) : Module :=
  (((m.bump (R.BEN_CNT_CNT 5)).bump (R.BEN_CNT_CNT 6)).toEngState e .failed false).enginesLost

/-- SELF_TEST_END of engine e, passed or not. DEDUCED, assumption 101. -/
def mSelfTestEnd (e : Nat) (pass : Bool) (m : Module) : Module :=
  if 32 ≤ e ∨ (m.engine e).state ≠ .selfTest ∨ m.mode = .reset ∨ m.mode = .load ∨ m.mode = .flush then m
  else if !pass then m.testFailed e
  else
    let m := (m.bump (R.BEN_CNT_CNT 5)).wr R.SCH_SLOW_SLOW (m.rd R.SCH_SLOW_SLOW - bitsOf (m.rd R.SCH_SLOW_SLOW) e 1 * 2 ^ e)
    if (m.engine e).retest ∨ m.mismatches e < m.rd R.BEN_CTRL_MISMATCH_LIMIT then m.toEngState e .inService false
    else (m.toEngState e .failed false).enginesLost

/-- Counts a mismatch of an engine, in FAILED too. DEDUCED, assumption 101. -/
def Module.countMismatch (m : Module) (e : Nat) : Module :=
  let g := m.engine e
  (((m.setEngine e { g with mism := g.mism ++ [m.mono] }).bump (R.BEN_ENG_MISMATCH_CNT_CNT e)).flag
    (R.BEN_ENG_STAT_MISMATCH_STK e)).bump (R.BEN_CNT_CNT 4)

/-- The answer to a mismatch of engine e (R259): every attempt is aborted for a re-dispatch, one exception entry of code 15,
the report, the event, self-test. In FAILED it only counts; in SELF_TEST it fails the test. -/
def Module.engineMismatch (m : Module) (e : Nat) : Module :=
  let g := m.engine e
  let m := m.countMismatch e
  if g.state = .failed then m
  else if g.state = .selfTest then m.testFailed e
  else
    let busy := g.ctxs.foldl (fun a (c, _) => a + 2 ^ c) 0
    let m := g.ctxs.foldl (fun m (c, x) => m.hardAbort e c x) m
    let m := (m.excEntry 15 e 0 busy 0 0 0 0 0 0).raiseIf R.BEN_CTRL_LOG_EN 7 1 15 0xFFFF 0xFFFF e
    (m.report ⟨24, 7, 63, 0, e, 0xFFF, e⟩).toEngState e .selfTest false

/-- LOCKSTEP_MISMATCH of engine e. -/
def mLockstepMismatch (e : Nat) (m : Module) : Module :=
  if 32 ≤ e ∨ m.mode = .reset ∨ m.mode = .load ∨ m.mode = .flush then m else m.engineMismatch e

/-- MISMATCH_AGE_OUT: the oldest mismatch of engine e leaves the 24 h window. -/
def mMismatchAgeOut (e : Nat) (m : Module) : Module :=
  match (m.engine e).mism with
  | [] => m
  | t :: r =>
    let m := m.reachMono (t + dayUnits)
    m.setEngine e { m.engine e with mism := r }

/-! ### Fence commands (R262, R263) -/

def Module.fenceResult (m : Module) (r : Nat) : Module := (m.wr R.BEN_FENCE_STAT_RESULT r).flag R.BEN_FENCE_STAT_DONE_FLG

/-- What every fence command checks first: an engine in SELF_TEST refuses it. -/
def Module.fenceCmd (m : Module) (e : Nat) (f : Engine → Module) : Module :=
  if m.mode = .reset ∨ 32 ≤ e then m
  else if (m.engine e).state = .selfTest then m.fenceResult 2
  else f (m.engine e)

/-- FENCE of engine e. -/
def mFence (e : Nat) (m : Module) : Module :=
  m.fenceCmd e fun g =>
    if g.state ≠ .inService then m.fenceResult 3
    else if !(List.range 32).any fun n => n != e && (m.engine n).state == .inService then m.fenceResult 4
    else (m.toEngState e (if g.ctxs = [] then .hostFenced else .draining) false).fenceResult 1

/-- UNFENCE of engine e. -/
def mUnfence (e : Nat) (m : Module) : Module :=
  m.fenceCmd e fun g => if g.state = .hostFenced then (m.toEngState e .inService false).fenceResult 1 else m.fenceResult 3

/-- RETEST of engine e. -/
def mRetest (e : Nat) (m : Module) : Module :=
  m.fenceCmd e fun g =>
    if g.state = .inService ∨ g.state = .draining then m.fenceResult 3
    else (m.toEngState e .selfTest (g.state == .failed)).fenceResult 1

/-- DRAIN_DONE: a DRAINING engine is idle. DESIGN CHOICE, assumption 4. -/
def mDrainDone (e : Nat) (m : Module) : Module :=
  if (m.engine e).state = .draining ∧ (m.engine e).ctxs = [] then m.toEngState e .hostFenced false else m

def execSelfTestEnd (e : Nat) (pass : Bool) (s : State) : Host.Outcome State Fault Refusal := s.upd (mSelfTestEnd e pass)
def execLockstepMismatch (e : Nat) (s : State) : Host.Outcome State Fault Refusal := s.upd (mLockstepMismatch e)
def execMismatchAgeOut (e : Nat) (s : State) : Host.Outcome State Fault Refusal := s.upd (mMismatchAgeOut e)
def execFence (e : Nat) (s : State) : Host.Outcome State Fault Refusal := s.upd (mFence e)
def execUnfence (e : Nat) (s : State) : Host.Outcome State Fault Refusal := s.upd (mUnfence e)
def execRetest (e : Nat) (s : State) : Host.Outcome State Fault Refusal := s.upd (mRetest e)
def execDrainDone (e : Nat) (s : State) : Host.Outcome State Fault Refusal := s.upd (mDrainDone e)

end Sys2Proof.Machine
end

