-- ==== Sys2Proof/Machine/Press.lean ====
section
/-!
DEFINITION. The Press up to the visibility point: hand-off, commit groups and admission (R40 to R52), configuration
transactions up to their epoch (R56 to R63).
-/

namespace Sys2Proof.Machine

/-- Whether the Press works: usable, in a mode in which it applies (Table 1.5, R54), and not held (R84). -/
def Module.pressOn (m : Module) : Bool :=
  m.ready 7 && m.mode != .reset && m.mode != .load && m.mode != .flush && !m.sys.held

/-! ### What makes a record malformed (Table 2.4) -/

/-- Whether an entry of a task's record breaks Table 2.4, R312, R415 or the ownership and width of a variable (TASKS section). -/
def Module.entryBad (m : Module) (r : CRec) : Entry → Bool
  | .outWrite off d =>
    d == [] || decide (4056 < d.length) || decide (((m.taskRec r.task).map (·.outLen)).getD 0 < off + d.length)
  | .instWrite off d => d == [] || decide (4056 < d.length) || decide (m.cul.instSizes.getD r.inst 0 < off + d.length)
  | .varPub v _ _ w => (match m.cul.vars.get? v with | some x => x.inst != r.inst || x.width != w | none => true)
  | .frame kind i =>
    if kind = 0 then (match m.cul.pubs.get? i with | some p => p.task != r.task | none => true)
    else if kind = 1 then (match m.lst.conns.get? i with | some x => !m.isSend i || x.task != r.task | none => true)
    else true
  | .frameRaw pc b =>
    decide (9 < pc.toNat % 16) || pc.getLsbD 7 || decide (b.length < 60) || decide (1514 < b.length) ||
      !bitOf (m.cul.txPorts.getD r.inst 0) (pc.toNat % 16)
  | .eventMark code d => decide (65535 < code) || decide (8 < d.length)
  | .recMark _ => false
  | .safeOut _ _ => true
  | .instInit _ => true

def Module.malformed (m : Module) (r : CRec) : Bool :=
  decide (r.length < 40) || decide (4096 < r.length) || r.length % 8 != 0 || r.entries == [] ||
    decide (255 < r.entries.length) || r.entries.any (m.entryBad r)

/-- The first cause of Table 2.4 for which a record is discarded at admission or on arrival in the group store; `err` is
what its read found. DEDUCED, assumption 39. -/
def Module.recCause (m : Module) (r : CRec) (err : ReadErr) : Option Nat :=
  if err.isUe then some 4
  else if r.gen ≠ m.gen r.inst then some 1
  else if m.malformed r then some 2
  else if m.rd (R.INS_INST_STAT_STATE r.inst) = 3 then some 6
  else none

/-! ### Commit groups (R51, R52) -/

def GroupColl.close (m : Module) (ct deadlineUs : Nat) : Nat := m.nsOfTs ct + deadlineUs * 1000

def insRec (r : CRec) : List CRec → List CRec
  | [] => [r]
  | x :: l => if r.engine < x.engine then r :: x :: l else x :: insRec r l

/-- A record of the cycle that a group collects. DEDUCED, assumption 42. -/
def Module.groupTake (m : Module) (g : Nat) (c : GroupColl) (r : CRec) : Module :=
  if GroupColl.close m c.ct c.deadlineUs ≤ m.tns then m.doActs [.grpFail g 1, .discard r 3]
  else match m.recCause r .clean with
    | some n => m.doActs [.grpFail g 2, .discard r n]
    | none =>
      let recs := insRec r c.recs
      if (m.members g).all fun t => recs.any (·.task == t) then
        { m with press := { m.press with groups := m.press.groups.erase g, complete := m.press.complete ++ [recs] } }
      else { m with press := { m.press with groups := m.press.groups.set g { c with recs := recs } } }

/-- A record starts the collection of its cycle. -/
def Module.groupStart (m : Module) (g : Nat) (r : CRec) : Module :=
  let c : GroupColl := ⟨r.ct, [], m.rd (R.PRS_GRP_CFG_DEADLINE g)⟩
  { m with press := { m.press with groups := m.press.groups.set g c } }.groupTake g c r

/-- A member's record arrives in the group store. DEDUCED, assumption 42. -/
def Module.groupArrive (m : Module) (g : Nat) (r : CRec) : Module :=
  match m.press.groups.get? g with
  | some c =>
    if r.ct = c.ct then m.groupTake g c r
    else if tsLater r.ct c.ct then (m.doActs [.grpFail g 5]).groupStart g r
    else m.doActs [.discard r (if m.press.lastFailed.get? g = some r.ct then 3 else 5)]
  | none => if m.press.lastFailed.get? g = some r.ct then m.doActs [.discard r 3] else m.groupStart g r

/-- GROUP_WINDOW_END: the window of group g's cycle ends with a member missing. -/
def mGroupWindowEnd (g : Nat) (m : Module) : Module :=
  match m.press.groups.get? g with
  | none => m
  | some c => (m.reach (GroupColl.close m c.ct c.deadlineUs)).doActs [.grpFail g 1]

/-! ### Hand-off -/

/-- The completed hand-off of a cycle's record (R41): the cycle ends for its engine and task, and the record waits. -/
def Module.handOff (m : Module) (e c : Nat) (x : Ctx) (r : CRec) : Module :=
  let r := { r with handed := m.mono }
  let m := (m.freeCtx e c).endCycle x.task x.ct
  let m := m.modTask x.task fun t => { t with handed := some x.ct, consecOvr := 0 }
  let ran := (m.mono - x.firstAt.getD m.mono) / nsUnit
  let m := m.wr (R.SCH_TASK_STAT2_MAX_EXEC_NS x.task) (max (m.rd (R.SCH_TASK_STAT2_MAX_EXEC_NS x.task)) ran)
  let m := (m.bump (R.SCH_CNT_CNT 3)).bump (R.BEN_CNT_CNT 1)
  match r.group with
  | some g =>
    if m.isOn (R.PRS_GRP_CFG_EN g) then m.groupArrive g r
    else { m with press := { m.press with pending := insRec r m.press.pending } }
  | none => { m with press := { m.press with pending := insRec r m.press.pending } }

/-- HAND_OFF: the last word of the record of the cycle in context c of engine e reaches the engine's commit port, which holds one
record. A budget or deadline that closed before is an overrun instead (R303). -/
def mHandOff (e c : Nat) (m : Module) : Module :=
  match m.ctx? e c with
  | none => m
  | some x =>
    match x.phase, m.taskRec x.task with
    | .handing r, some t =>
      if !m.pressOn ∨ m.press.pending.any (·.engine == e) then m
      else if x.firstAt.getD m.mono + t.budgetNs * nsUnit ≤ m.mono then (m.abortCtx e c).overrun x.task x.ct 1 e c
      else if m.nsOfTs x.ct + t.deadlineNs ≤ m.tns then (m.abortCtx e c).overrun x.task x.ct 2 e c
      else m.handOff e c x r
    | _, _ => m

/-! ### Admission (R42, R43, R59) -/

/-- Admits records in one fabric cycle as one epoch; those with a cause of Table 2.4 are discarded.
DEDUCED, assumption 38. -/
def Module.admitList (m : Module) (errs : List (Nat × ReadErr)) (recs : List CRec) : Module :=
  let errOf (r : CRec) : ReadErr := ((errs.find? (·.1 == r.engine)).map (·.2)).getD .clean
  let judged := recs.map fun r => (r, m.recCause r (errOf r))
  let good := (judged.filter (·.2.isNone)).map (·.1)
  let m := recs.foldl (fun m r => m.readReport (errOf r) 4 16 18 r.inst r.engine) m
  let m := if good = [] then m else m.openEpoch good none [] (good.foldl (fun a r => max a (recCycles r)) 2)
  m.doActs (judged.filterMap fun (r, n) => n.map fun n => .discard r n)

/-- Admits a complete group in one epoch; an uncorrectable error in one of its records fails it. -/
def Module.admitGroup (m : Module) (errs : List (Nat × ReadErr)) (recs : List CRec) : Module :=
  let errOf (r : CRec) : ReadErr := ((errs.find? (·.1 == r.engine)).map (·.2)).getD .clean
  let m := recs.foldl (fun m r => m.readReport (errOf r) 4 16 18 r.inst r.engine) m
  if recs.any fun r => (errOf r).isUe then
    (m.grpFailed (grpOf recs).1 (grpOf recs).2 2).doActs (recs.map fun r => .discard r (if (errOf r).isUe then 4 else 3))
  else m.openEpoch recs none [] (recs.foldl (fun a r => max a (recCycles r)) 2)

/-- The engine index by which a unit of admission is ordered: a group's lowest member. -/
def unitEngine (l : List CRec) : Nat := (l.head?.map (·.engine)).getD 32

/-- Admits what waits: a group alone, or up to eight records that stand before every complete group. -/
def Module.admitRecs (m : Module) (errs : List (Nat × ReadErr)) : Module :=
  let first := m.press.complete.foldl (fun best l =>
    match best with
    | none => some l
    | some b => if unitEngine l < unitEngine b then some l else some b) none
  match first with
  | some l =>
    if unitEngine l ≤ unitEngine m.press.pending then
      { m with press := { m.press with complete := m.press.complete.erase l } }.admitGroup errs l
    else
      let now := (m.press.pending.filter fun r => decide (r.engine < unitEngine l)).take 8
      { m with press := { m.press with pending := m.press.pending.filter fun r => !now.contains r } }.admitList errs now
  | none => { m with press := { m.press with pending := m.press.pending.drop 8 } }.admitList errs (m.press.pending.take 8)

/-- The writes that a transaction applies: a later staged write to an offset replaces the earlier one (R57). -/
def lastWrites : List (Nat × Nat) → List (Nat × Nat)
  | [] => []
  | (a, v) :: r => if r.any (·.1 == a) then lastWrites r else (a, v) :: lastWrites r

/-- The transaction that the next apply step of its own takes: checked, due, not yet admitted; the lowest slot. -/
def Module.dueTxn (m : Module) : Option (Nat × Txn) :=
  m.press.txns.find? fun (n, t) => m.rd (R.PRS_TXN_STAT_STATE n) == 2 && !t.admitted &&
    (match t.commitAt with
     | some a => decide (a ≤ m.tns)
     | none => true)

/-- Admits a transaction in an epoch of its own (R59). DEDUCED, assumptions 38 and 44. -/
def Module.admitTxn (m : Module) (n : Nat) (t : Txn) : Module :=
  let m := m.openEpoch [] (some (n, lastWrites t.staged)) [] (2 + t.staged.length)
  { m with press := { m.press with
      txns := m.press.txns.set n { t with admitted := true }, lastTxn := some m.mono } }

/-- ADMISSION: one admission of the Press: the records, then a transaction, which takes the epoch after theirs and comes at
least 1,250 fabric cycles after the one before. With nothing else to admit, time runs on to that.
DEDUCED, assumption 38. -/
def mAdmission (errs : List (Nat × ReadErr)) (m : Module) : Module :=
  if !m.pressOn then m
  else
    let idle := m.press.pending == [] && m.press.complete == []
    let m := m.admitRecs errs
    match m.dueTxn with
    | none => m
    | some (n, t) =>
      let from_ := match m.press.lastTxn with
        | some l => l + fabric 1250
        | none => 0
      if from_ ≤ m.mono then m.admitTxn n t
      else if idle then (m.reachMono from_).admitTxn n t
      else m

/-! ### Transactions (R56 to R63) -/

/-- A slot's state and cause. -/
def Module.txnState (m : Module) (n st cause : Nat) : Module :=
  (m.wr (R.PRS_TXN_STAT_STATE n) st).wr (R.PRS_TXN_STAT_CAUSE n) cause

def Module.txnOpen (m : Module) (n : Nat) : Bool := decide (n < 8) && m.mode != .reset && m.rd (R.PRS_TXN_STAT_STATE n) == 1

/-- TXN_BEGIN. -/
def mTxnBegin (n : Nat) (m : Module) : Module :=
  if 8 ≤ n ∨ m.mode = .reset ∨ m.rd (R.PRS_TXN_STAT_STATE n) = 1 ∨ m.rd (R.PRS_TXN_STAT_STATE n) = 2 then m
  else
    let m := (m.txnState n 1 0).wr (R.PRS_TXN_STAT_CONFLICT n) 0
    let m := (m.wr (R.PRS_TXN_STAT_COUNT n) 0).wr (R.PRS_TXN_STAT_FAIL_INDEX n) 0
    { m with press := { m.press with txns := m.press.txns.set n ⟨[], none, m.mono, false, false⟩ } }

/-- TXN_DATA_WRITE: stages one write, or fails the slot at the 1,025th. -/
def mTxnDataWrite (n v : Nat) (m : Module) : Module :=
  match m.press.txns.get? n with
  | none => m
  | some t =>
    if !m.txnOpen n then m
    else if 1024 ≤ t.staged.length then m.txnState n 5 4
    else
      let a := m.rd (R.PRS_TXN_ADDR_ADDR n)
      let t := { t with staged := t.staged ++ [(a / 4 * 4, v % 2 ^ 32)], lastAccess := m.mono }
      let m := (m.wr (R.PRS_TXN_ADDR_ADDR n) (a + 4)).wr (R.PRS_TXN_STAT_COUNT n) t.staged.length
      { m with press := { m.press with txns := m.press.txns.set n t } }

/-- The base in force for an online-change window after some staged writes: instance and block (R308). -/
def Module.olcBase (m : Module) (before : List (Nat × Nat)) (w : Nat) : Nat × Nat :=
  match before.reverse.find? (·.1 == (R.SCH_OLC_BASE_INSTANCE w).addr) with
  | some (_, v) => (bitsOf v 0 12, bitsOf v 12 4)
  | none => (m.rd (R.SCH_OLC_BASE_INSTANCE w), m.rd (R.SCH_OLC_BASE_BLOCK w))

/-- The window of an address, and the byte offset in it. -/
def olcWindow (a : Nat) : Option (Nat × Nat) :=
  if 0x7c0000 ≤ a ∧ a < 0x7e0000 then some ((a - 0x7c0000) / 0x4000, (a - 0x7c0000) % 0x4000) else none

/-- Whether the four bytes of a window write lie in an online region (R308). -/
def Module.olcOk (m : Module) (base : Nat × Nat) (x : Nat) : Bool :=
  let off := 0x4000 * base.2 + x
  decide (64 ≤ off) && decide (off + 4 ≤ m.cul.instSizes.getD base.1 0) &&
    m.cul.regions.any fun r => r.inst == base.1 && decide (r.off ≤ off) && decide (off + 4 ≤ r.off + r.len)

/-- The cause for which a staged write fails its transaction (R58); `before` are the writes staged earlier.
DEDUCED, assumption 44. -/
def Module.txnCause (m : Module) (before : List (Nat × Nat)) (a : Nat) : Option Nat :=
  if 0x1200000 ≤ a then some 2
  else match findReg a with
    | none => some 2
    | some d =>
      let sws := d.fields.filterMap fun f => match f.acc with | .rws k => some k | _ => none
      if 0x900000 ≤ a ∧ a < 0xa00000 then some 1
      else if !(d.fields.any fun f => f.acc == .rw) && sws == [] then some 1
      else if sws.any fun k => !m.sealOn k then some 3
      else match olcWindow a with
        | some (w, x) => if m.olcOk (m.olcBase before w) x then none else some 1
        | none => none

/-- The first offending staged write: its index, its address and its cause. DEDUCED, assumption 44. -/
def Module.txnCheck (m : Module) : Nat → List (Nat × Nat) → List (Nat × Nat) → Option (Nat × Nat × Nat)
  | _, _, [] => none
  | i, before, (a, v) :: r =>
    match m.txnCause before a with
    | some c => some (i, a, c)
    | none => m.txnCheck (i + 1) (before ++ [(a, v)]) r

/-- COMMIT and COMMIT_AT: the check, and the slot's wait for its epoch. DEDUCED, assumption 44. -/
def Module.txnCommit (m : Module) (n : Nat) (at_ : Option Nat) : Module :=
  match m.press.txns.get? n with
  | none => m
  | some t =>
    if !m.txnOpen n then m
    else match m.txnCheck 0 [] t.staged with
      | some (i, a, c) =>
        let m := (m.txnState n 5 c).wr (R.PRS_TXN_STAT_FAIL_INDEX n) i
        if c = 3 then m.sealDenied a 0 else m
      | none =>
        if at_.any fun x => !tsLater x m.ts32 then m.txnState n 5 7
        else
          let t := { t with commitAt := at_.map m.nsOfTs, lastAccess := m.mono }
          let m := { m with press := { m.press with txns := m.press.txns.set n t } }
          (m.txnState n 2 0).wr (R.PRS_TXN_STAT_CONFLICT n) (b2n t.conflict)

/-- TXN_COMMIT. -/
def mTxnCommit (n : Nat) (m : Module) : Module := m.txnCommit n none

/-- TXN_COMMIT_AT. -/
def mTxnCommitAt (n : Nat) (m : Module) : Module := m.txnCommit n (some (m.rd (R.PRS_TXN_AT_AT n)))

/-- TXN_AT_REACHED: the time of a COMMIT_AT transaction is reached; the next apply step takes it. -/
def mTxnAtReached (n : Nat) (m : Module) : Module :=
  match m.press.txns.get? n with
  | none => m
  | some t =>
    match t.commitAt with
    | none => m
    | some a =>
      let m := m.reach a
      { m with press := { m.press with txns := m.press.txns.set n { t with commitAt := none } } }

/-- TXN_ABORT. -/
def mTxnAbort (n : Nat) (m : Module) : Module := if m.txnOpen n then m.txnState n 4 8 else m

/-- TXN_TIMEOUT: an OPEN slot has had no access for PRS_TXN_TMO milliseconds (R62). -/
def mTxnTimeout (n : Nat) (m : Module) : Module :=
  match m.press.txns.get? n with
  | none => m
  | some t =>
    if m.txnOpen n then (m.reachMono (t.lastAccess + m.rd R.PRS_TXN_TMO_TMO_MS * 1000000 * nsUnit)).txnState n 4 5 else m

/-- A PCIe reset or a function-level reset of the PF aborts every OPEN slot (R62). -/
def Module.abortTxns (m : Module) : Module :=
  (List.range 8).foldl (fun m n => if m.rd (R.PRS_TXN_STAT_STATE n) = 1 then m.txnState n 4 6 else m) m

def execHandOff (e c : Nat) (s : State) : Host.Outcome State Fault Refusal := s.upd (mHandOff e c)
def execAdmission (errs : List (Nat × ReadErr)) (s : State) : Host.Outcome State Fault Refusal := s.upd (mAdmission errs)
def execGroupWindowEnd (g : Nat) (s : State) : Host.Outcome State Fault Refusal := s.upd (mGroupWindowEnd g)
def execTxnBegin (n : Nat) (s : State) : Host.Outcome State Fault Refusal := s.upd (mTxnBegin n)
def execTxnDataWrite (n v : Nat) (s : State) : Host.Outcome State Fault Refusal := s.upd (mTxnDataWrite n v)
def execTxnCommit (n : Nat) (s : State) : Host.Outcome State Fault Refusal := s.upd (mTxnCommit n)
def execTxnCommitAt (n : Nat) (s : State) : Host.Outcome State Fault Refusal := s.upd (mTxnCommitAt n)
def execTxnAtReached (n : Nat) (s : State) : Host.Outcome State Fault Refusal := s.upd (mTxnAtReached n)
def execTxnAbort (n : Nat) (s : State) : Host.Outcome State Fault Refusal := s.upd (mTxnAbort n)
def execTxnTimeout (n : Nat) (s : State) : Host.Outcome State Fault Refusal := s.upd (mTxnTimeout n)

end Sys2Proof.Machine
end

