-- ==== Sys2Proof/Machine/Inst.lean ====
section
/-!
DEFINITION. Instance reset, change of owner, isolation's end (R322, R337 to R339, R342), and the PCIe resets (R86, R320, R340).
-/

namespace Sys2Proof.Machine

/-! ### What a reset of an instance ends elsewhere -/

/-- Ends the key command in progress (R460): its slot was BUSY and returns to the state before. -/
def Module.keyEnd (m : Module) (result : Nat) : Module :=
  match m.keys.cmd with
  | none => m
  | some c =>
    let x := m.slot c.slot
    let m := if x.state = .busy then m.setSlot c.slot { x with state := c.before } else m
    let m := { m with keys := { m.keys with cmd := none } }.wr R.KEY_CMD_STAT_BUSY 0
    (m.wr R.KEY_CMD_STAT_RESULT result).flag R.KEY_CMD_STAT_DONE_FLG

/-- Ends a record read with a STATUS; a RELEASE that waited for it takes effect (R368). -/
def Module.readEnd (m : Module) (status : Nat) : Module :=
  match m.acq.read with
  | none => m
  | some r =>
    let m := { m with acq := { m.acq with read := none } }
    let m := m.modSess r.session fun x => match x.recs.get? r.entry with
      | some d => if d.releasing then { x with recs := x.recs.erase r.entry } else x
      | none => x
    ((m.wr R.ACQ_RD_STAT_BUSY 0).wr R.ACQ_RD_STAT_STATUS status).flag R.ACQ_RD_STAT_DONE_FLG

/-- Ends staging without success (R123). -/
def Module.stageFail (m : Module) (cause check : Nat) : Module :=
  let m := { m with sys := { m.sys with staging := none } }.wr R.CFG_STAGE_CMD_GO 0
  (((m.wr R.CFG_STAGE_STAT_STATE 6).wr R.CFG_STAGE_STAT_CAUSE cause).wr R.CFG_STAGE_STAT_CHECK check).flag
    R.CFG_STAGE_STAT_DONE_FLG

/-- Ends a key command and staging that reach host memory through instance i. -/
def Module.endThrough (m : Module) (i : Nat) : Module :=
  let m := if m.keys.cmd.any (·.inst == i) then m.keyEnd 7 else m
  if m.sys.staging.any (·.inst == i) then m.stageFail 4 0 else m

/-! ### Instance reset (R337) -/

/-- A task after a reset of its instance: ENABLED or DISABLED by its EN flag, DISABLED after REMOVE. -/
def TaskSt.afterReset (x : TaskSt) (r : TaskRec) (op : Nat) : TaskSt :=
  { x with state := if r.en && op != 3 then .enabled else .disabled, enablePending := false, consecOvr := 0 }

/-- The reset of instance i by RESET (`op` 1), ASSIGN to `owner` (2) or REMOVE (3). The reset is the first of the events by which
a group of its members fails (R52). DEDUCED, assumption 42. -/
def Module.resetInst (m : Module) (i op owner : Nat) : Module :=
  let ts := m.cul.tasks.filter fun (_, r) => r.inst == i
  let held := m.ctxsOf fun x => x.inst == i
  let opens := ts.flatMap fun (t, _) => (m.task t).opens.map fun o => (t, o.ct)
  let recs := m.press.pending.filter fun r => r.inst == i
  let full := m.press.complete.filter fun l => l.any fun r => r.inst == i
  let grps := (m.press.groups.map (·.1)).filter fun g => (m.members g).any fun t => ts.any (·.1 == t)
  let m := ((m.wr (R.INS_INST_STAT_GEN i) (m.gen i + 1)).wr (R.INS_INST_STAT_DRAINED i) 0).wr (R.INS_INST_STAT_RESET_PENDING i) 0
  let m := { m with host := { m.host with pendOp := m.host.pendOp.erase i } }
  let m := held.foldl (fun m (e, c, _) => m.abortCtx e c) m
  let m := { m with press := { m.press with
    pending := m.press.pending.filter fun r => r.inst != i
    complete := m.press.complete.filter fun l => !(l.any fun r => r.inst == i) } }
  let m := full.foldl (fun m l => m.grpFailed (grpOf l).1 (grpOf l).2 4) m
  let m := m.doActs ((grps.map fun g => Act.grpFail g 4) ++ (held.map fun (e, c, x) => Act.lost x.task x.ct 6 e c 0) ++
    (opens.map fun (t, ct) => Act.cancelOpen t ct 6) ++
    (recs.map fun r => Act.discard r 1) ++
    (full.flatMap fun l => l.map fun r => Act.discard r (if r.inst = i then 1 else 3)))
  let m := ts.foldl (fun m (t, r) => m.modTask t fun x => x.afterReset r op) m
  let m := (((m.queuesOff i 3 false).flushHp i).wr (R.INS_INST_STAT_ISOLATED i) 0).insCnt 10
  let m : Module := if op = 2 then m.wr (R.INS_INST_STAT_OWNER i) owner else if op = 3 then m.wr (R.INS_INST_STAT_OWNER i) 0x200 else m
  let m : Module := m.endThrough i
  let m : Module := if m.acq.read.any (·.inst == i) then m.readEnd 4 else m
  if !m.ready 7 ∨ m.mode = .flush then m
  else
    let r := m.safeRecord i [.instInit i]
    let m := m.openEpoch [r] none [] (recCycles r)
    { m with ladle := { m.ladle with holdInst := m.ladle.holdInst.set i m.press.admitted } }

/-! ### Commands -/

/-- Where the outcome of an instance command of function fn shows. -/
def Module.instResult (m : Module) (fn r : Nat) : Module :=
  (m.wr (fnReg fn 0x1000104 0x88 0 3) r).wr (fnReg fn 0x1000104 0x88 3 1) 1

/-- Resets an instance now, or latches the reset while the old generation has not drained (R339).
DEDUCED, assumption 80. -/
def Module.resetOrLatch (m : Module) (fn i op owner : Nat) : Module :=
  if m.isOn (R.INS_INST_STAT_DRAINED i) then (m.resetInst i op owner).instResult fn 1
  else if m.isOn (R.INS_INST_STAT_RESET_PENDING i) then m.instResult fn 2
  else ({ m with host := { m.host with pendOp := m.host.pendOp.set i (op, owner) } }.flag
    (R.INS_INST_STAT_RESET_PENDING i)).instResult fn 2

/-- What every instance command checks first: an admitted instance. -/
def Module.instCmd (m : Module) (fn i : Nat) (f : Module) : Module :=
  if !m.insOn then m else if !m.instAdmitted i then m.instResult fn 4 else f

/-- INSTANCE_RESET: RESET by the PF; of a module-owned instance only with SW3 (R322). -/
def mInstanceReset (i : Nat) (m : Module) : Module :=
  m.instCmd 0 i (if m.owner i = 0 ∧ !m.sealOn 3 then (m.instResult 0 3).sealDenied R.INS_INST_CMD_OP.addr 0
    else m.resetOrLatch 0 i 1 0)

/-- ASSIGN to host function `owner` - 0x100; to the current owner it acts as RESET. A module-owned instance keeps its owner.
DEDUCED, assumption 80. -/
def mAssign (i owner : Nat) (m : Module) : Module :=
  m.instCmd 0 i (if m.owner i = 0 ∨ owner < 0x100 ∨ 0x1FF < owner then m.instResult 0 3 else m.resetOrLatch 0 i 2 owner)

/-- REMOVE. -/
def mRemove (i : Nat) (m : Module) : Module :=
  m.instCmd 0 i (if m.owner i = 0 then m.instResult 0 3 else m.resetOrLatch 0 i 3 0)

/-- UNISOLATE: ends the isolation of an instance, and its owner function's. -/
def mUnisolate (i : Nat) (m : Module) : Module :=
  m.instCmd 0 i
    (let m := m.wr (R.INS_INST_STAT_ISOLATED i) 0
     let m := if m.hostOwned i then m.wr (R.INS_FN_VIOL_ISOLATED (m.owner i - 0x100)) 0 else m
     m.instResult 0 1)

/-- ICMD_RESET: RESET by VF fn of an instance it owns; of any other it is a violation of cause 8. -/
def mIcmdReset (fn i : Nat) (m : Module) : Module :=
  if !m.insOn then m
  else if !m.owns fn i then (m.violation 8 fn none).instResult fn 4
  else m.resetOrLatch fn i 1 0

/-- DRAINED: no host access of an old generation of instance i is left; a reset that waited for it acts. -/
def mDrained (i : Nat) (m : Module) : Module :=
  if !m.instAdmitted i ∨ m.host.reads.any (fun r => r.inst == i && r.gen != m.gen i) then m
  else
    let m := m.flag (R.INS_INST_STAT_DRAINED i)
    match m.host.pendOp.get? i with
    | none => m
    | some (op, owner) => m.resetInst i op owner

/-! ### PCIe resets (R86, R340) -/

/-- Aborts the pending snapshots of functions (R66). DEDUCED, assumption 81. -/
def Module.abortSnaps (m : Module) (p : Nat → Bool) : Module :=
  let gone := m.press.snaps.filter fun (fn, _) => p fn
  let m := { m with press := { m.press with snaps := m.press.snaps.filter fun (fn, _) => !p fn } }
  gone.foldl (fun m (fn, _) => (m.wr (fnReg fn 0x900314 0x24 0 1) 0).wr (fnReg fn 0x900314 0x24 1 1) 1) m

/-- Disables the queues of an instance, clears their configuration, flushes its HP queue, drops its host DMA in flight. -/
def Module.pcieInst (m : Module) (i : Nat) : Module :=
  let m := (m.queuesOff i 4 true).flushHp i
  { m with host := { m.host with reads := m.host.reads.filter fun r => r.inst != i } }

/-- What a reset of the PF's PCIe state does to host-owned instances, transactions and snapshots.
DEDUCED, assumption 81. -/
def Module.pcieReset (m : Module) : Module :=
  let is := m.instances.filter m.hostOwned
  let m := is.foldl (fun m i => (m.pcieInst i).endThrough i) m
  let m := { m with host := { m.host with reads := [], xlt := is.foldl (fun x i => invalAll i x) m.host.xlt } }
  (m.abortTxns.abortSnaps fun _ => true).wr R.INS_STATUS_NUM_VFS 0

/-- PCIE_RESET: PERST#, hot reset or link down. -/
def mPcieReset (m : Module) : Module :=
  let m := (m.pcieReset.wr R.INS_STATUS_LINK_W 0).wr R.INS_STATUS_LINK_RATE 0
  (m.wr R.INS_DMA_CAP_MBPS 0).exportShown

/-- PF_FUNCTION_LEVEL_RESET. -/
def mPfFunctionLevelReset (m : Module) : Module := m.pcieReset

/-- VF_FUNCTION_LEVEL_RESET of VF fn. -/
def mVfFunctionLevelReset (fn : Nat) (m : Module) : Module :=
  ((m.instances.filter (m.owns fn)).foldl Module.pcieInst m).abortSnaps (· == fn)

/-- DMA_CAP of R320 for a width, a rate code (1 to 5: 2.5, 5, 8, 16, 32 GT/s) and a max payload size.
DEDUCED, assumption 83. -/
def dmaCap (w rate mps : Nat) : Nat :=
  let tenths := if rate = 1 then 25 else if rate = 2 then 50 else if rate = 3 then 80 else if rate = 4 then 160 else 320
  48000 * w * tenths * (if rate ≤ 2 then 80 else 100) * (if mps ≤ 128 then 85 else 100) / (16 * 320 * 100 * 100)

/-- PCIE_LINK_TRAINED at a width, a rate code and a max payload size, with NumVFs (R320). -/
def mPcieLinkTrained (width rate mps vfs : Nat) (m : Module) : Module :=
  let m := ((m.wr R.INS_STATUS_LINK_W width).wr R.INS_STATUS_LINK_RATE rate).wr R.INS_STATUS_NUM_VFS vfs
  ({ m with host := { m.host with mps := mps } }.wr R.INS_DMA_CAP_MBPS (dmaCap width rate mps)).exportShown

def execInstanceReset (i : Nat) (s : State) : Host.Outcome State Fault Refusal := s.upd (mInstanceReset i)
def execAssign (i owner : Nat) (s : State) : Host.Outcome State Fault Refusal := s.upd (mAssign i owner)
def execRemove (i : Nat) (s : State) : Host.Outcome State Fault Refusal := s.upd (mRemove i)
def execUnisolate (i : Nat) (s : State) : Host.Outcome State Fault Refusal := s.upd (mUnisolate i)
def execIcmdReset (fn i : Nat) (s : State) : Host.Outcome State Fault Refusal := s.upd (mIcmdReset fn i)
def execDrained (i : Nat) (s : State) : Host.Outcome State Fault Refusal := s.upd (mDrained i)
def execPcieReset (s : State) : Host.Outcome State Fault Refusal := s.upd mPcieReset
def execPfFunctionLevelReset (s : State) : Host.Outcome State Fault Refusal := s.upd mPfFunctionLevelReset
def execVfFunctionLevelReset (fn : Nat) (s : State) : Host.Outcome State Fault Refusal := s.upd (mVfFunctionLevelReset fn)
def execPcieLinkTrained (width rate mps vfs : Nat) (s : State) : Host.Outcome State Fault Refusal :=
  s.upd (mPcieLinkTrained width rate mps vfs)

end Sys2Proof.Machine
end

