-- ==== Sys2Proof/Machine/Keys.lean ====
section
/-!
DEFINITION. The key store (R436 to R460): the root, derivation, import, switch of halves, attestation, owner slots, the
command that carries each out.
-/

namespace Sys2Proof.Machine

def Module.keyCnt (m : Module) (k : Nat) : Module := m.bump (R.KEY_CNT_CNT k)
def Module.keyEvent (m : Module) (num cause data : Nat) : Module :=
  m.raiseIf R.KEY_STATUS_LOG_EN 13 num cause 0xFFFF 0xFFFF data
def Module.rngFailed (m : Module) : Bool := m.isOn R.KEY_STATUS_RNG_FAIL

/-! ### The root secret (R438, R439) -/

def RootBank.blank : RootBank := ⟨0, false⟩
/-- DESIGN CHOICE, assumption 10. -/
def Module.bank (m : Module) (b : Nat) : RootBank := m.persist.banks.getD b RootBank.blank

/-- The root secret, where ROOT reads ready. -/
def Module.root (m : Module) : Option Bytes :=
  if m.rd R.KEY_STATUS_ROOT = 1 then some (beBytes 32 (m.bank (m.rd R.KEY_STATUS_BANK)).bits) else none

/-- Programs a bank with 256 fresh bits and seals it. DESIGN CHOICE, assumption 18. -/
def Module.programBank (m : Module) (b : Nat) : Module :=
  let (bits, m) := Module.freshBytes 8 m
  let m := { m with persist := { m.persist with banks := m.persist.banks.set b ⟨ofBe bits, true⟩ } }
  ((m.wr R.KEY_STATUS_BANK b).wr R.KEY_STATUS_ROOT 1).keyEvent 2 b 0

/-- Chooses the bank, or programs the lowest blank one; with neither, or without random output, the root has failed. -/
def Module.chooseRoot (m : Module) : Module :=
  match [0, 1].find? fun b => (m.bank b).sealed_ with
  | some b => (m.wr R.KEY_STATUS_BANK b).wr R.KEY_STATUS_ROOT 1
  | none =>
    match [0, 1].find? fun b => m.bank b == RootBank.blank with
    | some b => if m.rngFailed then (m.wr R.KEY_STATUS_ROOT 2).keyEvent 3 0 0 else m.programBank b
    | none => (m.wr R.KEY_STATUS_ROOT 2).keyEvent 3 0 0

/-! ### Derivation (R440 to R443) -/

/-- A derived key; for attributes 4 and 5 the private scalar. -/
def keyOf (parent label : Bytes) (attr : Nat) : Bytes :=
  if attr = 4 ∨ attr = 5 then beBytes 32 (ofBe (kdf parent label attr 320) % (p256N - 1) + 1) else kdf parent label attr 256

/-- The device identity key's scalar (R441). -/
def Module.devScalar (m : Module) : Option Nat := m.root.map fun r => ofBe (keyOf r (asciiBytes "ZT-DEVID") 4)

/-- The public key of a scalar, X then Y. -/
def pubOf (d : Nat) : Bytes := ecBytes (ecMul d ecG)

/-- Why a derivation under a parent fails (event 4): 1 parent, 2 root, 3 depth. -/
def Module.deriveCause (m : Module) (parent : Nat) : Option Nat :=
  if m.root.isNone then some 2
  else if parent = 0xFFFF then none
  else
    let x := m.slot parent
    if x.state ≠ .ready ∨ x.attr ≠ 0 then some 1
    else if 8 < x.depth + 1 then some 3 else none

/-- A slot with a derived key in a half. -/
def Module.derived (m : Module) (x : KeySlot) (parent attr half keyId alg : Nat) (label : Bytes) : KeySlot :=
  let (pk, d) := if parent = 0xFFFF then (m.root.getD [], 0) else (((m.slot parent).keys.getD 0 []), (m.slot parent).depth)
  { x with
    state := .ready, attr := attr, keys := x.keys.set half (keyOf pk label attr), keyIds := x.keyIds.set half keyId
    alg := alg, depth := d + 1, parent := parent, label := label, wrapped := none }

/-- A slot fails: its material is gone, the event, the count (R444, R460). -/
def Module.slotFailed (m : Module) (s cause : Nat) : Module :=
  ((m.setSlot s { m.slot s with state := .failed, keys := [] }).keyCnt 6).keyEvent 4 cause s

/-- Derives a slot that the section defines without IMPORT. -/
def Module.deriveSection (m : Module) (s : Nat) : Module :=
  let x := m.slot s
  match m.deriveCause x.parent with
  | some c => m.slotFailed s c
  | none => (m.setSlot s (m.derived x x.parent x.attr 0 (x.keyIds.getD 0 0) x.alg x.label)).keyCnt 0

/-- The words of a register array from a byte string. -/
def Module.wrWords (m : Module) (f : Nat → Fld) (n : Nat) (b : Bytes) : Module :=
  (List.range n).foldl (fun m w => m.wr (f w) (leAt b (4 * w) 4)) m

/-- What KEY does before its readiness bit (R439, R445, R454, R455). The header region that the seal covers is that of
the loaded copy. -/
def Module.keyReady (m : Module) (sealed : Option Bytes) : Module :=
  let m := m.chooseRoot
  let m := match m.devScalar with
    | some d => m.wrWords R.KEY_DEVID_Q 16 (pubOf d)
    | none => m
  let m := m.keys.slots.foldl (fun m (s, x) =>
    if !x.section_ then m
    else if x.import_ then m.setSlot s { x with state := .await } else m.deriveSection s) m
  match m.keys.imgSlot, sealed with
  | some s, some h =>
    let x := m.slot s
    if x.state = .ready ∧ x.attr = 3 then m.wrWords R.KEY_IMG_SEAL_SEAL 8 (hmac (x.keys.getD 0 []) (sha256 h)) else m
  | _, _ => m

/-- An uncorrectable error in a slot's material (R460). -/
def Module.slotUe (m : Module) (s : Nat) : Module :=
  let x := m.slot s
  if x.keys = [] then m
  else
    let m := m.slotFailed s 4
    if !x.section_ then m
    else if x.import_ then m.setSlot s { m.slot s with state := .await } else m.deriveSection s

/-! ### Commands (R458) -/

/-- Starts a command of the PF: one written while another is in progress has no effect. The block is none where host
memory did not answer. -/
def Module.keyStart (m : Module) (op s : Nat) (dev : Bool) (inst : Nat) (block : Option Bytes) : Module :=
  if m.mode = .reset ∨ !m.ready 12 ∨ m.isOn R.KEY_CMD_STAT_BUSY then m
  else
    let s := s % 1024
    let i := inst % 4096
    let x := m.slot s
    let reach := m.reachable i (m.rd64 R.KEY_CMD_ADDR_LO_ADDR R.KEY_CMD_ADDR_HI_ADDR) 256 false
    let c : KeyCmd := ⟨op, s, dev, i, m.gen i, if m.hostOwned i && !m.isolated i && reach then block else none, x.state⟩
    let m := if m.hostOwned i ∧ !m.isolated i ∧ !reach then m.xltFault i else m
    let m := if op ≤ 4 then m.setSlot s { x with state := .busy } else m
    { m with keys := { m.keys with cmd := some c } }.flag R.KEY_CMD_STAT_BUSY

/-- DESIGN CHOICE, assumption 8. -/
def mDerive (s inst : Nat) (block : Option Bytes) (m : Module) : Module := m.keyStart 1 s false inst block
def mImportKey (s inst : Nat) (block : Option Bytes) (m : Module) : Module := m.keyStart 2 s false inst block
def mClear (s inst : Nat) (block : Option Bytes) (m : Module) : Module := m.keyStart 3 s false inst block
def mKeySwitch (s inst : Nat) (block : Option Bytes) (m : Module) : Module := m.keyStart 4 s false inst block
def mAttest (s : Nat) (dev : Bool) (inst : Nat) (block : Option Bytes) (m : Module) : Module := m.keyStart 5 s dev inst block
def mProgram (inst : Nat) (block : Option Bytes) (m : Module) : Module := m.keyStart 6 0 false inst block
def mRevoke (inst : Nat) (block : Option Bytes) (m : Module) : Module := m.keyStart 7 0 false inst block

/-- The reserved byte ranges of a command block (Table 18.7): offset and length. -/
def keyReserved (op : Nat) : List (Nat × Nat) :=
  if op = 1 then [(74, 182)] else if op = 2 then [(3, 1), (120, 136)] else if op = 3 then [(0, 256)]
  else if op = 4 then [(4, 252)] else if op = 5 then [(3, 5), (48, 208)] else [(2, 6), (104, 152)]

/-- Whether DERIVE or IMPORT may write a half of slot x, which holds attribute attr after it (R447). -/
def Module.halfOk (m : Module) (s attr half : Nat) : Bool :=
  let x := m.slot s
  (half == 0 || attr == 1) && !(attr == 1 && x.attr == 1 && half == m.sendHalf s && (x.keys.get? half).isSome)

/-- DERIVE at its completion. DEDUCED, assumption 99. -/
def Module.keyDerive (m : Module) (c : KeyCmd) (b : Bytes) : Module :=
  let x := m.slot c.slot
  let parent := leAt b 0 2
  let attr := leAt b 2 1
  let label := slice b 8 (leAt b 3 1)
  let half := leAt b 73 1
  let alg := leAt b 72 1
  if 6 < attr ∨ !labelOk label ∨ 1 < half ∨ 4 < alg ∨ (attr ≠ 1 ∧ alg ≠ 0) then m.keyEnd 2
  else
    let fresh := (c.before == .empty || c.before == .failed) && !x.section_
    let other := c.before == .ready && x.attr == 1 && attr == 1 && x.alg == alg
    if labelOwn label ∨ !(fresh || other) ∨ !m.halfOk c.slot attr half then m.keyEnd 3
    else match m.deriveCause parent with
      | some k =>
        let m := m.keyEnd (if k = 2 then 5 else 3)
        if fresh then m.slotFailed c.slot k else (m.keyCnt 6).keyEvent 4 k c.slot
      | none =>
        let y := m.derived (if fresh then KeySlot.init else x) parent attr half (leAt b 4 4) alg label
        ((m.keyEnd 1).setSlot c.slot y).keyCnt 0

/-- The key that IMPORT unwraps: none where a check of R446 fails. -/
def Module.unwrapKey (m : Module) (c : KeyCmd) (b : Bytes) : Option Bytes :=
  let x := m.slot c.slot
  match ecOfBytes (slice b 8 64) with
  | none => none
  | some q =>
    match ecMul (ofBe ((m.slot (leAt b 0 2)).keys.getD 0 [])) (some q) with
    | none => none
    | some (z, _) =>
      let kek := hmac (beBytes 32 z) (asciiBytes "ZT-IMPORT" ++ beBytes 4 c.slot ++ beBytes 4 (leAt b 4 4))
      (kwUnwrap kek (slice b 72 48)).bind fun p =>
        if leAt p 0 1 = x.attr ∧ leAt p 1 1 = x.alg ∧ leAt p 2 6 = 0 then some (slice p 8 32) else none

/-- IMPORT at its completion. DEDUCED, assumption 99. -/
def Module.keyImport (m : Module) (c : KeyCmd) (b : Bytes) : Module :=
  let x := m.slot c.slot
  let w := m.slot (leAt b 0 2)
  let half := leAt b 2 1
  if 1 < half then m.keyEnd 2
  else if !x.section_ ∨ !x.import_ ∨ !(c.before == .await || c.before == .ready) ∨ w.state ≠ .ready ∨ w.attr ≠ 5 ∨
      !m.halfOk c.slot x.attr half then (m.keyEnd 3).keyCnt 2
  else match m.unwrapKey c b with
    | none => (m.keyEnd 4).keyCnt 2
    | some k =>
      let y : KeySlot := { x with
        state := .ready, keys := x.keys.set half k, keyIds := x.keyIds.set half (leAt b 4 4), depth := 0
        parent := 0xFFFF, wrapped := some (slice b 72 48) }
      ((m.keyEnd 1).setSlot c.slot y).keyCnt 1

/-- Whether a slot is in use (R459). -/
def Module.slotInUse (m : Module) (s : Nat) : Bool :=
  (m.keys.slots.any fun (_, x) => x.state == .ready && x.parent == s && x.depth != 0) ||
  (m.vat.streams.any fun (n, x) => m.isOn (R.VAT_STRM_CFG_EN n) && m.isOn (R.VAT_STRM_CFG_AUTH n) && x.keyLabel == s) ||
  (m.cul.pubs.any fun (_, r) => r.en && r.auth && r.keySlot == s) ||
  (m.cul.gsubs.any fun (_, r) => r.en && r.auth && r.keySlot == s) ||
  (m.keys.ports.any fun (_, p) => p.cak == some s) || m.keys.imgSlot == some s

/-- CLEAR at its completion. -/
def Module.keyClear (m : Module) (c : KeyCmd) : Module :=
  let x := m.slot c.slot
  if m.slotInUse c.slot then m.keyEnd 3
  else
    let y : KeySlot := if x.section_ then
        { x with state := if x.import_ then .await else .empty, keys := [], wrapped := none, sendHalf := 0, pending := none,
                 switched := [] }
      else KeySlot.init
    (m.keyEnd 1).setSlot c.slot y

/-- Changes SEND_HALF, with the TAI seconds of the switch. -/
def Module.switchHalf (m : Module) (s h : Nat) : Module :=
  let x := m.slot s
  m.setSlot s { x with sendHalf := h, pending := none, switched := x.switched.set h (m.tns / 1000000000) }

/-- SWITCH at its completion (R449): to the half that does not send. DEDUCED, assumption 63. -/
def Module.keySwitch (m : Module) (c : KeyCmd) (b : Bytes) : Module :=
  let x := m.slot c.slot
  let at_ := leAt b 0 4
  let h := 1 - m.sendHalf c.slot
  if c.before ≠ .ready ∨ x.attr ≠ 1 ∨ (x.keys.get? h).isNone then m.keyEnd 3
  else
    let m := m.keyEnd 1
    if tsLater at_ m.ts32 then m.setSlot c.slot { m.slot c.slot with sendHalf := 1 - h, pending := some (at_, h) }
    else m.switchHalf c.slot h

/-! ### Attestation (R452, R453) -/

/-- (LABEL_LEN, LABEL, ATTR) of each ancestor from depth 1 down to slot s. -/
def Module.keyPath : Nat → Module → Nat → Bytes
  | 0, _, _ => []
  | n + 1, m, s =>
    let x := m.slot s
    (if x.parent = 0xFFFF then [] else keyPath n m x.parent) ++ beBytes 1 x.label.length ++ x.label ++ beBytes 1 x.attr

/-- PATH of a subject; none for the device identity key. -/
def Module.attestPath (m : Module) (subject : Option Nat) : Bytes :=
  match subject with
  | none => let l := asciiBytes "ZT-DEVID"; sha256 (beBytes 1 l.length ++ l ++ [4])
  | some s => match (m.slot s).wrapped with
    | some w => sha256 w
    | none => sha256 (m.keyPath 9 s)

/-- The send connections with ID_SEAL. -/
def Module.sealConns (m : Module) : List Nat :=
  (m.lst.conns.filter fun (c, _) => m.isSend c && m.isOn (R.LST_CONN0_ID_SEAL c)).map (·.1)

/-- The statement of Table 18.5 up to byte 191; `d` is the device identity scalar. -/
def Module.statement (m : Module) (subject : Option Nat) (signer kind d : Nat) (nonce : Bytes) : Bytes :=
  let x := (subject.map m.slot).getD KeySlot.init
  let attr := if subject.isNone then 4 else x.attr
  let key := (x.keys.get? 0).getD (x.keys.getD 1 [])
  let head := leBytes 4 0x5441545A ++ leBytes 1 1 ++ leBytes 1 kind ++ leBytes 2 (subject.getD 0xFFFF) ++ leBytes 1 attr ++
    leBytes 1 (b2n x.wrapped.isSome) ++ [0, 0] ++ leBytes 2 signer ++ leBytes 2 0x6432 ++ leBytes 8 m.red.bootId ++
    leBytes 8 m.tns ++ leBytes 8 (m.rd64 R.CFG_SERIAL_LO_SERIAL R.CFG_SERIAL_HI_SERIAL) ++
    leBytes 1 (m.rd R.SYS_SEAL_AT_RESET) ++ List.replicate 7 0 ++ nonce ++ m.attestPath subject
  let ids := m.sealConns
  let body := if kind = 1 then
      let h := sha256 (ids.flatMap fun c => beBytes 8 (m.connId c))
      h ++ hmac key (head ++ h)
    else if subject.isNone then pubOf d
    else if attr = 4 ∨ attr = 5 then pubOf (ofBe key)
    else (hmac key (asciiBytes "ZT-KCV")).take 16 ++ List.replicate 48 0
  head ++ body ++ leBytes 2 (if kind = 1 then ids.length else 0) ++ List.replicate 14 0

/-- ATTEST at its completion. DEDUCED, assumption 99. -/
def Module.keyAttest (m : Module) (c : KeyCmd) (b : Bytes) : Module :=
  let signer := leAt b 0 2
  let kind := leAt b 2 1
  let addr := leAt b 40 8
  let subject := if c.dev then none else some c.slot
  let x := m.slot c.slot
  let sx := m.slot signer
  if 1 < kind ∨ addr % 64 ≠ 0 then m.keyEnd 2
  else if (!c.dev ∧ x.state ≠ .ready) ∨ (kind = 1 ∧ (c.dev ∨ x.attr ≠ 6)) ∨
      (signer ≠ 0xFFFF ∧ (sx.state ≠ .ready ∨ sx.attr ≠ 4)) then m.keyEnd 3
  else if (c.dev ∨ signer = 0xFFFF) ∧ m.devScalar.isNone then m.keyEnd 5
  else if !m.reachable c.inst addr 256 true then (m.xltFault c.inst).keyEnd 7
  else
    let d := m.devScalar.getD 0
    let body := m.statement subject signer kind d (slice b 8 32)
    let sig := ecdsaSign (if signer = 0xFFFF then d else ofBe (sx.keys.getD 0 [])) body
    ((m.hostPut c.inst addr (body ++ sig)).keyEnd 1).keyCnt 3

/-! ### Owner key slots (R456, R457) -/

/-- A square root modulo the prime, which is 3 modulo 4. -/
def sqrtP (a : Nat) : Nat := powMod 256 a ((p256P + 1) / 4) p256P

/-- The public keys under which a signature of a message verifies: the recovery of ECDSA, for both signs of R's y. -/
def ecdsaKeys (msg sig : Bytes) : List Bytes :=
  let r := beAt sig 0 32
  let s := beAt sig 32 32
  if r = 0 ∨ p256N ≤ r ∨ s = 0 ∨ p256N ≤ s then []
  else
    let ri := invMod r p256N
    let u1 := (p256N - ofBe (sha256 msg) % p256N) * ri % p256N
    let u2 := s * ri % p256N
    (([r, r + p256N].filter fun x => decide (x < p256P)).flatMap fun x =>
      let y := sqrtP ((x * x * x + (p256P - 3) * x + p256B) % p256P)
      if ecOn x y then
        [y, (p256P - y) % p256P].map fun y => ecBytes (ecAdd (ecMul u1 ecG) (ecMul u2 (some (x, y))))
      else [])

/-- The message of Table 18.6. -/
def Module.ownerMsg (m : Module) (op slot signer : Nat) (hash : Bytes) : Bytes :=
  leBytes 4 0x574F545A ++ leBytes 1 op ++ leBytes 1 slot ++ leBytes 1 signer ++ [0] ++
    ((List.range 8).flatMap fun w => leBytes 4 (m.rd (R.KEY_OTP_NONCE_NONCE w))) ++
    (if op = 6 then hash else List.replicate 32 0) ++
    ((List.range 16).flatMap fun w => leBytes 4 (m.rd (R.KEY_DEVID_Q w)))

/-- Replaces the owner nonce, where random output is to be had.
DESIGN CHOICE, assumption 18; DEDUCED, assumption 99. -/
def Module.newNonce (m : Module) : Module :=
  if m.rngFailed then m
  else let (b, m) := Module.freshBytes 8 m; m.wrWords R.KEY_OTP_NONCE_NONCE 8 b

/-- The result of PROGRAM or REVOKE. -/
def Module.ownerResult (m : Module) (op : Nat) (b : Bytes) : Nat :=
  let n := leAt b 0 1
  let sg := leAt b 1 1
  let x := m.ownerSlot n
  let all := (List.range 4).map m.ownerSlot
  let others := (List.range 4).any fun k => k != n && (m.ownerSlot k).live
  if 3 < n ∨ (3 < sg ∧ sg ≠ 0xFF) then 2
  else if op = 6 ∧ x.code ≠ 0 then 3
  else if op = 7 ∧ (x.revoked ∨ !others) then 3
  else if op = 6 ∧ !(all.any (·.programmed)) then 1
  else if sg < 4 && (m.ownerSlot sg).live &&
      ((ecdsaKeys (m.ownerMsg op n sg (slice b 8 32)) (slice b 40 64)).any fun k => sha256 k == (m.ownerSlot sg).hash) then 1
  else 4

/-- PROGRAM and REVOKE at their completion. DEDUCED, assumption 99. -/
def Module.keyOwner (m : Module) (c : KeyCmd) (b : Bytes) : Module :=
  if m.rngFailed then m.keyEnd 6
  else
    let r := m.ownerResult c.op b
    let n := leAt b 0 1
    let x := m.ownerSlot n
    let m := if r ≠ 1 then m
      else
        let y : OwnerSlot := if c.op = 6 then ⟨slice b 8 32, true, false⟩ else { x with revoked := true }
        { m with persist := { m.persist with owners := m.persist.owners.set n y } }.keyEvent 6 c.op n
    (m.keyEnd r).newNonce

/-! ### Completion -/

/-- KEY_COMMAND_DONE: the command in progress completes at t (R458, R460). DEDUCED, assumption 99. -/
def mKeyCommandDone (t : Nat) (m : Module) : Module :=
  match m.keys.cmd with
  | none => m
  | some c =>
    let m := m.reach t
    match c.block with
    | none =>
      let m := m.keyEnd 7
      if 6 ≤ c.op then m.newNonce else m
    | some b =>
      if m.gen c.inst ≠ c.gen ∨ m.isolated c.inst then (let m := m.keyEnd 7; if 6 ≤ c.op then m.newNonce else m)
      else if (keyReserved c.op).any fun (o, n) => leAt b o n != 0 then
        (let m := m.keyEnd 2; if 6 ≤ c.op then m.newNonce else m)
      else if c.op = 1 then m.keyDerive c b
      else if c.op = 2 then m.keyImport c b
      else if c.op = 3 then m.keyClear c
      else if c.op = 4 then m.keySwitch c b
      else if c.op = 5 then m.keyAttest c b
      else m.keyOwner c b

/-- SEND_HALF_SWITCH: the AT of slot s's pending SWITCH is reached. -/
def mSendHalfSwitch (s : Nat) (m : Module) : Module :=
  match (m.slot s).pending with
  | none => m
  | some (t, h) => (m.reach (m.nsOfTs t)).switchHalf s h

/-- RNG_FAIL: a health test fails. -/
def mRngFail (m : Module) : Module :=
  if m.rngFailed then m else (m.flag R.KEY_STATUS_RNG_FAIL).keyEvent 1 0 0

def execDerive (s' inst : Nat) (block : Option Bytes) (s : State) : Host.Outcome State Fault Refusal := s.upd (mDerive s' inst block)
def execImportKey (s' inst : Nat) (block : Option Bytes) (s : State) : Host.Outcome State Fault Refusal := s.upd (mImportKey s' inst block)
def execClear (s' inst : Nat) (block : Option Bytes) (s : State) : Host.Outcome State Fault Refusal := s.upd (mClear s' inst block)
def execKeySwitch (s' inst : Nat) (block : Option Bytes) (s : State) : Host.Outcome State Fault Refusal := s.upd (mKeySwitch s' inst block)
def execAttest (s' : Nat) (dev : Bool) (inst : Nat) (block : Option Bytes) (s : State) : Host.Outcome State Fault Refusal :=
  s.upd (mAttest s' dev inst block)
def execProgram (inst : Nat) (block : Option Bytes) (s : State) : Host.Outcome State Fault Refusal := s.upd (mProgram inst block)
def execRevoke (inst : Nat) (block : Option Bytes) (s : State) : Host.Outcome State Fault Refusal := s.upd (mRevoke inst block)
def execKeyCommandDone (t : Nat) (s : State) : Host.Outcome State Fault Refusal := s.upd (mKeyCommandDone t)
def execSendHalfSwitch (s' : Nat) (s : State) : Host.Outcome State Fault Refusal := s.upd (mSendHalfSwitch s')
def execRngFail (s : State) : Host.Outcome State Fault Refusal := s.upd mRngFail

end Sys2Proof.Machine
end

