-- ==== Sys2Proof/Machine/Pair.lean ====
section
/-!
DEFINITION. What an applied record is to the pair: its digest (R67, R406), the matching of digests (R407), being in or out of sync,
what the active forwards (R408).
-/

namespace Sys2Proof.Machine

def Module.redCnt (m : Module) (k : Nat) : Module := m.bump (R.RED_CNT_CNT k)

/-- An event of RED (R411) that concerns an instance, or none (0xFFFF). -/
def Module.redEvent (m : Module) (num cause inst data : Nat) : Module :=
  m.raiseIf R.RED_CTRL_LOG_EN 11 num cause inst 0xFFFF data

/-- Whether the module is a member of a pair whose role is decided. -/
def Module.paired (m : Module) : Bool := m.red.cfg.pairMode && m.red.role != .undecided && m.red.role != .standalone

/-! ### Digests (R67) -/

/-- An entry's bytes in a record (R40, Table 2.3). The entries that no instruction stages are given a like form: a safe image
as an OUT_WRITE with the task as TARGET, the rewrite of instance data as an empty INST_WRITE.
DEDUCED, assumption 47. -/
def Entry.bytes (e : Entry) : Bytes :=
  let form (typ target : Nat) (d : Bytes) : Bytes :=
    leBytes 1 typ ++ [0] ++ leBytes 2 d.length ++ leBytes 4 target ++ d ++ List.replicate (pad8 d.length - d.length) 0
  match e with
  | .outWrite off d => form 1 off d
  | .instWrite off d => form 2 off d
  | .varPub v q x w => form 3 v (leBytes 4 q.toNat ++ leBytes w x.toNat)
  | .frame k i => form 4 (k * 2 ^ 28 + i) []
  | .frameRaw pc b => form 4 (2 * 2 ^ 28) ([pc, 0, 0, 0] ++ b)
  | .eventMark c d => form 5 c d
  | .recMark t => form 6 t.toNat []
  | .safeOut t d => form 1 t d
  | .instInit i => form 2 i []

/-- TASK and CT of a record's digest entry: 0xFFFF and 0 for safe values and the rewrite of R337. -/
def CRec.digKey (r : CRec) : Nat × Nat := if r.kind = .cycle then (r.task, r.ct % 2 ^ 32) else (0xFFFF, 0)

/-- The digest of a record. DEDUCED, assumption 47. -/
def CRec.digest (r : CRec) : Nat :=
  let (t, ct) := r.digKey
  crcFinish 64 false (2 ^ 64 - 1) ((leBytes 2 t ++ leBytes 4 ct ++ r.entries.flatMap Entry.bytes).foldl
    (crcByte 64 0x42F0E1EBA9EA3693 false) (2 ^ 64 - 1))

/-! ### In and out of sync -/

def Module.instSync (m : Module) (i : Nat) : Nat := m.rd (R.RED_INST_SYNC_STATE i)

/-- Marks an instance out of sync; its transfer ends. -/
def Module.setUnsynced (m : Module) (i : Nat) : Module :=
  { m with red := { m.red with xfers := m.red.xfers.erase i } }.wr (R.RED_INST_SYNC_STATE i) 1

/-- Marks an instance out of sync for a cause of event 4; only the standby acts on it (R407). -/
def Module.markUnsynced (m : Module) (i cause : Nat) : Module :=
  if m.red.role ≠ .standby ∨ !m.instAdmitted i then m else (m.setUnsynced i).redEvent 4 cause i i

/-- Whether digests of an instance are compared for an instant: in sync, or joining from T_join on (R408). -/
def Module.compared (m : Module) (i ct : Nat) : Bool :=
  m.instSync i == 0 ||
    (m.instSync i == 3 && (match (m.red.xfers.get? i).bind (·.tJoin) with
      | some j => decide (j ≤ m.nsOfTs (ct % 2 ^ 32))
      | none => false))

/-- A transfer is done: its instance is in sync. -/
def Module.xferDone (m : Module) (i : Nat) : Module :=
  (({ m with red := { m.red with xfers := m.red.xfers.erase i } }.wr (R.RED_INST_SYNC_STATE i) 0).redCnt 11).redEvent 5 0 i i

/-- A task's local cycle at or after T_join; with the last of them the instance is in sync (R408). -/
def Module.joined (m : Module) (i t ct : Nat) : Module :=
  match m.red.xfers.get? i with
  | none => m
  | some x =>
    match x.tJoin with
    | none => m
    | some j =>
      if m.instSync i ≠ 3 ∨ m.nsOfTs (ct % 2 ^ 32) < j then m
      else
        let left := x.waiting.filter (· != t)
        if left = [] then m.xferDone i
        else { m with red := { m.red with xfers := m.red.xfers.set i { x with waiting := left } } }

/-! ### Matching (R407) -/

def DigEntry.sameKey (a b : DigEntry) : Bool := a.inst == b.inst && a.task == b.task && a.ct == b.ct

/-- Two entries of one key have met. -/
def Module.digMet (m : Module) (a b : DigEntry) : Module :=
  if a.digest = b.digest then m else (m.redCnt 9).markUnsynced a.inst 1

/-- The end of an own entry's window, in ns of the primary clock. -/
def Module.digClose (m : Module) (d : DigEntry) : Nat :=
  if d.task = 0xFFFF then m.tns + 10000000
  else m.nsOfTs d.ct + ((m.taskRec d.task).map (·.deadlineNs)).getD 0 + m.red.cfg.slackUs * 1000

/-- Queues the digest of an applied record. One made while PL is down or the queue is full is not sent, and so not matched.
DEDUCED, assumption 47. -/
def Module.queueDigest (m : Module) (r : CRec) : Module :=
  let (t, ct) := r.digKey
  let d : DigEntry := ⟨r.inst, t, ct, r.digest⟩
  if !m.linkUp 10 ∨ 32768 ≤ m.red.digQ.length then m.redCnt 8
  else
    let q := m.red.digQ ++ [d]
    let m : Module := { m with red := { m.red with digQ := q, digFrom := some (m.red.digFrom.getD m.mono) } }
    if !m.compared r.inst ct then m
    else match m.red.theirs.find? (·.sameKey d) with
      | some x => { m with red := { m.red with theirs := m.red.theirs.filter fun y => !y.sameKey d } }.digMet d x
      | none => { m with red := { m.red with own := m.red.own ++ [(d, m.digClose d)] } }

/-! ### Forwarding (R408) -/

/-- What an applied record does for the pair: the active forwards a cycle's record earlier than T_join; the standby counts
its local cycles at or after it; both queue its digest. -/
def Module.redApplied (m : Module) (r : CRec) : Module :=
  if !m.paired then m
  else
    let m : Module := match r.kind, m.red.forward.get? r.inst with
      | .cycle, some j =>
        if m.nsOfTs (r.ct % 2 ^ 32) < j then (m.emit (.pair (.record r.inst r.ct r))).redCnt 13 else m
      | _, _ => m
    let m := if r.kind = .cycle then m.joined r.inst r.task r.ct else m
    if r.kind = .cycle ∨ r.kind = .safe ∨ r.kind = .rewrite then m.queueDigest r else m

/-- A forwarded record or a marker ends its cycle on the standby (R292, R408). DEDUCED, assumption 76. -/
def Module.endForwarded (m : Module) (t ct : Nat) : Module :=
  m.modTask t fun x => { x with
    lastDispatched := some (match x.lastDispatched with
      | some l => if tsLater ct l then ct else l
      | none => ct)
    handed := match x.handed with
      | some h => if tsLater h ct then some h else none
      | none => none }

/-- What a transfer carries beside the entries of its record: each task's STOPPED state and last committed instant, the state of
publications and connections (R408). -/
def Module.applyParts (m : Module) (parts : List XPart) : Module :=
  parts.foldl (fun m p =>
    match p with
    | .out t stopped ct _ =>
      let m := m.modTask t fun x => { x with
        state := if stopped then .stopped else if x.state = .stopped then .enabled else x.state
        lastDispatched := if ct = 0 then x.lastDispatched else some ct
        handed := match x.handed with
          | some h => if tsLater h ct then some h else none
          | none => none }
      let i := m.taskInst t
      (m.wr (R.SCH_TASK_STAT1_LAST_CT t) ct).wr (R.INS_INST_STAT_STATE i) (if stopped then 3 else 2)
    | .pub p st sq data =>
      let old := m.pubs.getD p ⟨[], 0, 0, 0, 0⟩
      ((m.wr (R.SCH_GPUB0_ST_NUM p) st).wr (R.SCH_GPUB1_SQ_NUM p) sq).setPub p { old with data := data }
    | .conn c seq =>
      (match m.lst.conns.get? c with
       | some x => (m.setConn c { x with seq := some seq, built := true }).wr (R.LST_CONN9_SEQ c) seq
       | none => m)
    | .idata _ _ => m
    | .var _ _ _ => m) m

end Sys2Proof.Machine
end

