-- ==== Sys2Proof/Machine/CrcHost.lean ====
section
/-!
DEFINITION. The check-value units as a PCIe function uses them (R464 to R468).
-/

namespace Sys2Proof.Machine

/-- Whether function fn owns unit u. -/
def Module.crcOwns (m : Module) (fn u : Nat) : Bool := decide (u < 8) && m.rd (R.CRC_OWNER_OWNER u) == 0x100 + fn

/-- A host access to unit u: carried out for the owner; a VF that does not own it commits a violation of cause 2; it has no
effect on a unit of the engines or of another function. DEDUCED, assumption 36. -/
def Module.crcHost (m : Module) (fn u : Nat) (f : Module) : Module :=
  if m.mode = .reset ∨ !m.ready 13 then m
  else if m.crcOwns fn u then f
  else if fn = 0 then m
  else m.violation 2 fn none

/-- The running value R, and setting it. -/
def Module.crcR (m : Module) (u : Nat) : Nat := m.rd64 (R.CRC_VALUE_LO_R u) (R.CRC_VALUE_HI_R u) % 2 ^ (m.crcSet u).w
def Module.setCrcR (m : Module) (u r : Nat) : Module := m.wr64 (R.CRC_VALUE_LO_R u) (R.CRC_VALUE_HI_R u) (r % 2 ^ (m.crcSet u).w)

/-- START: R becomes INIT. -/
def mStart (fn u : Nat) (m : Module) : Module := m.crcHost fn u (m.setCrcR u (m.crcSet u).init)

/-- COMPARE: the final value to CRC_RESULT, and MATCH, or MISMATCH_FLG with its count and interrupt (R467). -/
def mCompare (fn u : Nat) (m : Module) : Module :=
  m.crcHost fn u
    (let c := m.crcSet u
     let v := c.final (m.crcR u)
     let e := m.rd64 (R.CRC_EXPECT_LO_EXPECT u) (R.CRC_EXPECT_HI_EXPECT u) % 2 ^ c.w
     let m := m.wr64 (R.CRC_RESULT_LO_RESULT u) (R.CRC_RESULT_HI_RESULT u) v
     if v = e then m.flag (R.CRC_STAT_MATCH u)
     else
       let m := ((m.wr (R.CRC_STAT_MATCH u) 0).flag (R.CRC_STAT_MISMATCH_FLG u)).bump (R.CRC_MISMATCH_CNT_CNT u)
       if m.isOn (R.CRC_CFG_IRQ_EN u) then m.emit (.msix fn (m.rd (R.CRC_CFG_VECTOR u))) else m)

/-- CRC_FEED: a write of CRC_FEED8, 16 or 32 feeds n = 1, 2 or 4 bytes, least significant first. -/
def mCrcFeed (fn u n v : Nat) (m : Module) : Module :=
  m.crcHost fn u ((m.setCrcR u ((m.crcSet u).feeds (m.crcR u) (leBytes (min n 4) v))).bump (R.CRC_REQ_CNT_CNT u))

/-- The low word of a pair as function fn last wrote it (R19). -/
def Module.lowWord (m : Module) (fn : Nat) (f : Fld) : Nat := m.wlatch.getD (fn * 2 ^ 33 + f.addr) (m.rd f)

/-- CRC_TAG_HI_WRITE: folds the tag into R (R463). -/
def mCrcTagHiWrite (fn u hi : Nat) (m : Module) : Module :=
  m.crcHost fn u
    (let tag := m.lowWord fn (R.CRC_TAG_LO_TAG u) + 2 ^ 32 * (hi % 2 ^ 32)
     (m.setCrcR u ((m.crcSet u).fold (m.crcR u) tag)).bump (R.CRC_REQ_CNT_CNT u))

/-- CRC_VALUE_HI_WRITE: restores R (R468). -/
def mCrcValueHiWrite (fn u hi : Nat) (m : Module) : Module :=
  m.crcHost fn u (m.setCrcR u (m.lowWord fn (R.CRC_VALUE_LO_R u) + 2 ^ 32 * (hi % 2 ^ 32)))

/-- CRC_OWNER_WRITE by the PF: the unit changes hands as it stands (R464). -/
def mCrcOwnerWrite (u v : Nat) (m : Module) : Module :=
  if m.mode = .reset ∨ 8 ≤ u then m else m.wr (R.CRC_OWNER_OWNER u) v

def execStart (fn u : Nat) (s : State) : Host.Outcome State Fault Refusal := s.upd (mStart fn u)
def execCompare (fn u : Nat) (s : State) : Host.Outcome State Fault Refusal := s.upd (mCompare fn u)
def execCrcFeed (fn u n v : Nat) (s : State) : Host.Outcome State Fault Refusal := s.upd (mCrcFeed fn u n v)
def execCrcTagHiWrite (fn u hi : Nat) (s : State) : Host.Outcome State Fault Refusal := s.upd (mCrcTagHiWrite fn u hi)
def execCrcValueHiWrite (fn u hi : Nat) (s : State) : Host.Outcome State Fault Refusal := s.upd (mCrcValueHiWrite fn u hi)
def execCrcOwnerWrite (u v : Nat) (s : State) : Host.Outcome State Fault Refusal := s.upd (mCrcOwnerWrite u v)

end Sys2Proof.Machine
end

