-- ==== Sys2Proof/Machine/Write.lean ====
section
/-!
DEFINITION. Host reads and writes of registers (R15, R17 to R19, R21, R22, R78, R323, R464 to R466, R488, R489): what a write sets, with
the registers whose write does more; the latches of 64-bit pairs; RC fields.
-/

namespace Sys2Proof.Machine

/-! ### Addresses -/

/-- The model's address of an offset of function fn's BAR0; an unassigned one past the end of what fn decodes. -/
def fnAddr (fn off : Nat) : Nat :=
  if fn = 0 then (if off < 0x4000000 then off / 4 * 4 else 0x4000000)
  else if fn < 256 ∧ off < 0x10000 then vfBase + fn * 0x10000 + off / 4 * 4 else 0x4000000

/-- The low words of 64-bit pairs (R19): first address, stride, count. DEDUCED, assumption 32. -/
def lowWords : List (Nat × Nat × Nat) :=
  [(0x100008, 4, 1), (0x100040, 4, 1), (0x100060, 8, 2), (0x20001c, 4, 1), (0x200044, 4, 1), (0x200104, 0x20, 4),
   (0x500110, 0x20, 4), (0x701008, 0x20, 256), (0x701014, 0x20, 256), (0x900008, 4, 1), (0x900214, 0x20, 8),
   (0x900300, 4, 1), (0x900308, 4, 1), (0xa00020, 4, 1), (0xb00010, 4, 1), (0xd10004, 0x40, 1024), (0xe00010, 4, 1),
   (0xf00004, 0x200, 8), (0xf0000c, 0x200, 8), (0xf00014, 0x200, 8), (0xf0001c, 0x200, 8), (0xf00024, 0x200, 8),
   (0xf0002c, 0x200, 8), (0xf00048, 0x200, 8), (0x1000084, 4, 1), (0x1000090, 4, 1), (0x1000148, 4, 1),
   (vfBase + 0x10, 0x10000, 256), (vfBase + 0x18, 0x10000, 256), (vfBase + 0x44, 0x10000, 256),
   (vfBase + 0x50, 0x10000, 256)]

def isLowWord (a : Nat) : Bool :=
  lowWords.any fun (b, s, n) => decide (b ≤ a) && (a - b) % s == 0 && decide ((a - b) / s < n)

/-! ### What a write sets -/

/-- A write of a word of a field by its access type; `denied` marks RWS fields whose switch is off.
DEDUCED, assumptions 31 and 35. -/
def Module.fieldWrite (m : Module) (a v : Nat) (f : FDesc) : Module :=
  let x := bitsOf v f.lsb f.width
  match f.acc with
  | .rw => m.wr (f.at a) x
  | .rws k => if m.sealOn k then m.wr (f.at a) x else m
  | .w1c => m.wr (f.at a) (m.rd (f.at a) - (m.rd (f.at a) &&& x))
  | .w1s => m.wr (f.at a) (m.rd (f.at a) ||| x)
  | .ro | .wo | .rc => m

/-- Whether a register has an RWS field whose Seal Bank switch is off. DEDUCED, assumption 34. -/
def Module.rwsDenied (m : Module) (d : RDesc) : Bool :=
  d.fields.any fun f => match f.acc with
    | .rws k => !m.sealOn k
    | _ => false

/-- Whether a register has a field that a write sets. -/
def RDesc.writable (d : RDesc) : Bool :=
  d.fields.any fun f => match f.acc with
    | .rw | .rws _ => true
    | _ => false

/-- A write of a register word that has no behaviour of its own, by function fn: the low word of a pair waits for the high
one, which commits both (R19); a denied RWS field is logged (R15). DEDUCED, assumptions 31, 32 and 34. -/
def Module.store (m : Module) (fn a v : Nat) : Module :=
  match findReg a with
  | none => m
  | some d =>
    let m := if m.rwsDenied d then m.sealDenied (a % vfBase) fn else m
    let word (m : Module) (a v : Nat) (d : RDesc) : Module := d.fields.foldl (fun m f => m.fieldWrite a v f) m
    let key := fn * 2 ^ 33 + a
    if !d.writable then word m a v d
    else if isLowWord a then
      if m.rwsDenied d then m else { m with wlatch := m.wlatch.set key (v % 2 ^ 32) }
    else if isLowWord (a - 4) then
      let m := match m.wlatch.get? (key - 4), findReg (a - 4) with
        | some lo, some dl => { word m (a - 4) lo dl with wlatch := m.wlatch.erase (key - 4) }
        | _, _ => m
      word m a v d
    else word m a v d

/-! ### Force entries (R310) -/

/-- A write of word 0 of force entry f as it takes effect: a change of EN is applied in an epoch of its own. -/
def Module.forceWrite (m : Module) (f v : Nat) : Module :=
  if !m.pressOn then m
  else
    let old := m.isOn (R.SCH_FORCE0_EN f)
    let new := bitOf v 0
    let m := (((m.wr (R.SCH_FORCE0_EN f) v).wr (R.SCH_FORCE0_KIND f) (bitsOf v 1 2)).wr (R.SCH_FORCE0_OWNER f)
      (bitsOf v 3 13))
    if old = new then m else m.openEpoch [] none [⟨f, new⟩] 2

def forceAddr (f : Nat) : Nat := (R.SCH_FORCE0_EN f).addr

/-- FORCE_ENABLE: a PF write of word 0 of entry f with EN 1 while EN is 0. DEDUCED, assumption 46. -/
def mForceEnable (f v : Nat) (m : Module) : Module :=
  if 256 ≤ f ∨ !bitOf v 0 ∨ m.isOn (R.SCH_FORCE0_EN f) then m
  else m.sealed 2 (forceAddr f) 0 fun m => m.forceWrite f v

/-- FORCE_DISABLE: a PF write of word 0 of entry f with EN 0 while EN is 1. DEDUCED, assumption 46. -/
def mForceDisable (f v : Nat) (m : Module) : Module :=
  if 256 ≤ f ∨ bitOf v 0 ∨ !m.isOn (R.SCH_FORCE0_EN f) then m
  else m.sealed 2 (forceAddr f) 0 fun m => m.forceWrite f v

/-! ### Registers whose write does more -/

/-- SRC_EN (R186): a source newly enabled starts its run anew. -/
def Module.srcEnWrite (m : Module) (v : Nat) : Module :=
  let old := m.rd R.TIM_LOCK_SRC_EN
  let m := m.store 0 R.TIM_LOCK_SRC_EN.addr v
  if !m.ready 0 then m
  else
    let new := m.rd R.TIM_LOCK_SRC_EN
    let runs := m.tim.runs.filter fun (s, _) => bitOf old (s - 1) || !bitOf new (s - 1)
    { m with tim := { m.tim with runs := runs } }.reselect

/-- A write of an online-change window outside a transaction: no effect, counted (R308). -/
def Module.olcDirect (m : Module) (a : Nat) : Module :=
  m.sealed 3 a 0 fun m => m.bump (R.SCH_CNT_CNT 11)

/-- A write of SWC_Q_CFG. DEDUCED, assumption 32. -/
def Module.qcfgStore (m : Module) (a v : Nat) : Module :=
  let p := (a - 0x401000) / 0x100
  let q := a % 0x100 / 0x20
  let m := (m.wr (R.SWC_Q_CFG_ALPHA p q) (bitsOf v 16 8)).wr (R.SWC_Q_CFG_WRR p q) (bitsOf v 24 8)
  mMinCellsWrite p q (bitsOf v 0 16) m

/-- A PF write of a register word, or a write of a configuration transaction, as it takes effect.
DEDUCED, assumption 35. -/
def Module.regWrite (m : Module) (a v : Nat) : Module :=
  if a = R.TIM_LOCK_SRC_EN.addr then m.srcEnWrite v
  else if 0x200100 ≤ a ∧ a < 0x200180 ∧ a % 0x20 = 0xc then mVcRateWrite ((a - 0x200100) / 0x20) v m
  else if 0x200100 ≤ a ∧ a < 0x200180 ∧ a % 0x20 = 8 then mVcOffWrite 0 ((a - 0x200100) / 0x20) v m
  else if 0x300000 ≤ a ∧ a < 0x3b0000 ∧ a % 0x10000 = 0 then mMacCtrlWrite ((a - 0x300000) / 0x10000) v m
  else if 0x401000 ≤ a ∧ a < 0x401c00 then
    if a % 0x20 = 0 then m.qcfgStore a v else (m.syncCredits ((a - 0x401000) / 0x100)).store 0 a v
  else if 0x500100 ≤ a ∧ a < 0x500180 ∧ a % 0x20 = 4 then mWindowWrite ((a - 0x500100) / 0x20) v m
  else if a = R.FLT_CMEM_DATA_VALUE.addr then mCmemWrite 0 v m
  else if 0x601000 ≤ a ∧ a < 0x602000 then mSetWrite 0 ((a - 0x601000) / 4) v m
  else if 0x6c0000 ≤ a ∧ a < 0x700000 then
    m.sealed 3 a 0 fun m => m.chainCmd ((a - 0x6c0000) / 4) (bitsOf v 0 2) (bitsOf v 2 2) (bitsOf v 4 10) (bitsOf v 14 9)
  else if 0x701000 ≤ a ∧ a < 0x703000 ∧ a % 0x20 = 0 then
    m.sealed 2 a 0 fun m => m.forceWrite ((a - 0x701000) / 0x20) v
  else if 0x7c0000 ≤ a ∧ a < 0x7e0000 then m.olcDirect a
  else if a = R.BEN_DBG_ARM_EN.addr ∨ a = R.BEN_DBG_PC_PC.addr ∨ a = R.ERR_INJECT_ARM.addr then
    if m.mode = .test then m.store 0 a v else m
  else if 0x1000084 ≤ a ∧ a < 0x100009c then mQcfgWrite 0 ((a - 0x1000084) / 4) v m
  else if 0x1010000 ≤ a ∧ a < 0x1030000 ∧ 4 ≤ a % 0x20 ∧ a % 0x20 < 0x10 then
    mShareWrite ((a - 0x1010000) / 0x20) (a % 0x20 / 4 - 1) v m
  else if 0xf01000 ≤ a ∧ a < 0xf01020 then mCrcOwnerWrite ((a - 0xf01000) / 4) v m
  else m.store 0 a v

/-! ### Check-value units -/

/-- The unit and the offset in it of an address of function fn, where it lies in the CRC block or the VF's view of it.
DEDUCED, assumption 36. -/
def crcReach (fn off : Nat) : Option (Nat × Nat) :=
  if fn = 0 ∧ 0xf00000 ≤ off ∧ off < 0xf01000 then some ((off - 0xf00000) / 0x200, off % 0x200 / 4 * 4)
  else if fn ≠ 0 ∧ 0x8000 ≤ off ∧ off < 0x9000 then some ((off - 0x8000) / 0x200, off % 0x200 / 4 * 4)
  else none

/-- Whether the PF reaches an offset of an engine unit: its configuration, status and counters (R465).
DEDUCED, assumption 36. -/
def engineUnitReach (o : Nat) : Bool := decide (o < 0x1c) || decide (0x44 ≤ o)

/-- A write of unit u (R464 to R466, R468). -/
def Module.crcWrite (m : Module) (fn u o v : Nat) : Module :=
  if m.crcOwns fn u then
    if o = 0x20 then mCrcValueHiWrite fn u v m
    else if o = 0x30 then mCrcTagHiWrite fn u v m
    else m.store fn (0xf00000 + 0x200 * u + o) v
  else if fn ≠ 0 then m.violation 2 fn none
  else if m.rd (R.CRC_OWNER_OWNER u) = 0 ∧ engineUnitReach o then m.store fn (0xf00000 + 0x200 * u + o) v
  else m

/-! ### Host writes -/

/-- What a direct write does to the transactions that have staged its register (R61). DEDUCED, assumption 45. -/
def Module.meetStaged (m : Module) (a : Nat) : Module :=
  let hit (n : Nat) (t : Txn) : Bool :=
    t.staged.any (·.1 == a) && (m.rd (R.PRS_TXN_STAT_STATE n) == 1 || m.rd (R.PRS_TXN_STAT_STATE n) == 2)
  { m with press := { m.press with txns := m.press.txns.map fun (n, t) => (n, if hit n t then { t with conflict := true } else t) } }

/-- An access to PRS_TXN_ADDR or PRS_TXN_AT of an OPEN slot (R62). -/
def Module.txnAccess (m : Module) (a : Nat) : Module :=
  if 0x900200 ≤ a ∧ a < 0x900300 ∧ (a % 0x20 = 8 ∨ a % 0x20 = 0x10) then
    let n := (a - 0x900200) / 0x20
    match m.press.txns.get? n with
    | some t => { m with press := { m.press with txns := m.press.txns.set n { t with lastAccess := m.mono } } }
    | none => m
  else m

/-- A VF's write of its window outside the CRC view. -/
def Module.vfWrite (m : Module) (fn off v : Nat) : Module :=
  let o := off / 4 * 4
  if o = 0x40 ∧ !m.owns fn (bitsOf v 0 12) then m.violation 8 fn none
  else if 0x44 ≤ o ∧ o < 0x5c then mQcfgWrite fn ((o - 0x44) / 4) v m
  else m.store fn (fnAddr fn off) v

/-- A 32-bit write of an offset of function fn's BAR0. -/
def Module.barWrite (m : Module) (fn off v : Nat) : Module :=
  if m.mode = .reset ∧ (fn ≠ 0 ∨ 0x100000 ≤ off) then m
  else match crcReach fn off with
    | some (u, o) => m.crcWrite fn u o v
    | none =>
      if fn ≠ 0 then m.vfWrite fn off v
      else
        let a := fnAddr 0 off
        ((m.meetStaged a).txnAccess a).regWrite a v

/-- REG_WRITE: a write of an offset of function fn's BAR0. A WO field is a command of its own. -/
def mRegWrite (fn off v : Nat) (m : Module) : Module := m.barWrite fn off v

/-- OLC_WINDOW_WRITE: a direct write of byte x of online-change window w. -/
def mOlcWindowWrite (w x _v : Nat) (m : Module) : Module :=
  if 8 ≤ w ∨ 0x4000 ≤ x then m else m.olcDirect (0x7c0000 + 0x4000 * w + x / 4 * 4)

/-! ### Host reads -/

/-- Whether an address holds words latched by a clock read (R171, R177); they stand until the next.
DEDUCED, assumption 33. -/
def clockLatch (a : Nat) : Bool :=
  (decide (0x200008 ≤ a) && decide (a ≤ 0x200014)) ||
    (decide (0x200100 ≤ a) && decide (a < 0x200180) && (a % 0x20 == 0x14 || a % 0x20 == 0x18))

/-- The word that function fn finds at an offset, without the effects of a read. -/
def Module.fnWord (m : Module) (fn off : Nat) : Nat :=
  if m.mode = .reset ∧ (fn ≠ 0 ∨ 0x100000 ≤ off) then 0
  else match crcReach fn off with
    | some (u, o) =>
      if m.crcOwns fn u ∨ (fn = 0 ∧ m.rd (R.CRC_OWNER_OWNER u) = 0 ∧ engineUnitReach o) then
        m.word (0xf00000 + 0x200 * u + o)
      else 0
    | none =>
      let a := fnAddr fn off
      if fn ≠ 0 ∧ 0x44 ≤ off ∧ off < 0x5c ∧ !m.owns fn (m.qselInst fn) then 0
      else if clockLatch a then m.latch.getD (fn * 2 ^ 33 + a) 0
      else m.word a

/-- The register address behind an offset of function fn. -/
def regBehind (fn off : Nat) : Nat :=
  match crcReach fn off with
  | some (u, o) => 0xf00000 + 0x200 * u + o
  | none => fnAddr fn off

/-- Clears the RC fields of a word that fn has read. -/
def Module.clearRc (m : Module) (a : Nat) : Module :=
  match findReg a with
  | none => m
  | some d => d.fields.foldl (fun m f => if f.acc = .rc then m.wr (f.at a) 0 else m) m

/-- What else a read of a register latches for the reading function: PRS_EPOCH_LO the commit instant, VAT_RATE_LAST(v) the
sequence number. DEDUCED, assumption 33. -/
def Module.latchWith (m : Module) (fn a : Nat) : Module :=
  if a = R.PRS_EPOCH_LO_EPOCH.addr then m.setLatch fn R.PRS_EPOCH_TS_COMMIT_TS.addr (m.word R.PRS_EPOCH_TS_COMMIT_TS.addr)
  else match (List.range 4).find? fun v => (R.VAT_RATE_LAST_INSTANT v).addr == a with
    | some v => (m.setLatch fn (R.VAT_RATE_SEQ_LO_SEQ v).addr (m.word (R.VAT_RATE_SEQ_LO_SEQ v).addr)).setLatch fn
        (R.VAT_RATE_SEQ_HI_SEQ v).addr (m.word (R.VAT_RATE_SEQ_HI_SEQ v).addr)
    | none => m

/-- A 32-bit read of an offset of function fn's BAR0: the value, the clearing of RC fields, the latch of a high word. -/
def Module.barRead (m : Module) (fn off : Nat) : Module :=
  let a := regBehind fn off
  if m.mode = .reset ∧ (fn ≠ 0 ∨ 0x100000 ≤ off) then { m with rdata := 0 }
  else if a = 0x200004 then mNowRead fn m
  else if 0x200100 ≤ a ∧ a < 0x200180 ∧ a % 0x20 = 0x10 then mVcNowRead fn ((a - 0x200100) / 0x20) m
  else if a = 0xb00044 then mCaveDataRead m
  else
    let key := fn * 2 ^ 33 + a
    match m.latch.get? key with
    | some v =>
      let m := { m with rdata := BitVec.ofNat 32 v }
      if clockLatch a then m else { m with latch := m.latch.erase key }
    | none =>
      let foreign := match crcReach fn off with
        | some (u, _) => decide (fn ≠ 0) && !m.crcOwns fn u
        | none => false
      if foreign then { m with rdata := 0 }.violation 2 fn none
      else
        let m := { m with rdata := BitVec.ofNat 32 (m.fnWord fn off) }
        let reach := match crcReach fn off with
          | some (u, o) => m.crcOwns fn u || (fn == 0 && m.rd (R.CRC_OWNER_OWNER u) == 0 && engineUnitReach o)
          | none => true
        let m := (if isLowWord a then m.setLatch fn (a + 4) (m.fnWord fn (off / 4 * 4 + 4)) else m).latchWith fn a
        if reach then m.clearRc a else m

/-- RC_READ: a read of a word with RC fields. -/
def mRcRead (fn off : Nat) (m : Module) : Module := m.barRead fn off

/-- LOW_WORD_READ: a read of the low word of a pair, or of any other register word. DEDUCED, assumption 33. -/
def mLowWordRead (fn off : Nat) (m : Module) : Module := m.barRead fn off

def execRegWrite (fn off v : Nat) (s : State) : Host.Outcome State Fault Refusal := s.upd (mRegWrite fn off v)
def execOlcWindowWrite (w x v : Nat) (s : State) : Host.Outcome State Fault Refusal := s.upd (mOlcWindowWrite w x v)
def execForceEnable (f v : Nat) (s : State) : Host.Outcome State Fault Refusal := s.upd (mForceEnable f v)
def execForceDisable (f v : Nat) (s : State) : Host.Outcome State Fault Refusal := s.upd (mForceDisable f v)
def execRcRead (fn off : Nat) (s : State) : Host.Outcome State Fault Refusal := s.upd (mRcRead fn off)
def execLowWordRead (fn off : Nat) (s : State) : Host.Outcome State Fault Refusal := s.upd (mLowWordRead fn off)

end Sys2Proof.Machine
end

