-- ==== Sys2Proof/Machine/Visible.lean ====
section
/-!
DEFINITION. The visibility point (R36, R37, R43 to R48): the writes of an epoch with forcing and online changes (R309 to R311), the
frames and marks it releases, the operands it delivers, the transactions and force changes it applies.
-/

namespace Sys2Proof.Machine

/-! ### Forcing (R310, R311) -/

/-- The target that a force entry names: KIND, task or instance (0 for a variable), TARGET; none for a target that does not
exist. -/
def Module.forceTarget (m : Module) (f : Nat) : Option (Nat × Nat × Nat) :=
  let k := m.rd (R.SCH_FORCE0_KIND f)
  let o := m.rd (R.SCH_FORCE0_OWNER f)
  let t := m.rd (R.SCH_FORCE1_TARGET f)
  if k = 0 then (if (m.cul.vars.get? t).isSome then some (0, 0, t) else none)
  else if t % 4 ≠ 0 then none
  else if k = 1 then (if t + 4 ≤ ((m.taskRec o).map (·.outLen)).getD 0 then some (1, o, t) else none)
  else if k = 2 then
    (if m.instAdmitted (o % 4096) ∧ 64 ≤ t ∧ t + 4 ≤ m.cul.instSizes.getD (o % 4096) 0 then some (2, o % 4096, t) else none)
  else none

/-- The entries that govern: of each target, the lowest index in force. DEDUCED, assumption 46. -/
def Module.governors (m : Module) : List (Nat × Nat × Nat × Nat) := m.press.forces.filter fun (f, _) => m.isOn (R.SCH_FORCE4_ACTIVE f)

/-- The value that an entry forces. -/
def Module.forcedValue (m : Module) (f : Nat) : Nat := m.rd64 (R.SCH_FORCE2_VALUE_LO f) (R.SCH_FORCE3_VALUE_HI f)

/-- DEDUCED, assumption 46. -/
def Module.setShadow (m : Module) (f v : Nat) : Module := m.wr64 (R.SCH_FORCE5_SHADOW_LO f) (R.SCH_FORCE6_SHADOW_HI f) v

/-- A string with the bytes of a 4-byte word put where they overlap it; the string lies at `off`, the word at `t`. -/
def overlay (off : Nat) (d : Bytes) (t w : Nat) : Bytes :=
  d.zipIdx.map fun (b, j) => if t ≤ off + j ∧ off + j < t + 4 then BitVec.ofNat 8 (w / 256 ^ (off + j - t)) else b

/-- What a write of bytes to an image puts there under the forces in force; the written bytes go into SHADOW. `kind` is 1 for the
output image of a task, 2 for the data of an instance. -/
def Module.forcedBytes (m : Module) (kind owner off : Nat) (d : Bytes) : Module × Bytes :=
  (m.governors.filter fun (_, k, o, t) => k == kind && o == owner && decide (t < off + d.length) && decide (off < t + 4)).foldl
    (fun (acc : Module × Bytes) (f, _, _, t) =>
      let (m, b) := acc
      let sh := overlay t (leBytes 4 (m.rd (R.SCH_FORCE5_SHADOW_LO f))) t 0
      let old := leBytes 4 (m.rd (R.SCH_FORCE5_SHADOW_LO f))
      let new := sh.zipIdx.map fun (_, i) =>
        if off ≤ t + i ∧ t + i < off + d.length then d.getD (t + i - off) 0 else old.getD i 0
      (m.setShadow f (ofLe new), overlay off b t (m.forcedValue f))) (m, d)

/-- Puts bytes into a task's output image. -/
def Module.putOut (m : Module) (t off : Nat) (d : Bytes) : Module :=
  let (m, b) := m.forcedBytes 1 t off d
  { m with outImg := m.outImg.set t (memPut (m.outImg.getD t []) off b) }

/-- Puts bytes into an instance's data. -/
def Module.putInst (m : Module) (i off : Nat) (d : Bytes) : Module :=
  let (m, b) := m.forcedBytes 2 i off d
  { m with idata := m.idata.set i (memPut (m.idata.getD i []) off b) }

/-- The quality of a forced variable: the written one, source substituted, operator blocked. -/
def forcedQuality (q : Nat) : Nat := q ||| 0x1400

/-- Publishes a variable: a value of its width, zero-extended or cut. -/
def Module.putVar (m : Module) (v q x : Nat) : Module :=
  let w := ((m.cul.vars.get? v).map (·.width)).getD 4
  let x := x % 2 ^ (8 * w)
  match m.governors.find? fun (_, k, _, t) => k == 0 && t == v with
  | some (f, _) =>
    let m := m.setShadow f x
    let m : Module := { m with press := { m.press with forceQ := m.press.forceQ.set f q } }
    { m with vars := m.vars.set v (forcedQuality q, m.forcedValue f % 2 ^ (8 * w)) }
  | none => { m with vars := m.vars.set v (q, x) }

/-- The value and quality that stand at a target. -/
def Module.standing (m : Module) (k o t : Nat) : Nat × Nat :=
  if k = 0 then let (q, v) := m.vars.getD t (0, 0); (v, q)
  else if k = 1 then (ofLe (memBytes (m.outImg.getD o []) t 4), 0)
  else (ofLe (memBytes (m.idata.getD o []) t 4), 0)

/-- Writes a value at a target as an apply does. -/
def Module.putTarget (m : Module) (k o t v q : Nat) : Module :=
  if k = 0 then m.putVar t q v else if k = 1 then m.putOut o t (leBytes 4 v) else m.putInst o t (leBytes 4 v)

/-- Shows which entries of a target govern. -/
def Module.showForces (m : Module) (key : Nat × Nat × Nat) : Module :=
  let l := (m.press.forces.filter fun (_, k) => k == key).map (·.1)
  (l.zipIdx).foldl (fun m (f, n) => (m.wr (R.SCH_FORCE4_ACTIVE f) (b2n (n == 0))).wr (R.SCH_FORCE4_DUPLICATE f) (b2n (n != 0))) m

/-- EN has risen: the standing value goes into SHADOW and the forced value is applied, unless a lower entry governs. -/
def Module.forceRise (m : Module) (f : Nat) : Module :=
  match m.forceTarget f with
  | none => m
  | some (k, o, t) =>
    let m : Module := { m with press := { m.press with forces := m.press.forces.set f (k, o, t) } }
    let (v, q) := m.standing k o t
    let m := m.showForces (k, o, t)
    if m.isOn (R.SCH_FORCE4_ACTIVE f) then (m.setShadow f v).putTarget k o t v q else m

/-- EN has fallen: SHADOW is applied. -/
def Module.forceFall (m : Module) (f : Nat) : Module :=
  match m.press.forces.get? f with
  | none => m
  | some (k, o, t) =>
    let governed := m.isOn (R.SCH_FORCE4_ACTIVE f)
    let q := m.press.forceQ.getD f (m.standing k o t).2
    let m : Module := { m with press := { m.press with forces := m.press.forces.erase f, forceQ := m.press.forceQ.erase f } }
    let m := ((m.wr (R.SCH_FORCE4_ACTIVE f) 0).wr (R.SCH_FORCE4_DUPLICATE f) 0).showForces (k, o, t)
    if governed then m.putTarget k o t (m.rd64 (R.SCH_FORCE5_SHADOW_LO f) (R.SCH_FORCE6_SHADOW_HI f)) q else m

/-! ### Records (R41, R44) -/

/-- What an epoch has written: kind (1 image, 2 instance data, 3 variable), owner, first byte and end. -/
abbrev Written := List (Nat × Nat × Nat × Nat)

/-- Counts an overwrite within the epoch (R44). DEDUCED, assumption 40. -/
def Module.overlapCheck (m : Module) (seen : Written) (r : CRec) (k o lo hi : Nat) : Module × Written :=
  let hit := seen.any fun (k', o', lo', hi') => k' == k && o' == o && decide (lo' < hi) && decide (lo < hi')
  let m := if hit then
      let m := m.bump R.PRS_OVERLAP_CNT_CNT
      if m.isOn R.PRS_CTRL_OVERLAP_EVT then m.raise 8 1 0 r.inst r.task 0 else m
    else m
  (m, seen ++ [(k, o, lo, hi)])

/-- The runs of consecutive bytes of an INST_WRITE that the Press does not skip (R309). DEDUCED, assumption 73. -/
def Module.unskipped (m : Module) (r : CRec) (off : Nat) (d : Bytes) : List (Nat × Bytes) :=
  let skip (a : Nat) : Bool := m.press.olc.any fun (i, b, ep) => i == r.inst && b == a && decide (r.epoch < ep)
  (d.zipIdx.foldl (fun (acc : List (Nat × Bytes)) (b, j) =>
    if skip (off + j) then acc
    else match acc.getLast? with
      | some (a, l) => if a + l.length = off + j then acc.dropLast ++ [(a, l ++ [b])] else acc ++ [(off + j, [b])]
      | none => [(off + j, [b])]) [])

/-- The data of an instance as its initial data records give it (R337). -/
def Module.initData (m : Module) (i : Nat) : SMap Byte :=
  (m.cul.inits.filter (·.inst == i)).foldl (fun x r => memPut x r.off (slice m.cul.tblob r.dataOff r.len)) []

/-- Rewrites an instance's data from its initial data records. -/
def Module.rewriteData (m : Module) (i : Nat) : Module :=
  let m : Module := { m with idata := m.idata.set i (m.initData i) }
  (m.governors.filter fun (_, k, o, _) => k == 2 && o == i).foldl (fun m (_, _, _, t) =>
    m.putInst i t (memBytes (m.initData i) t 4)) m

/-- Applies one entry's write. -/
def Module.applyEntry (m : Module) (seen : Written) (r : CRec) : Entry → Module × Written
  | .outWrite off d =>
    let (m, seen) := m.overlapCheck seen r 1 r.task off (off + d.length)
    (m.putOut r.task off d, seen)
  | .instWrite off d =>
    let (m, seen) := m.overlapCheck seen r 2 r.inst off (off + d.length)
    ((m.unskipped r off d).foldl (fun m (a, b) => m.putInst r.inst a b) m, seen)
  | .varPub v q x _ =>
    let (m, seen) := m.overlapCheck seen r 3 v 0 1
    (m.putVar v q.toNat x.toNat, seen)
  | .safeOut t d =>
    let (m, seen) := m.overlapCheck seen r 1 t 0 d.length
    (m.putOut t 0 d, seen)
  | .instInit i => (m.rewriteData i, seen)
  | .frame _ _ | .frameRaw _ _ | .eventMark _ _ | .recMark _ => (m, seen)

/-- Applies the writes of an epoch's records, in engine order and entry order. DEDUCED, assumption 41. -/
def Module.applyRecs (m : Module) (recs : List CRec) : Module :=
  (recs.foldl (fun (acc : Module × Written) r =>
    r.entries.foldl (fun (acc : Module × Written) e => acc.1.applyEntry acc.2 r e) acc) (m, [])).1

/-! ### Transactions (R59, R308) -/

/-- A write of an online-change window as its transaction applies it (R308, R309, R311). -/
def Module.olcApply (m : Module) (epoch w x v : Nat) : Module :=
  let i := m.rd (R.SCH_OLC_BASE_INSTANCE w)
  let off := 0x4000 * m.rd (R.SCH_OLC_BASE_BLOCK w) + x
  let hits := m.governors.filter fun (_, k, o, t) => k == 2 && o == i && decide (t < off + 4) && decide (off < t + 4)
  let m := hits.foldl (fun m (f, _) =>
    ((m.flag (R.SCH_FORCE4_COLLIDE_STK f)).bump (R.SCH_CNT_CNT 12)).raiseIf R.SCH_CTRL_LOG_EN 6 3 0 i 0xFFFF f) m
  let m : Module := { m with press := { m.press with
    olc := (m.press.olc.filter fun (j, b, _) => !(j == i && decide (off ≤ b) && decide (b < off + 4))) ++
      (List.range 4).map fun k => (i, off + k, epoch) } }
  m.putInst i off (leBytes 4 v)

/-- Applies a transaction's writes and ends its slot (R59, R61). -/
def Module.applyTxn (m : Module) (epoch n : Nat) (ws : List (Nat × Nat)) : Module :=
  let m := ws.foldl (fun m (a, v) =>
    match olcWindow a with
    | some (w, x) => m.olcApply epoch w x v
    | none => m.regWrite a v) m
  let conflict := ((m.press.txns.get? n).map (·.conflict)).getD false
  ((m.txnState n 3 0).wr (R.PRS_TXN_STAT_CONFLICT n) (b2n conflict)).wr64 (R.PRS_TXN_EPOCH_LO_EPOCH n)
    (R.PRS_TXN_EPOCH_HI_EPOCH n) epoch

/-! ### Frames and marks (R45, R312, R415, R416) -/

/-- FLAGS.SAFE of the send connections that a record concerns (R416). -/
def Module.markSafe (m : Module) (r : CRec) : Module :=
  let own (x : Conn) : Bool := m.taskInst x.task == r.inst
  let conns := m.lst.conns.map fun (c, x) =>
    (c, if !m.isSend c then x
      else if r.kind = .safe ∨ r.kind = .rewrite then (if own x then { x with safe := true } else x)
      else if (r.kind = .cycle ∨ r.kind = .forwarded) ∧ x.task = r.task then { x with safe := false } else x)
  { m with lst := { m.lst with conns := conns } }

/-- Passes on one entry; `built` are the connections whose frame the epoch has built. -/
def Module.release (m : Module) (built : List Nat) (r : CRec) : Entry → Module × List Nat
  | .frame 0 p =>
    (match m.cul.pubs.get? p with
     | some x => if m.lstPub p then m else m.newPubState p (memBytes (m.outImg.getD x.task []) x.dsOff x.dsLen) m.tns
     | none => m, built)
  | .frame _ c => if built.contains c then (m, built) else (m.buildLst c false, built ++ [c])
  | .frameRaw pc b => (if m.maySend false then m.sendRaw (pc.toNat % 16) (pc.toNat / 16 % 8) b else m, built)
  | .eventMark code d => (m.takeEvent 32 code r.inst r.task d.length (ofLe d), built)
  | .recMark t => (m.recMark (t.toNat % 2 ^ 16) (t.toNat / 2 ^ 16) m.tns, built)
  | .outWrite _ _ | .instWrite _ _ | .varPub _ _ _ _ | .safeOut _ _ | .instInit _ => (m, built)

def Module.releaseRecs (m : Module) (recs : List CRec) : Module :=
  (recs.foldl (fun (acc : Module × List Nat) r =>
    r.entries.foldl (fun (acc : Module × List Nat) e => acc.1.release acc.2 r e) acc) (m, [])).1

/-! ### What a visible record ends -/

/-- The elapsed time from which T_commit of a record counts: for a group, the last member's hand-off (R46). -/
def handedAt (recs : List CRec) (r : CRec) : Nat :=
  match r.group with
  | some g => recs.foldl (fun a x => if x.group = some g then max a x.handed else a) r.handed
  | none => r.handed

/-- A cycle's record is visible: its operand (Table 12.1), its trace record, CYCLES, the latency, the group's latest cycle. -/
def Module.cycleVisible (m : Module) (recs : List CRec) (r : CRec) : Module :=
  let m := m.modTask r.task fun x => { x with handed := if x.handed = some r.ct then none else x.handed }
  let m : Module := { m with instCycles := m.instCycles.set r.inst ((m.instCycles.getD r.inst 0 + 1) % 2 ^ 64) }
  let lat := (m.mono - handedAt recs r) / nsUnit
  let m := m.wr R.PRS_MAX_LAT_LAT_NS (min (2 ^ 32 - 1) (max (m.rd R.PRS_MAX_LAT_LAT_NS) lat))
  let m := match r.group with
    | some g => m.wr (R.PRS_GRP_LAST_CYCLE_TS g) r.ct
    | none => m
  (m.trace 3 0 r.task r.ct r.engine r.ctx 0).deliver 5 r.task r.ct

/-- What the record's kind ends as its epoch becomes visible. -/
def Module.recVisible (m : Module) (recs : List CRec) (r : CRec) : Module :=
  let m := m.bump R.PRS_APPLIED_CNT_CNT
  let m := match r.kind with
    | .cycle => m.cycleVisible recs r
    | .forwarded =>
      let m : Module := { m with instCycles := m.instCycles.set r.inst ((m.instCycles.getD r.inst 0 + 1) % 2 ^ 64) }
      ((m.redCnt 13).endForwarded r.task r.ct).deliver 5 r.task r.ct
    | .rewrite => m.wr (R.INS_INST_STAT_STATE r.inst) (if m.owner r.inst = 0x200 then 1 else 2)
    | .transfer =>
      (match m.red.xfers.get? r.inst with
       | some x => let m := m.applyParts x.parts; if x.waiting = [] then m.xferDone r.inst else m
       | none => m)
    | .safe => m
  m.redApplied r

/-- The epoch at the front becomes visible (R36, R43): its writes, then the frames and marks it releases, then its operands. -/
def Module.makeVisible (m : Module) (ep : Epoch) : Module :=
  let m : Module := { m with press := { m.press with applying := m.press.applying.drop 1 } }
  let m := m.applyRecs ep.recs
  let m := match ep.txn with
    | some (n, ws) => m.applyTxn ep.num n ws
    | none => m
  let m := ep.forces.foldl (fun m (x : ForceApply) => if x.rising then m.forceRise x.entry else m.forceFall x.entry) m
  let m : Module := { m with press := { m.press with visible := ep.num, visibleTs := m.ts32 } }
  let m := (ep.recs.foldl Module.markSafe m).releaseRecs ep.recs
  ep.recs.foldl (fun m r => m.recVisible ep.recs r) m

/-- VISIBILITY_POINT: the lowest epoch in apply becomes visible; `err` is what its records' reads found after the first write: an
uncorrectable error leaves it invisible and the module enters SAFE-HOLD (R48).
DESIGN CHOICE, assumption 9; DEDUCED, assumption 43. -/
def mVisibilityPoint (err : ReadErr) (m : Module) : Module :=
  match m.press.applying with
  | [] => m
  | ep :: rest =>
    if m.sys.held ∨ m.mode = .reset then m
    else
      let m := (m.reachMono ep.ends).readReport err 4 16 18 (((ep.recs.head?).map (·.inst)).getD 0xFFF) 0
      if err.isUe then
        ({ m with press := { m.press with applying := rest } }.bumpBy (R.PRS_DISC_CNT_CNT 4) ep.recs.length).safeHold 5
      else m.makeVisible ep

def execVisibilityPoint (err : ReadErr) (s : State) : Host.Outcome State Fault Refusal := s.upd (mVisibilityPoint err)

end Sys2Proof.Machine
end

