-- ==== Sys2Proof/Machine/Red.lean ====
section
/-!
DEFINITION. Pair redundancy (R390 to R411): heartbeats, roles, takeover and yield, health, digests, state transfer, the commands.
-/

namespace Sys2Proof.Machine

/-! ### Health (R404) -/

/-- The sum of penalties. -/
def Module.penalty (m : Module) : Nat :=
  let pen (k : Nat) : Nat := m.red.cfg.pens.getD k 0
  let count (n : Nat) (p : Nat → Bool) : Nat := ((List.range n).filter p).length
  pen 0 * count 32 (fun e => (m.engine e).state != .inService) +
  pen 1 * count 32 (fun e => bitOf (m.rd R.SCH_SLOW_SLOW) e) +
  pen 2 * b2n (m.isOn R.TIM_STATUS_HOLDOVER || m.isOn R.TIM_STATUS_FREERUN) +
  pen 3 * b2n m.sys.warn +
  pen 4 * count 10 (fun p => bitOf m.red.cfg.watch p && !m.isOn (R.MAC_STATUS_LINK p)) +
  pen 5 * min 8 (m.red.overruns.filter fun t => decide (m.mono < t + 1000000000 * nsUnit)).length +
  pen 6 * (m.vat.streams.filter fun (_, x) => x.state == .lost).length

/-- What RED shows of its own health. -/
def Module.health (m : Module) : Nat := m.rd R.RED_PENALTY_HEALTH

/-- Whether every instance is in sync. -/
def Module.inSync (m : Module) : Bool := m.unsynced.isEmpty

/-- Whether the module works as a standby, TEST included. -/
def Module.standingBy (m : Module) : Bool :=
  m.red.role == .standby && (m.mode == .standby || (m.mode == .test && m.testFrom == .standby))

def Module.workingActive (m : Module) : Bool :=
  m.red.role == .active && (m.mode == .active || (m.mode == .test && m.testFrom == .active))

/-- The conditions of causes 3 and 4 (Table 16.4). -/
def Module.healthCause (m : Module) (cause : Nat) : Bool :=
  match m.red.peer with
  | none => false
  | some p =>
    let theirs := bitsOf p.claim 16 8
    m.standingBy && m.inSync && bitOf p.claim 30 && !m.isOn R.RED_STATUS_PEER_LOST &&
      (if cause = 3 then decide (theirs + m.red.cfg.yieldMargin ≤ m.health)
       else m.preferred && m.isOn R.RED_CTRL_REVERT && decide (theirs ≤ m.health))

/-- A window runs on while its condition holds, and restarts after it failed. -/
def Module.judgeWindows (m : Module) : Module :=
  let next (old : Option Nat) (cause : Nat) : Option Nat := if m.healthCause cause then some (old.getD m.mono) else none
  { m with red := { m.red with healthFrom := next m.red.healthFrom 3, revertFrom := next m.red.revertFrom 4 } }

/-- HEALTH_UPDATE: a serving member computes its HEALTH. -/
def mHealthUpdate (m : Module) : Module :=
  if !m.red.serv then m
  else
    let p := m.penalty
    ((m.wr R.RED_PENALTY_P p).wr R.RED_PENALTY_HEALTH (if m.mode = .safeHold then 0 else max 1 (255 - p))).judgeWindows

/-! ### Roles (R399 to R402) -/

/-- Transfers end unfinished. -/
def Module.endXfers (m : Module) : Module :=
  let m := m.red.xfers.foldl (fun m (i, _) => m.wr (R.RED_INST_SYNC_STATE i) 1) m
  { m with red := { m.red with xfers := [], forward := [] } }

/-- The module takes a role in an epoch; a module in TEST first leaves it (R121). DEDUCED, assumption 93. -/
def Module.toRole (m : Module) (r : Role) (epoch : Nat) : Module :=
  let m := if m.mode = .test then m.leaveTest.toMode m.testFrom else m
  let m := m.endXfers
  let m : Module := { m with red := { m.red with
    role := r, serv := true, epoch := epoch % 2 ^ 16, switchReq := false, decideFrom := none, healthFrom := none, revertFrom := none } }
  (mHealthUpdate (m.toMode (if r = .standby then .standby else .active))).redEvent 1 0 0xFFFF m.claim

/-- What a module sends at entry to ACTIVE from STANDBY (R402). DEDUCED, assumption 94. -/
def Module.announce (m : Module) : Module :=
  let m := m.pubs.foldl (fun m (p, x) => if m.lstPub p then m else m.newPubState p x.data m.tns) m
  m.lst.conns.foldl (fun m (c, x) => if m.isSend c && x.built then m.buildLst c false else m) m

/-- A standby takes over (R400). DEDUCED, assumption 94. -/
def Module.takeOver (m : Module) (cause : Nat) : Module :=
  let e := ((m.red.peer.map (·.claim)).getD m.red.epoch) % 2 ^ 16 + 1
  let m := (m.toRole .active e).redCnt 5
  (m.redEvent 2 cause 0xFFFF m.claim).announce

/-- An active yields to a claim that wins over its own (R401). -/
def Module.yieldTo (m : Module) (claim : Nat) : Module :=
  let m := (m.toRole .standby claim).redCnt 6
  m.redEvent 3 0 0xFFFF m.claim

/-- RED sets its bit with the decision; a standby starts with every instance out of sync. -/
def Module.decide_ (m : Module) (r : Role) (epoch : Nat) : Module :=
  let m := m.wr R.SYS_READY_READY (m.rd R.SYS_READY_READY ||| 2 ^ 10)
  let m := m.toRole r epoch
  if r = .standby then m.instances.foldl Module.setUnsynced m else m

/-- The epoch that an active takes from the primary clock. -/
def Module.taiEpoch (m : Module) : Nat := m.tns / 1000000000 % 2 ^ 16

/-- Whether RED is deciding. -/
def Module.deciding (m : Module) : Bool := m.mode == .ripen && m.red.cfg.pairMode && m.red.decideFrom.isSome && m.red.role == .undecided

/-- ROLE_DECISION: on a heartbeat heard since the decision began (R399). DEDUCED, assumption 93. -/
def mRoleDecision (m : Module) : Module :=
  match m.red.peer, m.red.decideFrom with
  | some p, some from_ =>
    if !m.deciding ∨ p.at_ < from_ then m
    else if bitOf p.claim 31 then
      (if !bitOf p.claim 30 && m.preferred then m.decide_ .active (p.claim % 2 ^ 16 + 1) else m.decide_ .standby p.claim)
    else if m.preferred then m.decide_ .active m.taiEpoch
    else m.decide_ .standby p.claim
  | _, _ => m

/-- PEER_WAIT_END: the window [decision start, + PEER_WAIT_MS) ends without a heartbeat. -/
def mPeerWaitEnd (m : Module) : Module :=
  match m.red.decideFrom with
  | none => m
  | some from_ =>
    if !m.deciding ∨ m.red.peer.any fun p => decide (from_ ≤ p.at_) then m
    else
      let m := m.reachMono (from_ + m.red.cfg.peerWaitMs * 1000000 * nsUnit)
      (m.flag R.RED_STATUS_PEER_LOST).decide_ .active m.taiEpoch

/-- HEALTH_WINDOW_END: a window of cause 3 or 4 ends, its condition held throughout. -/
def mHealthWindowEnd (cause : Nat) (m : Module) : Module :=
  let (from_, ms) := if cause = 3 then (m.red.healthFrom, m.red.cfg.yieldMs) else (m.red.revertFrom, m.red.cfg.revertMs)
  match from_ with
  | none => m
  | some t =>
    let m := m.reachMono (t + ms * 1000000 * nsUnit)
    if (cause = 3 ∨ cause = 4) ∧ m.healthCause cause then m.takeOver cause else m.judgeWindows

/-! ### Heartbeats (R395 to R398) -/

/-- A heartbeat's payload (Table 16.3). -/
def Module.heartbeat (m : Module) (path : Nat) : Bytes :=
  let flags := m.position + 2 * b2n m.preferred + 4 * b2n m.inSync + 8 * b2n (m.pathOk 0) + 16 * b2n (m.pathOk 1) +
    32 * b2n m.red.switchReq
  [1, 1] ++ beBytes 2 m.red.cfg.pairId ++ beBytes 1 flags ++ beBytes 1 m.mode.code ++ [0, 0] ++ beBytes 4 m.claim ++
    beBytes 4 (m.red.sendSeq.getD path 0) ++ beBytes 4 m.ts32 ++ beBytes 8 m.red.bootId ++ List.replicate 20 0

/-- HEARTBEAT_SEND on PL (0) or the station path (1). DEDUCED, assumption 96. -/
def mHeartbeatSend (path : Nat) (m : Module) : Module :=
  let fifteen := m.rd R.SYS_READY_READY ||| 2 ^ 10 == 0xFFFF
  if !m.red.cfg.pairMode ∨ !fifteen ∨ m.mode = .reset ∨ m.mode = .flush ∨ 1 < path then m
  else if path = 0 ∧ !m.linkUp 10 then m
  else if path = 1 ∧ !m.red.cfg.stEn then m
  else
    let b := m.heartbeat path
    let m : Module := { m with red := { m.red with sendSeq := m.red.sendSeq.set path ((m.red.sendSeq.getD path 0 + 1) % 2 ^ 32) } }
    if path = 0 then (m.emit (.pair (.heartbeat b))).redCnt 0
    else
      let c := m.red.cfg
      (m.originate (padFrame (frameHead c.hbDst Config.stationMac c.hbClass c.hbVid 0x88B6 ++ b)) c.hbClass).redCnt 2

/-- Whether a heartbeat on a path is valid. -/
def Module.hbValid (m : Module) (path : Nat) (b : Bytes) : Bool :=
  decide (48 ≤ b.length) && beAt b 0 1 == 1 && beAt b 1 1 == 1 && beAt b 2 2 == m.red.cfg.pairId && beAt b 20 8 != m.red.bootId &&
    (match m.red.heard.get? path with
     | some (boot, seq) => boot != beAt b 20 8 || laterCount (beAt b 12 4) seq
     | none => true)

/-- A valid heartbeat is kept, its path is up, the peer is not lost. DEDUCED, assumption 93. -/
def Module.hbTake (m : Module) (path : Nat) (b : Bytes) (t : Nat) : Module :=
  let m := m.redCnt (if path = 0 then 1 else 3)
  let back := m.red.pathUp.get? path == some false
  let p : Peer := ⟨beAt b 4 1, beAt b 5 1, beAt b 8 4, beAt b 20 8, m.mono⟩
  let m : Module := { m with red := { m.red with
    heard := m.red.heard.set path (beAt b 20 8, beAt b 12 4), tLast := m.red.tLast.set path t
    peer := some p, pathUp := m.red.pathUp.set path true } }
  let m := m.wr R.RED_STATUS_PEER_LOST 0
  let m := if back then m.redEvent 8 (path + 1) 0xFFFF 0 else m
  if p.flags % 2 = m.position then ((m.flag R.RED_STATUS_POS_CONFLICT_STK).redCnt 14).redEvent 9 0 0xFFFF 0 else m

/-- What a valid heartbeat makes a member with a role do; `wasActive` says whether the peer held ACT at its heartbeat before.
DEDUCED, assumption 93. -/
def Module.hbReact (m : Module) (p : Peer) (wasActive : Bool) : Module :=
  if m.workingActive then (if claimWins p.claim m.claim then m.yieldTo p.claim else m)
  else if m.standingBy then
    let m : Module := if bitOf p.claim 30 then { m with red := { m.red with epoch := p.claim % 2 ^ 16 } } else m
    if p.mode = 6 ∨ (wasActive ∧ !bitOf p.claim 30) then m.takeOver 2
    else if bitOf p.claim 30 ∧ bitOf p.flags 5 ∧ m.inSync then m.takeOver 5
    else m.judgeWindows
  else m

/-- HEARTBEAT: a heartbeat's payload arrives on a path with an ingress time in ns (R397). -/
def mHeartbeat (path : Nat) (b : Bytes) (t : Nat) (m : Module) : Module :=
  let m := m.reach t
  let m := if path = 1 then m.takeEp fun c => (ethOf c.bytes).etype == 0x88B6 else m
  if !m.red.cfg.pairMode ∨ 1 < path ∨ (path = 1 ∧ !m.red.cfg.stEn) ∨ m.mode = .reset ∨ m.mode = .load ∨ m.mode = .flush then m
  else if !m.hbValid path b then m.redCnt 4
  else
    let was := m.red.peer.any fun p => bitOf p.claim 30
    let m := m.hbTake path b t
    match m.red.peer with
    | some p => m.hbReact p was
    | none => m

/-- The end of the window of R398, in ns. -/
def Module.silenceEnd (m : Module) : Option Nat :=
  match m.red.tLast.get? 0, m.red.tLast.get? 1 with
  | none, none => none
  | some a, none => some (a + 100000)
  | none, some b => some (b + 400000)
  | some a, some b => some (max a b + (if b ≤ a + 100000 then 100000 else 400000))

/-- PEER_LOST: no valid heartbeat came within T_SIL. -/
def mPeerLost (m : Module) : Module :=
  match m.silenceEnd with
  | none => m
  | some e =>
    if m.isOn R.RED_STATUS_PEER_LOST ∨ m.red.role = .undecided ∨ m.mode = .reset ∨ m.mode = .flush then m
    else
      let m := (m.reach e).flag R.RED_STATUS_PEER_LOST
      if m.standingBy then m.takeOver 1 else m.judgeWindows

/-- HEARTBEAT_PATH_LOST: a path's period ends without a valid heartbeat (event 7, Table 16.8). -/
def mHeartbeatPathLost (path : Nat) (m : Module) : Module :=
  match m.red.tLast.get? path, m.red.pathUp.get? path with
  | some t, some true =>
    let m := m.reach (t + (if path = 0 then 100000 else 400000))
    { m with red := { m.red with pathUp := m.red.pathUp.set path false } }.redEvent 7 (path + 1) 0xFFFF 0
  | _, _ => m

/-! ### Digests (R406, R407) -/

/-- DIGEST_SEND: a frame of up to 90 entries, full or 10 µs after its first entry. -/
def mDigestSend (m : Module) : Module :=
  match m.red.digFrom with
  | none => m
  | some t =>
    if !m.linkUp 10 ∨ m.mode = .flush then m
    else
      let m := if m.red.digQ.length < 90 then m.reachMono (t + 10000 * nsUnit) else m
      let now := m.red.digQ.take 90
      let rest := m.red.digQ.drop 90
      let m : Module := { m with red := { m.red with digQ := rest, digFrom := if rest = [] then none else some m.mono } }
      (m.emit (.pair (.digests now))).bumpBy (R.RED_CNT_CNT 7) now.length

/-- One entry of the peer's: matched against the own ones, or kept for one to come. -/
def Module.digTake (m : Module) (d : DigEntry) : Module :=
  match m.red.own.find? fun (x, _) => x.sameKey d with
  | some (x, _) => { m with red := { m.red with own := m.red.own.filter fun (y, _) => !y.sameKey d } }.digMet x d
  | none =>
    let l := m.red.theirs ++ [d]
    { m with red := { m.red with theirs := l.drop (l.length - 32768) } }

/-- DIGEST_MESSAGE: a TYPE 2 frame. DEDUCED, assumption 95. -/
def mDigestMessage (l : List DigEntry) (m : Module) : Module := if m.paired then (l.foldl Module.digTake m).judgeWindows else m

/-- DIGEST_UNMATCHED: the window of the own entry that ends first ends unmatched. -/
def mDigestUnmatched (m : Module) : Module :=
  let first := m.red.own.foldl (fun (best : Option (DigEntry × Nat)) x =>
    match best with
    | none => some x
    | some b => if x.2 < b.2 then some x else some b) none
  match first with
  | none => m
  | some (d, e) =>
    let m := m.reach e
    let m : Module := { m with red := { m.red with own := m.red.own.erase (d, e) } }
    ((m.redCnt 10).markUnsynced d.inst 2).judgeWindows

/-! ### Transfer (R408) -/

/-- XFER_START: the standby requests the next out-of-sync instance. -/
def mXferStart (m : Module) : Module :=
  if !m.standingBy ∨ !m.linkUp 10 ∨ m.red.cfg.xferMax ≤ m.red.xfers.length then m
  else match m.instances.find? fun i => m.instSync i == 1 with
    | none => m
    | some i =>
      let m : Module := { m with red := { m.red with xfers := m.red.xfers.set i ⟨m.mono, none, [], false, []⟩ } }
      (m.wr (R.RED_INST_SYNC_STATE i) 2).emit (.pair (.request i))

/-- DEDUCED, assumption 95. -/
def chunks (n : Nat) : Nat → Nat → Bytes → List (Nat × Bytes)
  | 0, _, _ => []
  | k + 1, off, b => if b = [] then [] else (off, b.take n) :: chunks n k (off + n) (b.drop n)

/-- The state of an instance as of the latest visible epoch, in pieces. DEDUCED, assumption 95. -/
def Module.stateParts (m : Module) (i : Nat) : List XPart :=
  let ts := m.cul.tasks.filter fun (_, r) => r.inst == i
  let mine (t : Nat) : Bool := ts.any (·.1 == t)
  let size := m.cul.instSizes.getD i 64
  ((chunks 1400 (size / 1400 + 1) 64 (memBytes (m.idata.getD i []) 64 (size - 64))).map fun (off, b) => XPart.idata off b) ++
  (ts.map fun (t, r) => XPart.out t ((m.task t).state == .stopped) (m.rd (R.SCH_TASK_STAT1_LAST_CT t))
    (memBytes (m.outImg.getD t []) 0 r.outLen)) ++
  ((m.cul.vars.filter fun (_, v) => v.inst == i).map fun (n, _) =>
    let (q, v) := m.vars.getD n (0, 0)
    XPart.var n q v) ++
  ((m.pubs.filter fun (p, _) => (m.cul.pubs.get? p).any fun r => mine r.task).map fun (p, x) =>
    XPart.pub p (m.rd (R.SCH_GPUB0_ST_NUM p)) (m.rd (R.SCH_GPUB1_SQ_NUM p)) x.data) ++
  ((m.lst.conns.filter fun (c, x) => m.isSend c && x.built && mine x.task).map fun (c, x) => XPart.conn c (x.seq.getD 0))

/-- REQUEST_MESSAGE: the active sets T_join and sends the instance's state; it forwards records from then on. -/
def mRequestMessage (i : Nat) (m : Module) : Module :=
  if !m.workingActive ∨ !m.instAdmitted i ∨ !m.linkUp 10 then m
  else
    let j := m.tns + m.red.cfg.joinLeadUs * 1000
    let m : Module := { m with red := { m.red with forward := m.red.forward.set i j } }
    let m := (m.stateParts i).foldl (fun m p => m.emit (.pair (.state i (j % 2 ^ 32) (some p)))) m
    m.emit (.pair (.state i (j % 2 ^ 32) none))

/-- The entries that put a transferred state in place. -/
def partEntry (m : Module) : XPart → List Entry
  | .idata off b => [.instWrite off b]
  | .out t _ _ b => [.safeOut t b]
  | .var v q x => [.varPub v (BitVec.ofNat 32 q) (BitVec.ofNat 64 x) (((m.cul.vars.get? v).map (·.width)).getD 4)]
  | .pub _ _ _ _ => []
  | .conn _ _ => []

/-- A task's next dispatch waits for the end of an instant on the active. DEDUCED, assumption 76. -/
def Module.waitFor (m : Module) (t ct : Nat) : Module :=
  m.modTask t fun x => { x with handed := match x.handed with
    | some h => some (if tsLater ct h then ct else h)
    | none => some ct }

/-- The standby ends its own cycles of an instance earlier than T_join: held, handed off, open. -/
def Module.joinInst (m : Module) (i j : Nat) : Module :=
  let old (ct : Nat) : Bool := decide (m.nsOfTs (ct % 2 ^ 32) < j)
  let held := m.ctxsOf fun x => x.inst == i && old x.ct
  let recs := m.press.pending.filter fun r => r.inst == i && old r.ct
  let m := held.foldl (fun m (e, c, _) => m.abortCtx e c) m
  let m : Module := { m with press := { m.press with pending := m.press.pending.filter fun r => !recs.contains r } }
  let m := m.doActs ((held.map fun (e, c, x) => Act.lost x.task x.ct 1 e c 0) ++ recs.map fun r => Act.discard r 0)
  let m := held.foldl (fun m (_, _, x) => m.waitFor x.task x.ct) m
  let m := recs.foldl (fun m r => m.waitFor r.task r.ct) m
  (m.cul.tasks.filter fun (_, r) => r.inst == i).foldl (fun m (t, _) => m.joinCancel t) m

/-- The state is complete: the standby applies it in an epoch of its own. -/
def Module.xferApply (m : Module) (i j : Nat) (x : Xfer) : Module :=
  let m := m.joinInst i j
  let ts := (m.cul.tasks.filter fun (t, r) => r.inst == i && (m.task t).state != .disabled &&
    !x.parts.any fun p => match p with | .out u stopped _ _ => u == t && stopped | _ => false).map (·.1)
  let es := x.parts.flatMap (partEntry m)
  let r : CRec := ⟨i, m.gen i, none, 0, 0, 32 + entriesSize es, es, 32, 0, m.press.admitted + 1, m.mono, .transfer⟩
  let m : Module := { m with red := { m.red with xfers := m.red.xfers.set i { x with applied := true, waiting := ts } } }
  (m.wr (R.RED_INST_SYNC_STATE i) 3).openEpoch [r] none [] (recCycles r)

/-- STATE_MESSAGE: a piece of an instance's state, or its end. -/
def mStateMessage (i tJoin : Nat) (part : Option XPart) (m : Module) : Module :=
  match m.red.xfers.get? i with
  | none => m
  | some x =>
    if !m.standingBy ∨ x.applied then m
    else
      let j := x.tJoin.getD (m.nsOfTs (tJoin % 2 ^ 32))
      let x := { x with tJoin := some j, parts := x.parts ++ part.toList }
      let m : Module := { m with red := { m.red with xfers := m.red.xfers.set i x } }
      if part.isSome then m else m.xferApply i j x

/-- RECORD_MESSAGE: a record that the active has applied. DEDUCED, assumption 95. -/
def mRecordMessage (i : Nat) (r : CRec) (m : Module) : Module :=
  if !m.standingBy ∨ m.instSync i ≠ 3 then m
  else
    let r := { r with inst := i, gen := m.gen i, group := none, engine := 32, handed := m.mono, kind := .forwarded }
    m.openEpoch [r] none [] (recCycles r)

/-- MARKER_MESSAGE: a cycle that ended on the active without an applied record. DEDUCED, assumption 76. -/
def mMarkerMessage (i ct task : Nat) (m : Module) : Module :=
  if !m.standingBy ∨ m.instSync i ≠ 3 ∨ m.taskInst task ≠ i then m else m.endForwarded task ct

/-- XFER_TIMEOUT: an instance's transfer has not finished in XFER_TMO_MS; it is out of sync again. -/
def mXferTimeout (i : Nat) (m : Module) : Module :=
  match m.red.xfers.get? i with
  | none => m
  | some x =>
    let m := m.reachMono (x.start + m.red.cfg.xferTmoMs * 1000000 * nsUnit)
    ((m.setUnsynced i).redCnt 12).redEvent 6 0 i i

/-! ### Commands (R410) -/

def Module.redResult (m : Module) (r : Nat) : Module := (m.wr R.RED_CMD_STAT_RESULT r).flag R.RED_CMD_STAT_DONE_FLG

/-- RED_SWITCH. -/
def mRedSwitch (m : Module) : Module :=
  if m.mode = .reset then m
  else if m.red.cfg.pairMode && m.workingActive && m.red.peer.any fun p => bitOf p.flags 2 then
    { m with red := { m.red with switchReq := true } }.redResult 1
  else m.redResult 3

/-- RESYNC. -/
def mResync (m : Module) : Module :=
  if m.mode = .reset then m
  else if !m.red.cfg.pairMode then m.redResult 3
  else ((m.instances.foldl Module.setUnsynced m).judgeWindows).redResult 1

def execHealthUpdate (s : State) : Host.Outcome State Fault Refusal := s.upd mHealthUpdate
def execRoleDecision (s : State) : Host.Outcome State Fault Refusal := s.upd mRoleDecision
def execPeerWaitEnd (s : State) : Host.Outcome State Fault Refusal := s.upd mPeerWaitEnd
def execHealthWindowEnd (cause : Nat) (s : State) : Host.Outcome State Fault Refusal := s.upd (mHealthWindowEnd cause)
def execHeartbeatSend (path : Nat) (s : State) : Host.Outcome State Fault Refusal := s.upd (mHeartbeatSend path)
def execHeartbeat (path : Nat) (b : Bytes) (t : Nat) (s : State) : Host.Outcome State Fault Refusal := s.upd (mHeartbeat path b t)
def execPeerLost (s : State) : Host.Outcome State Fault Refusal := s.upd mPeerLost
def execHeartbeatPathLost (path : Nat) (s : State) : Host.Outcome State Fault Refusal := s.upd (mHeartbeatPathLost path)
def execDigestSend (s : State) : Host.Outcome State Fault Refusal := s.upd mDigestSend
def execDigestMessage (l : List DigEntry) (s : State) : Host.Outcome State Fault Refusal := s.upd (mDigestMessage l)
def execDigestUnmatched (s : State) : Host.Outcome State Fault Refusal := s.upd mDigestUnmatched
def execXferStart (s : State) : Host.Outcome State Fault Refusal := s.upd mXferStart
def execRequestMessage (i : Nat) (s : State) : Host.Outcome State Fault Refusal := s.upd (mRequestMessage i)
def execStateMessage (i tJoin : Nat) (part : Option XPart) (s : State) : Host.Outcome State Fault Refusal :=
  s.upd (mStateMessage i tJoin part)
def execRecordMessage (i : Nat) (r : CRec) (s : State) : Host.Outcome State Fault Refusal := s.upd (mRecordMessage i r)
def execMarkerMessage (i ct task : Nat) (s : State) : Host.Outcome State Fault Refusal := s.upd (mMarkerMessage i ct task)
def execXferTimeout (i : Nat) (s : State) : Host.Outcome State Fault Refusal := s.upd (mXferTimeout i)
def execRedSwitch (s : State) : Host.Outcome State Fault Refusal := s.upd mRedSwitch
def execResync (s : State) : Host.Outcome State Fault Refusal := s.upd mResync

end Sys2Proof.Machine
end

