-- ==== Sys2Proof/Machine/Boot.lean ====
section
/-!
DEFINITION. The end of LOAD, the readiness of the functions, the end of RIPEN (R111 to R117), test mode (R120, R121), staging of an
image (R122 to R124).
-/

namespace Sys2Proof.Machine

/-! ### The end of LOAD -/

/-- The tasks that the loader has admitted stand as their EN flags say. DEDUCED, assumption 102. -/
def Module.initTasks (m : Module) : Module :=
  let tasks : SMap TaskSt := m.cul.tasks.map fun (t, r) => (t, TaskSt.init r.en)
  { m with ladle := { m.ladle with tasks := tasks } }

/-- LOAD_COMPLETE: RIPEN with a usable copy; SAFE-HOLD with cause 1 on the minimal culture, with cause 2 where the configuration
is unusable (R101, R104, R118). DEDUCED, assumption 111. -/
def mLoadComplete (m : Module) : Module :=
  if m.mode ≠ .load then m
  else
    let l := (Ld.start m).load
    let m := l.m.initTasks.loadEnd l.rep.reverse l.lost
    if m.rd R.CFG_STATUS_LOADED_COPY = 2 then m.safeHold 1
    else if m.isOn R.CFG_STATUS_UNUSABLE then m.safeHold 2
    else
      let m := m.toMode .ripen
      { m with sys := { m.sys with upAt := m.mono, waitEnded := false } }

/-! ### Readiness (R113, Table 4.11) -/

/-- The functions that must be ready before a function, as a mask of SYS_READY; a number outside it never is. -/
def readyAfter (bit : Nat) : Nat :=
  if bit = 15 then 0
  else if bit = 9 ∨ bit = 12 ∨ bit = 13 ∨ bit = 14 ∨ bit = 0 ∨ bit = 7 then 0x8000
  else if bit = 1 then 0x0001
  else if bit = 2 then 0x0002
  else if bit = 6 then 0x0080
  else if bit = 5 then 0x00C0
  else if bit = 11 then 0x0084
  else if bit = 3 then 0x0004
  else if bit = 4 then 0x0008
  else if bit = 8 then 0x0088
  else 0xFBFF

/-- Whether a mask of functions is ready. -/
def Module.allReady (m : Module) (mask : Nat) : Bool := m.rd R.SYS_READY_READY &&& mask == mask

/-- Whether the module is in a SAFE-HOLD that it entered from LOAD (R117). -/
def Module.heldFromLoad (m : Module) : Bool :=
  m.mode == .safeHold && [1, 2, 6].contains (m.rd R.CFG_MODE_STAT_SAFEHOLD_CAUSE)

/-- Whether functions may become ready now: before the end of RIPEN's window (R116), or in SAFE-HOLD from LOAD. -/
def Module.comingUp (m : Module) : Bool :=
  (m.mode == .ripen && decide (m.mono < m.sys.upAt + m.sys.ripenTmoMs * 1000000 * nsUnit)) || m.heldFromLoad

/-- What Table 4.11 asks beside other functions: the engines' self-tests, the time or the end of its wait. -/
def Module.ownReady (m : Module) (bit : Nat) : Bool :=
  if bit = 6 then (List.range 32).all fun e => (m.engine e).state != .selfTest
  else if bit = 3 then m.isOn R.TIM_STATUS_LOCKED || m.sys.waitEnded
  else true

/-- MEM: DRAM in use, patrol scrub starts. -/
def Module.memReady (m : Module) : Module :=
  let starts : SMap Nat := (List.range 6).map fun k => (k, m.mono)
  { m with err := { m.err with passStart := starts, scrub := [] } }.flag R.MEM_STATUS_DRAM_READY
    |>.flag R.MEM_STATUS_SCRUB_ON |>.wr R.MEM_STATUS_USABLE_MIB 30720

/-- KEY: the header of the loaded copy as the image seal covers it. -/
def Module.keyUp (m : Module) : Module :=
  let c := m.rd R.CFG_STATUS_LOADED_COPY
  let b := m.flash c
  m.keyReady (if c < 2 then some (b.take (headerLen b + 72)) else none)

/-- TIM: the primary clock runs with FREQ_INIT_PPB, its integral preset (R170, R187). -/
def Module.timUp (m : Module) : Module :=
  let f := m.tim.cfg.freqInit * 65536
  ({ m with tim := { m.tim with integ := -f } }.setY f).flag R.TIM_STATUS_FREERUN

/-- PRS: committed data as they start: every output image safe, variables at their safe values, instance data as initialised;
the instances of a rejected group's members enter SAFE-HOLD (R49); in SAFE-HOLD the safe values are repeated.
DEDUCED, assumption 102. -/
def Module.pressUp (m : Module) : Module :=
  let imgs : SMap (SMap Byte) := m.cul.tasks.map fun (t, r) => (t, memPut [] 0 (m.safeImage r))
  let vars : SMap (Nat × Nat) := m.cul.vars.map fun (v, r) => (v, (r.safeQ, r.safeValue))
  let data : SMap (SMap Byte) := m.cul.instSizes.map fun (i, _) => (i, m.initData i)
  let m : Module := { m with outImg := imgs, vars := vars, idata := data }
  let bad := m.cul.tasks.filter fun (_, r) => r.groupEn && !m.isOn (R.PRS_GRP_CFG_EN r.group)
  let m := m.doActs (bad.map fun (_, r) => Act.stop r.inst)
  if m.mode = .safeHold then m.safeAll else m

/-- LST: connections start; in SAFE-HOLD each send connection repeats its safe values. -/
def Module.lstUp (m : Module) : Module :=
  let m := m.lstReady
  if m.mode ≠ .safeHold then m
  else
    (m.lst.conns.filter fun (c, _) => m.isSend c).foldl (fun (m : Module) (c, x) =>
      (m.setConn c { x with safe := true }).buildLst c false) m

/-- What a function does as it becomes usable. -/
def Module.comeUp (m : Module) (bit : Nat) : Module :=
  if bit = 15 then m.memReady
  else if bit = 9 then m.evrReady
  else if bit = 12 then m.keyUp
  else if bit = 0 then m.timUp
  else if bit = 7 then m.pressUp
  else if bit = 5 then m.tickFrom m.tns
  else if bit = 11 then m.lstUp
  else if bit = 3 then (if m.mode = .ripen then m.vatStart else m)
  else if bit = 8 then (if m.mode = .ripen then m.acqReady else m)
  else m

/-- Sets a bit of SYS_READY. -/
def Module.setReady (m : Module) (bit : Nat) : Module := m.wr R.SYS_READY_READY (m.rd R.SYS_READY_READY ||| 2 ^ bit)

/-- RED with fifteen bits set: the role of a standalone module (R115), or the start of the decision of a pair (R398).
DEDUCED, assumption 93. -/
def Module.redUp (m : Module) : Module :=
  if m.mode = .ripen then m.decide_ .standalone 0 else m.setReady 10

/-- READINESS_SET: a function sets its bit and becomes usable. RED of a pair sets its own with its decision.
DEDUCED, assumption 102. -/
def mReadinessSet (bit : Nat) (m : Module) : Module :=
  if 15 < bit ∨ m.ready bit ∨ !m.comingUp ∨ !m.allReady (readyAfter bit) ∨ !m.ownReady bit then m
  else if bit = 10 then (if m.mode = .ripen ∧ m.red.cfg.pairMode then m else m.redUp)
  else
    let m := (m.setReady bit).comeUp bit
    if m.mode = .ripen ∧ m.red.cfg.pairMode ∧ m.allReady 0xFBFF ∧ m.red.decideFrom = none then
      { m with red := { m.red with decideFrom := some m.mono } }
    else m

/-- TIME_WAIT_END: the window of R114 closes. -/
def mTimeWaitEnd (m : Module) : Module :=
  if (m.mode ≠ .ripen ∧ !m.heldFromLoad) ∨ m.sys.waitEnded then m
  else
    let m := m.reachMono (m.sys.upAt + m.sys.timeWaitMs * 1000000 * nsUnit)
    { m with sys := { m.sys with waitEnded := true } }

/-- RIPEN_TIMEOUT (R116). -/
def mRipenTimeout (m : Module) : Module :=
  if m.mode ≠ .ripen ∨ m.allReady 0xFFFF then m
  else
    let m := m.reachMono (m.sys.upAt + m.sys.ripenTmoMs * 1000000 * nsUnit)
    ((m.wr R.CFG_RIPEN_MISSING_MISSING (0xFFFF - m.rd R.SYS_READY_READY)).flag R.CFG_RIPEN_STAT_TIMEOUT_STK).safeHold 3

/-! ### Test mode (R120, R121) -/

/-- ENTER_TEST from the PF. -/
def mEnterTest (m : Module) : Module :=
  if m.mode = .reset then m
  else if m.mode ≠ .active ∧ m.mode ≠ .standby then m.wr R.CFG_MODE_STAT_RESULT 3
  else if !m.sealOn 1 then (m.wr R.CFG_MODE_STAT_RESULT 2).sealDenied R.CFG_MODE_CMD_CMD.addr 0
  else ({ m with testFrom := m.mode }.wr R.CFG_MODE_STAT_RESULT 1).toMode .test

/-- LEAVE_TEST from the PF. -/
def mLeaveTest (m : Module) : Module :=
  if m.mode = .reset then m
  else if m.mode ≠ .test then m.wr R.CFG_MODE_STAT_RESULT 3
  else (m.leaveTest.wr R.CFG_MODE_STAT_RESULT 1).toMode m.testFrom

/-! ### Staging (R122 to R124) -/

/-- Whether the PF may stage. -/
def Module.mayStage (m : Module) : Bool :=
  m.ready 14 && m.mode != .reset && m.mode != .load && m.mode != .flush

/-- STAGE_GO: a write of CFG_STAGE_CMD with GO. -/
def mStageGo (target inst : Nat) (m : Module) : Module :=
  m.sealed 0 R.CFG_STAGE_CMD_GO.addr 0 fun m =>
    if !m.mayStage ∨ m.sys.staging.isSome then m
    else
      let m := ((m.flag R.CFG_STAGE_CMD_GO).wr R.CFG_STAGE_CMD_TARGET target).wr R.CFG_STAGE_CMD_INST inst
      let m := ((m.wr R.CFG_STAGE_STAT_STATE 1).wr R.CFG_STAGE_STAT_CAUSE 0).wr R.CFG_STAGE_STAT_CHECK 0
      let m := m.wr R.CFG_STAGE_STAT_PROGRESS 0
      let i := inst % 4096
      if !m.instAdmitted i ∨ m.owner i ≠ 0x100 then m.stageFail 4 0
      else { m with sys := { m.sys with staging := some ⟨target % 2, i, m.gen i⟩ } }

def Module.setFlash (m : Module) (copy : Nat) (b : Bytes) : Module :=
  if copy = 0 then { m with persist := { m.persist with flashA := b } } else { m with persist := { m.persist with flashB := b } }

/-- Step 2's and step 5's check of a copy: the failed check of Table 4.3, or none and whether its sections are good.
DEDUCED, assumption 103. -/
def Module.copyCheck (m : Module) (b : Bytes) : Option Nat :=
  let k := m.headerCheck b
  if k ≠ 0 then some k else if sectionsGood b then none else some 0

/-- STAGE_DONE: what the Steward read of host memory (none where the access failed), whether flash took the erase and the
program, and what the target copy holds where it did not. DESIGN CHOICE, assumption 8; DEDUCED, assumption 103. -/
def mStageDone (image : Option Bytes) (ok : Bool) (left : Bytes) (m : Module) : Module :=
  match m.sys.staging with
  | none => m
  | some g =>
    let addr := m.rd64 R.CFG_STAGE_ADDR_LO_ADDR R.CFG_STAGE_ADDR_HI_ADDR
    let len := m.rd R.CFG_STAGE_LEN_LEN
    if !m.reachable g.inst addr len false then (m.xltFault g.inst).stageFail 4 0
    else match image with
    | none => m.stageFail 4 0
    | some b =>
      let check := m.headerCheck b
      if check ≠ 0 then m.stageFail 1 check
      else if len ≠ leAt b 8 4 then m.stageFail 3 0
      else match m.copyCheck (m.flash (1 - g.target)) with
      | some k => m.stageFail 2 k
      | none =>
        if !ok then (m.setFlash g.target left).stageFail 5 0
        else
          let m := m.setFlash g.target (b.take len)
          match m.copyCheck (m.flash g.target) with
          | some k => (m.showCopy g.target k 0).stageFail 6 k
          | none =>
            let m := { m with sys := { m.sys with staging := none } }.wr R.CFG_STAGE_CMD_GO 0
            let m := m.showCopy g.target 0 (leAt b 16 8)
            ((m.wr R.CFG_STAGE_STAT_STATE 5).wr R.CFG_STAGE_STAT_PROGRESS 100).flag R.CFG_STAGE_STAT_DONE_FLG

def execLoadComplete (s : State) : Host.Outcome State Fault Refusal := s.upd mLoadComplete
def execReadinessSet (bit : Nat) (s : State) : Host.Outcome State Fault Refusal := s.upd (mReadinessSet bit)
def execTimeWaitEnd (s : State) : Host.Outcome State Fault Refusal := s.upd mTimeWaitEnd
def execRipenTimeout (s : State) : Host.Outcome State Fault Refusal := s.upd mRipenTimeout
def execEnterTest (s : State) : Host.Outcome State Fault Refusal := s.upd mEnterTest
def execLeaveTest (s : State) : Host.Outcome State Fault Refusal := s.upd mLeaveTest
def execStageGo (target inst : Nat) (s : State) : Host.Outcome State Fault Refusal := s.upd (mStageGo target inst)
def execStageDone (image : Option Bytes) (ok : Bool) (left : Bytes) (s : State) : Host.Outcome State Fault Refusal :=
  s.upd (mStageDone image ok left)

end Sys2Proof.Machine
end

