-- ==== Sys2Proof/Machine/Power.lean ====
section
/-!
DEFINITION. Power, clocks and reset (R76 to R90, R94): power-on, the exit from RESET, power-fail and FLUSH, the clock monitor,
thermal responses, module resets, the Steward's watchdog, the reread of the Seal Bank (R431).
-/

namespace Sys2Proof.Machine

/-! ### Resets (R85, R94) -/

/-- The cages' pins and the fitted modules' identities as they stand in `from_`, and the RATE_MISMATCH that follows. -/
def Module.keepCages (from_ m : Module) : Module :=
  let m : Module := { m with sw := { m.sw with declared := from_.sw.declared } }
  let pins (p : Nat) : List Fld :=
    [R.MAC_STATUS_MOD_PRESENT p, R.MAC_STATUS_TX_FAULT p, R.MAC_STATUS_RX_LOS p, R.MAC_STATUS_COPPER p]
  (((List.range 11).flatMap pins).foldl (fun m f => m.wr f (from_.rd f)) m).showMismatch

/-- What survives every reset: the Cave, the flash, the root secret and the owner slots; the cages' pins, which no reset moves;
also the model's own elapsed time, outputs and index of free values. DEDUCED, assumption 37. -/
def Module.keepOver (m : Module) : Module :=
  m.keepCages { Module.reset with
    mono := m.mono, out := m.out, freeIdx := m.freeIdx, persist := m.persist
    evr := { Evr.init with cave := m.evr.cave } }

/-- The cause bits of SYS_RESET_CAUSE. -/
def Module.resetCause (m : Module) : Nat := bitsOf (m.word 0xc) 0 6

/-- Sets SYS_RESET_CAUSE. -/
def Module.setResetCause (m : Module) (c : Nat) : Module :=
  [R.SYS_RESET_CAUSE_POWER_ON_STK, R.SYS_RESET_CAUSE_SW_STK, R.SYS_RESET_CAUSE_PLL_STK, R.SYS_RESET_CAUSE_THERMAL_STK,
    R.SYS_RESET_CAUSE_FLUSH_STK, R.SYS_RESET_CAUSE_STEWARD_STK].foldl (fun m f => m.wr f (bitsOf c f.lsb 1)) m

/-- A module reset by causes (bits of SYS_RESET_CAUSE): everything but the PCIe block. DEDUCED, assumption 37. -/
def Module.moduleReset (m : Module) (causes : Nat) : Module :=
  let k : Module := { m.keepOver with host := { HostSt.init with mps := m.host.mps }, sys := { SysSt.init with off := m.sys.off } }
  let k := [R.INS_STATUS_NUM_VFS, R.INS_STATUS_LINK_W, R.INS_STATUS_LINK_RATE, R.INS_DMA_CAP_MBPS,
    R.SYS_CLK_STAT_REFCLK_OK].foldl (fun k f => k.wr f (m.rd f)) k
  k.setResetCause (m.resetCause ||| causes)

/-- The regulators turn off; after a thermal trip a latch holds them off. DESIGN CHOICE, assumption 12. -/
def Module.powerOff (m : Module) (latch : Bool) : Module :=
  { m.keepOver with sys := { SysSt.init with off := true, latched := latch } }

/-- POWER_ON: both inputs are applied; `rested` says that both had been below 1.0 V for 1 s without interruption (R90).
DESIGN CHOICE, assumption 12. -/
def mPowerOn (rested : Bool) (m : Module) : Module := if m.sys.latched && !rested then m else m.keepOver

/-- MODULE_RESET: a module reset by the sources that act in one slow-clock cycle, whose causes it records (R89). -/
def mModuleReset (causes : Nat) (m : Module) : Module := if m.sys.off then m else m.moduleReset causes

/-- The inputs of R78 are within Table 3.3. -/
def inputsGood (slotMv auxMv : Nat) : Bool :=
  decide (11040 ≤ slotMv) && decide (slotMv ≤ 12960) && decide (11040 ≤ auxMv) && decide (auxMv ≤ 12960)

/-- The BOOT_ID of a run (R396): random, or with RNG_FAIL the low bits of the START record's SEQ.
DESIGN CHOICE, assumption 18. -/
def Module.newBootId (m : Module) : Module :=
  if m.rngFailed then { m with red := { m.red with bootId := (m.evr.nextSeq - 1) % 2 ^ 64 } }
  else
    let i := m.freeIdx
    { m with freeIdx := i + 2, red := { m.red with bootId := (Config.freeWord i).toNat + 2 ^ 32 * (Config.freeWord (i + 1)).toNat } }

/-- RESET_EXIT: the conditions of R78 hold at the bank and input voltages given; the Seal Bank is sampled (R76) and LOAD begins. -/
def mResetExit (sw bankMv slotMv auxMv : Nat) (m : Module) : Module :=
  if m.mode ≠ .reset ∨ m.sys.off ∨ m.sys.held ∨ bankMv < 34500 ∨ !inputsGood slotMv auxMv then m
  else
    let m := (m.wr R.SYS_SEAL_AT_RESET sw).wr R.SYS_SEAL_NOW sw
    let m := ((m.flag R.SYS_CLK_STAT_PLL_LOCK).flag R.SYS_CLK_STAT_OSC_OK).flag R.SYS_HOLDUP_OK
    let m := ((m.wr R.SYS_HOLDUP_BANK_MV bankMv).wr R.SYS_PWR_IN_SLOT_MV slotMv).wr R.SYS_PWR_IN_AUX_MV auxMv
    ((({ m with clk := 0 }).evrLoadEntry.toMode .load).newBootId).newNonce

/-- SYS_RESET: a PF write of SYS_RESET (R87). The second word in time starts the reset at the next slow-clock edge.
DEDUCED, assumption 100. -/
def mSysReset (v : Nat) (m : Module) : Module :=
  let second : Bool := match m.sys.resetWord with
    | some t => decide (m.mono ≤ t + 1000000 * nsUnit)
    | none => false
  if m.sys.off then m
  else if second ∧ v = 0x3C5A then (m.reachMono (ceilDiv m.mono (8 * nsUnit) * 8 * nsUnit)).moduleReset 2
  else if m.sys.resetWord = none ∧ v = 0xA5C3 then { m with sys := { m.sys with resetWord := some m.mono } }
  else { m with sys := { m.sys with resetWord := none } }.violation 3 0 none

/-! ### Power-fail and FLUSH (R79 to R82, R54, R384) -/

/-- Every epoch in apply is completed, in order. DEDUCED, assumption 100. -/
def Module.completeApply : Nat → Module → Module
  | 0, m => m
  | k + 1, m =>
    match m.press.applying with
    | [] => m
    | ep :: _ => completeApply k (m.makeVisible ep)

/-- Entry to FLUSH; `trip` where a thermal trip caused it. In RESET there is nothing to flush, and a trip turns the regulators
off with its mark in the Cave header; in FLUSH a second cause has no effect. DEDUCED, assumption 100. -/
def Module.enterFlush (m : Module) (trip : Bool) : Module :=
  if m.sys.off ∨ m.mode = .flush then m
  else if m.mode = .reset then
    (if trip then { m with evr := m.evr.markTrip }.powerOff true else m)
  else
    let m := (m.leaveTest.toMode .flush).completeApply m.press.applying.length
    let m : Module := { m with evr := { m.evr with flushing := true }, sys := { m.sys with trip := trip, flushed := false } }
    let m := (List.range 11).foldl Module.portDown m
    m.vatStop.acqHalt.stopTasks.dropRecords

/-- POWER_FAIL: an input below 10.2 V for 5 µs, or absent sense pins. DEDUCED, assumption 100. -/
def mPowerFail (m : Module) : Module := m.enterFlush false

/-- FLUSH_DONE: the recorder has flushed; `power` says whether both inputs are good. -/
def mFlushDone (power : Bool) (m : Module) : Module :=
  if m.mode ≠ .flush ∨ m.sys.off then m
  else
    let m := if m.sys.flushed then m else m.evrFlushAll m.sys.trip
    let m : Module := { m with sys := { m.sys with flushed := true } }
    if m.sys.trip then m.powerOff true else if power then m.moduleReset 16 else m

/-- HOLDUP_EXHAUSTED: in FLUSH without input power the bank reaches 9 V; what is not yet in the Cave is lost. -/
def mHoldupExhausted (m : Module) : Module := if m.mode = .flush then m.powerOff m.sys.trip else m

/-- HOLDUP_LOW: the monitor finds the bank below 34.5 V (R81). -/
def mHoldupLow (bankMv : Nat) (m : Module) : Module :=
  if m.mode = .reset ∨ m.mode = .flush ∨ 34500 ≤ bankMv then m
  else
    let was := m.isOn R.SYS_HOLDUP_OK
    let m := (m.wr R.SYS_HOLDUP_BANK_MV bankMv).wr R.SYS_HOLDUP_OK 0
    if was then (m.flag R.SYS_HOLDUP_LOW_STK).report ⟨25, 7, 63, 0, 0, 0xFFF, 0⟩ else m

/-- HOLDUP_RECHARGED: the monitor finds the bank back at 34.5 V or more. -/
def mHoldupRecharged (bankMv : Nat) (m : Module) : Module :=
  if m.mode = .reset ∨ bankMv < 34500 then m else (m.wr R.SYS_HOLDUP_BANK_MV bankMv).flag R.SYS_HOLDUP_OK

/-! ### The clock monitor (R84) -/

/-- CLOCK_CHECK: a check finds the oscillator running and the PLL locked, or not. In RESET the PLL has yet to lock (R78).
DEDUCED, assumption 100. -/
def mClockCheck (osc lock : Bool) (m : Module) : Module :=
  if m.mode = .reset ∨ m.sys.off then m
  else
    let m := (m.wr R.SYS_CLK_STAT_OSC_OK (b2n osc)).wr R.SYS_CLK_STAT_PLL_LOCK (b2n lock)
    if osc && lock then
      (if m.sys.held then
        ({ m with sys := { m.sys with held := false, failedChecks := 0 } }.flag R.SYS_CLK_STAT_GLITCH_STK).raise' 0 5 0 0
      else m)
    else if 0 < m.sys.failedChecks then m.moduleReset 4
    else { m with sys := { m.sys with held := true, failedChecks := 1 } }

/-! ### Thermal (R90) -/

/-- The sensors as read: the hottest die sensor and the inlet sensor, in °C. -/
def Module.sensed (m : Module) (die inlet : Int) : Module :=
  (m.wr R.SYS_TEMP_DIE_MAX (unsignedOf die 8)).wr R.SYS_TEMP_INLET (unsignedOf inlet 8)

/-- THERMAL_WARNING: the sensors as sampled, and the warning at 100 °C or more. DEDUCED, assumption 37. -/
def mThermalWarning (die inlet : Int) (m : Module) : Module :=
  if m.sys.off then m
  else
    let m := m.sensed die inlet
    if m.sys.warn ∨ die < 100 then m
    else
      let m := ({ m with sys := { m.sys with warn := true } }.flag R.SYS_TEMP_WARN_STK).raise' 0 4 0 (unsignedOf die 8)
      m.report ⟨26, 7, 63, 0, 0, 0xFFF, 0⟩

/-- THERMAL_WARNING_CLEARED: 5 °C below the warning threshold. -/
def mThermalWarningCleared (die inlet : Int) (m : Module) : Module :=
  if m.sys.off ∨ 95 < die then m else { m.sensed die inlet with sys := { m.sys with warn := false } }

/-- THERMAL_CRITICAL: 110 °C or more. -/
def mThermalCritical (die inlet : Int) (m : Module) : Module :=
  if m.sys.off ∨ die < 110 then m else ((m.sensed die inlet).flag R.SYS_TEMP_CRIT_STK).safeHold 4

/-- THERMAL_TRIP: 120 °C or more, a power-fail. DEDUCED, assumption 100. -/
def mThermalTrip (die inlet : Int) (m : Module) : Module :=
  if die < 120 then m else (m.sensed die inlet).enterFlush true

/-! ### The Steward's watchdog (R88) -/

/-- What the watchdog's expiry does. DEDUCED, assumption 65. -/
def Module.stewardReset (m : Module) : Module :=
  if m.mode = .reset ∨ m.mode = .flush then m
  else if m.mode = .load then m.moduleReset 32
  else (m.bump R.SYS_CLK_STAT_STEWARD_RST_CNT).loseSource 1

/-- STEWARD_WATCHDOG_EXPIRY. -/
def mStewardWatchdogExpiry (m : Module) : Module := m.stewardReset

/-! ### The Seal Bank (R76, R431) -/

/-- SEAL_REREAD: the debounced bank as reread. -/
def mSealReread (sw : Nat) (m : Module) : Module :=
  let old := m.rd R.SYS_SEAL_NOW
  let new := sw % 256
  if m.mode = .reset ∨ old = new then m
  else
    let at_ := m.rd R.SYS_SEAL_AT_RESET
    let m := (m.wr R.SYS_SEAL_NOW new).bump R.SEAL_CHG_CNT_CNT
    let m := ((m.wr R.SEAL_LAST_TS32 m.ts32).wr R.SEAL_LAST_VAL_OLD old).wr R.SEAL_LAST_VAL_NEW new
    let m := if new ≠ at_ then m.flag R.SYS_SEAL_CHANGE_STK else m
    m.raise' 12 4 0 (old + new * 256 + at_ * 65536)

def execPowerOn (rested : Bool) (s : State) : Host.Outcome State Fault Refusal := s.upd (mPowerOn rested)
def execResetExit (sw bankMv slotMv auxMv : Nat) (s : State) : Host.Outcome State Fault Refusal :=
  s.upd (mResetExit sw bankMv slotMv auxMv)
def execPowerFail (s : State) : Host.Outcome State Fault Refusal := s.upd mPowerFail
def execFlushDone (power : Bool) (s : State) : Host.Outcome State Fault Refusal := s.upd (mFlushDone power)
def execHoldupLow (bankMv : Nat) (s : State) : Host.Outcome State Fault Refusal := s.upd (mHoldupLow bankMv)
def execThermalWarning (die inlet : Int) (s : State) : Host.Outcome State Fault Refusal := s.upd (mThermalWarning die inlet)
def execThermalCritical (die inlet : Int) (s : State) : Host.Outcome State Fault Refusal := s.upd (mThermalCritical die inlet)
def execThermalTrip (die inlet : Int) (s : State) : Host.Outcome State Fault Refusal := s.upd (mThermalTrip die inlet)
def execClockCheck (osc lock : Bool) (s : State) : Host.Outcome State Fault Refusal := s.upd (mClockCheck osc lock)
def execSysReset (v : Nat) (s : State) : Host.Outcome State Fault Refusal := s.upd (mSysReset v)
def execModuleReset (causes : Nat) (s : State) : Host.Outcome State Fault Refusal := s.upd (mModuleReset causes)
def execStewardWatchdogExpiry (s : State) : Host.Outcome State Fault Refusal := s.upd mStewardWatchdogExpiry
def execSealReread (sw : Nat) (s : State) : Host.Outcome State Fault Refusal := s.upd (mSealReread sw)
def execHoldupExhausted (s : State) : Host.Outcome State Fault Refusal := s.upd mHoldupExhausted
def execHoldupRecharged (bankMv : Nat) (s : State) : Host.Outcome State Fault Refusal := s.upd (mHoldupRecharged bankMv)
def execThermalWarningCleared (die inlet : Int) (s : State) : Host.Outcome State Fault Refusal :=
  s.upd (mThermalWarningCleared die inlet)

end Sys2Proof.Machine
end

