-- ==== Sys2Proof/Machine/Errs.lean ====
section
/-!
DEFINITION. Patrol scrub and the answers to uncorrectable errors that it finds (R477, R480 Table 20.4), the repair from the shadow
(R481), the error interrupt (R484), error injection (R486), the debug windows (R490, R491).
-/

namespace Sys2Proof.Machine

/-! ### Table 20.4 -/

/-- The source of a corrected error in a memory. -/
def ceSource (mem : Nat) : Nat :=
  if mem = 0 then 0 else if mem = 1 then 8 else if mem = 2 then 12 else if mem = 3 then 14 else 16

/-- Whether an uncorrectable error of a source lies in a memory. -/
def ueSourceOf (mem s : Nat) : Bool :=
  if mem = 0 then decide (1 ≤ s) && decide (s ≤ 7)
  else if mem = 1 then decide (9 ≤ s) && decide (s ≤ 11)
  else if mem = 2 then s == 13
  else if mem = 3 then s == 15
  else if mem = 4 then decide (17 ≤ s) && decide (s ≤ 20)
  else s == 21

/-- Drops the copies of a frame that no wire has started (source 15). -/
def Module.dropFrame (m : Module) (fid : Nat) : Module :=
  let keep (q : SMap (List Copy)) : SMap (List Copy) :=
    (q.map fun (k, l) => (k, l.filter fun (c : Copy) => c.fid != fid)).filter fun (_, l) => l != []
  { m with sw := { m.sw with queues := keep m.sw.queues, hpq := keep m.sw.hpq } }

/-- A damaged receive state returns to WAIT with its substituted or fail-safe contents (source 19). -/
def Module.gsubWait (m : Module) (j : Nat) : Module :=
  match m.cul.gsubs.get? j with
  | none => m
  | some r =>
    let x := m.gsubSt j
    let x := if r.subst then { x with data := slice m.cul.gblob r.safeOff r.dsLen, flags := x.flags ||| 4 } else x
    (((m.setGsub j x).wr (R.SCH_GSUB0_STATE j) 0).wr (R.RED_SUB_CLAIM0_C_ACC j) 0).wr (R.RED_SUB_CLAIM1_PAIR_ACC j) 0

/-- A damaged commit record: not admitted, it is discarded with cause 4 (R47); in apply, the module enters SAFE-HOLD (R48).
DEDUCED, assumption 43. -/
def Module.recordUe (m : Module) (e : Nat) : Module :=
  match m.press.pending.find? (·.engine == e) with
  | some r =>
    { m with press := { m.press with pending := m.press.pending.filter (·.engine != e) } }.doActs [.discard r 4]
  | none => if m.press.applying.any fun ep => ep.recs.any (·.engine == e) then m.safeHold 5 else m

/-- The answer to an uncorrectable error of a source beside its report. `a` and `b` say what the codeword holds: 1 the instance;
4 the entry's key; 6 the shadow word; 9 the stream and slot; 10 the chain; 13 the engine, and 1 for its code partition or a staging
buffer; 15 the frame; 17 the kind and index; 18 the engine; 19 the subscription, or with 1 the connection; 21 the slot.
DEDUCED, assumption 91. -/
def Module.ueResponse (m : Module) (s a b : Nat) : Module :=
  if s = 1 then m.doActs [.stop a]
  else if s = 4 then
    let e := m.host.xlt.getD a 0
    { m with host := { m.host with xlt := if e % 2 = 1 then m.host.xlt.set a (e - 1) else m.host.xlt } }
  else if s = 5 then m.stewardReset
  else if s = 6 then { m with err := { m.err with badShadow := if m.err.badShadow.contains a then m.err.badShadow else a :: m.err.badShadow } }
  else if s = 7 then { m with ladle := { m.ladle with trace := m.ladle.trace.eraseIdx a } }.bump R.SCH_TRACE_LOST_CNT_CNT
  else if s = 9 then
    match m.vat.streams.get? a with
    | some x =>
      if (x.slots.get? b).any (·.closed) then m
      else { m with vat := { m.vat with streams := m.vat.streams.set a { x with slots := x.slots.erase b } } }
    | none => m
  else if s = 10 then m.restartChain a
  else if s = 13 then (if b = 1 then m.engineMismatch a else m)
  else if s = 15 then m.dropFrame a
  else if s = 17 then
    let m : Module := { m with err := { m.err with absent := if m.err.absent.contains (a, b) then m.err.absent else (a, b) :: m.err.absent } }
    if a ≠ 5 then m
    else (m.vat.chans.filter fun (_, c) => c.stages.any fun st => m.setGone st.set).foldl (fun m (c, _) => m.restartChain c) m
  else if s = 18 then m.recordUe a
  else if s = 19 then
    (if b = 0 then m.gsubWait a
    else match m.lst.conns.get? a with
      | some x => if m.isSend a ∨ m.connState a = 3 then m else m.connWait a x
      | none => m)
  else if s = 20 then m.safeHold 5
  else if s = 21 then m.slotUe a
  else m

/-! ### Patrol scrub (R477, R478) -/

/-- The codewords of a memory (Table 20.1). -/
def codewords (mem : Nat) : Nat :=
  if mem = 0 then 1006632960 else if mem = 1 then 2097152 else if mem = 2 ∨ mem = 3 then 524288
  else if mem = 4 then 131072 else 4096

/-- The period of a scrubber. -/
def scrubPeriod (mem : Nat) : Nat := (if mem = 0 then 80000 else 1000000) * nsUnit

/-- What a read of a codeword finds where an injection stands in it (R486). -/
def Module.injectedErr (m : Module) (mem addr : Nat) (err : ReadErr) : ReadErr :=
  match m.err.injected.find? fun (k, a, _, _) => k == mem && a == addr with
  | some (_, _, sym, two) =>
    let syn := match err with | .clean => 0 | .ce _ _ y => y | .ue _ y => y
    if two then .ue addr syn else .ce addr sym syn
  | none => match err with
    | .clean => .clean
    | .ce _ sym syn => .ce addr sym syn
    | .ue _ syn => .ue addr syn

/-- SCRUB_VISIT: the scrubber of a memory reads its next codeword and finds `err`; an uncorrectable error is of source s and
concerns a and b. DEDUCED, assumption 91. -/
def mScrubVisit (mem : Nat) (err : ReadErr) (s a b : Nat) (m : Module) : Module :=
  if 5 < mem ∨ !m.ready 15 ∨ m.mode = .reset ∨ m.mode = .flush then m
  else
    let k := m.err.scrub.getD mem 0
    let start := m.err.passStart.getD mem m.mono
    let m := m.reachMono (start + (k + 1) * scrubPeriod mem)
    let addr := 32 * k
    let skip := mem == 2 && (m.engine (addr / 524288)).state == .selfTest
    let err := if skip then .clean else m.injectedErr mem addr err
    let n := codewords mem
    let k := k + 1
    let m : Module :=
      if k < n then { m with err := { m.err with scrub := m.err.scrub.set mem k } }.wr (R.MEM_SCRUB1_PROGRESS mem) (k * 100 / n)
      else
        let m : Module := { m with err := { m.err with scrub := m.err.scrub.erase mem, passStart := m.err.passStart.set mem m.mono } }
        ((m.bump (R.MEM_SCRUB0_PASS_CNT mem)).wr (R.MEM_SCRUB1_PROGRESS mem) 0).wr (R.MEM_SCRUB2_LAST_PASS_S mem)
          ((m.mono - start) / (1000000000 * nsUnit))
    match err with
    | .clean => m
    | .ce _ _ _ =>
      let m : Module := { m with err := { m.err with injected := m.err.injected.filter fun (k, x, _, _) => !(k == mem && x == addr) } }
      m.readReport err mem (ceSource mem) 0 0xFFF 0
    | .ue _ _ =>
      if !ueSourceOf mem s then m
      else (m.readReport err mem 0 s (if s = 1 then a else 0xFFF) (if s = 13 ∨ s = 18 then a else 0)).ueResponse s a b

/-- SHADOW_REPAIR: the Steward rewrites a damaged table entry from its shadow word; a bad one is source 20. -/
def mShadowRepair (kind i word : Nat) (m : Module) : Module :=
  if !m.gone kind i ∨ m.mode = .reset then m
  else if m.err.badShadow.contains word then (m.report ⟨20, 4, 63, 0, 0, 0xFFF, 0⟩).safeHold 5
  else { m with err := { m.err with absent := m.err.absent.filter fun x => x != (kind, i) } }

/-! ### The interrupt, injection, debug reads -/

/-- ERROR_INTERRUPT: the PF's vector, at most once in each window of 100 µs. DEDUCED, assumption 90. -/
def mErrorInterrupt (m : Module) : Module :=
  if !m.err.irqDue then m
  else
    let m := match m.err.lastIrq with
      | some t => m.reachMono (t + 100000 * nsUnit)
      | none => m
    { m with err := { m.err with lastIrq := some m.mono, irqDue := false } }.emit (.msix 0 (m.rd R.ERR_CTRL_IRQ_VECTOR))

/-- INJECTION_TAKEN: the next write of the armed memory, to the codeword at an offset, takes the injection. -/
def mInjectionTaken (addr : Nat) (m : Module) : Module :=
  let mem := m.rd R.ERR_INJECT_MEM
  if m.mode ≠ .test ∨ !m.isOn R.ERR_INJECT_ARM ∨ 4 < mem then m
  else
    let x := (mem, addr / 32 * 32, m.rd R.ERR_INJECT_SYM_A, m.isOn R.ERR_INJECT_TWO)
    ({ m with err := { m.err with injected := m.err.injected ++ [x] } }.wr R.ERR_INJECT_ARM 0).flag R.ERR_INJECT_INJ_DONE_FLG

/-- A byte of an engine's local memory (R248) where the model holds it: the code partition, and the images and LOC of a context
that holds a cycle. DEDUCED, assumption 92. -/
def Module.localByte (m : Module) (e x : Nat) : Option Byte :=
  let code := 1024 * m.cul.codeKib
  let up (n : Nat) : Nat := (n + 31) / 32 * 32
  if x < code then some (m.cul.code.getD x 0)
  else if x < code + 16384 then none
  else
    let size := (524288 - code - 16384) / 4
    let o := (x - code - 16384) % size
    match m.ctx? e ((x - code - 16384) / size) with
    | none => none
    | some c =>
      let i := 1024
      let u := i + up c.lay.inLen
      let w := u + up c.lay.outLen
      let l := w + up c.lay.winLen
      if o < i then none
      else if o < u then some (c.inImg.getD (o - i) 0)
      else if o < w then some (c.outImg.getD (o - u) 0)
      else if o < l then some (c.instImg.getD (c.lay.winOff + (o - w)) 0)
      else some (c.locByte (o - l))

/-- DEBUG_READ: a PF read of a debug window. What the model does not hold as bytes is a free value.
DESIGN CHOICE, assumption 19; DEDUCED, assumption 92. -/
def mDebugRead (addr : Nat) (err : ReadErr) (m : Module) : Module :=
  if m.mode ≠ .test ∨ addr < 0x2000000 ∨ 0x4000000 ≤ addr then { m with rdata := 0 }
  else
    let mem := if addr < 0x3000000 then 2 else 1
    match err with
    | .ue _ _ => { m.bump (R.MEM_UE_CNT_CNT mem) with rdata := 0xFFFFFFFF }
    | _ =>
      let m := m.readReport err mem (ceSource mem) 0 0xFFF (if mem = 2 then (addr - 0x2000000) / 0x80000 else 0)
      let (i, m) := m.freshIdx
      let free := leBytes 4 (Config.freeWord i).toNat
      let byte (k : Nat) : Byte :=
        let o := addr / 4 * 4 - 0x2000000 + k
        if mem = 2 then (m.localByte (o / 0x80000) (o % 0x80000)).getD (free.getD k 0) else free.getD k 0
      { m with rdata := BitVec.ofNat 32 (ofLe ((List.range 4).map byte)) }

def execScrubVisit (mem : Nat) (err : ReadErr) (s' a b : Nat) (s : State) : Host.Outcome State Fault Refusal :=
  s.upd (mScrubVisit mem err s' a b)
def execShadowRepair (kind i word : Nat) (s : State) : Host.Outcome State Fault Refusal := s.upd (mShadowRepair kind i word)
def execErrorInterrupt (s : State) : Host.Outcome State Fault Refusal := s.upd mErrorInterrupt
def execInjectionTaken (addr : Nat) (s : State) : Host.Outcome State Fault Refusal := s.upd (mInjectionTaken addr)
def execDebugRead (addr : Nat) (err : ReadErr) (s : State) : Host.Outcome State Fault Refusal := s.upd (mDebugRead addr err)

end Sys2Proof.Machine
end

