-- ==== Sys2Proof/Machine/KFloat.lean ====
section
/-!
DEFINITION. The scalar float instructions (R244, R271, Table 11.3).
-/

namespace Sys2Proof.Machine

/-- FADD: gB + gC (R271). -/
def mFadd (e c : Nat) (w : Kw) (m : Module) : Module :=
  m.issueP e c 0x20 w fun x => x.setFR w.a (f32Add (x.getF w.b) (x.getF w.c))
def execFadd (e c : Nat) (w : Kw) (s : State) : Host.Outcome State Fault Refusal := s.upd (mFadd e c w)

/-- FSUB: gB - gC (R271). -/
def mFsub (e c : Nat) (w : Kw) (m : Module) : Module :=
  m.issueP e c 0x21 w fun x => x.setFR w.a (f32Sub (x.getF w.b) (x.getF w.c))
def execFsub (e c : Nat) (w : Kw) (s : State) : Host.Outcome State Fault Refusal := s.upd (mFsub e c w)

/-- FMUL: gB × gC (R271). -/
def mFmul (e c : Nat) (w : Kw) (m : Module) : Module :=
  m.issueP e c 0x22 w fun x => x.setFR w.a (f32Mul (x.getF w.b) (x.getF w.c))
def execFmul (e c : Nat) (w : Kw) (s : State) : Host.Outcome State Fault Refusal := s.upd (mFmul e c w)

/-- FMA: gB × gC + gA, rounded once (R271). -/
def mFma (e c : Nat) (w : Kw) (m : Module) : Module :=
  m.issueP e c 0x23 w fun x => x.setFR w.a (f32Fma (x.getF w.b) (x.getF w.c) (x.getF w.a))
def execFma (e c : Nat) (w : Kw) (s : State) : Host.Outcome State Fault Refusal := s.upd (mFma e c w)

/-- FDIV: gB / gC, correctly rounded (R271). -/
def mFdiv (e c : Nat) (w : Kw) (m : Module) : Module :=
  m.issueP e c 0x24 w fun x => x.setFR w.a (f32Div (x.getF w.b) (x.getF w.c))
def execFdiv (e c : Nat) (w : Kw) (s : State) : Host.Outcome State Fault Refusal := s.upd (mFdiv e c w)

/-- FSQRT: the square root, correctly rounded (R271). -/
def mFsqrt (e c : Nat) (w : Kw) (m : Module) : Module :=
  m.issueP e c 0x25 w fun x => x.setFR w.a (f32Sqrt (x.getF w.b))
def execFsqrt (e c : Nat) (w : Kw) (s : State) : Host.Outcome State Fault Refusal := s.upd (mFsqrt e c w)

/-- FMIN: minimumNumber of IEEE 754-2019 (R271). -/
def mFmin (e c : Nat) (w : Kw) (m : Module) : Module :=
  m.issueP e c 0x26 w fun x => x.setFR w.a (f32MinMax false (x.getF w.b) (x.getF w.c))
def execFmin (e c : Nat) (w : Kw) (s : State) : Host.Outcome State Fault Refusal := s.upd (mFmin e c w)

/-- FMAX: maximumNumber of IEEE 754-2019 (R271). -/
def mFmax (e c : Nat) (w : Kw) (m : Module) : Module :=
  m.issueP e c 0x27 w fun x => x.setFR w.a (f32MinMax true (x.getF w.b) (x.getF w.c))
def execFmax (e c : Nat) (w : Kw) (s : State) : Host.Outcome State Fault Refusal := s.upd (mFmax e c w)

/-- FSGN: the sign operations (R271). -/
def mFsgn (e c : Nat) (w : Kw) (m : Module) : Module :=
  m.issueP e c 0x28 w fun x => x.setFR w.a (f32Sgn w.sz (x.getF w.b) (x.getF w.c))
def execFsgn (e c : Nat) (w : Kw) (s : State) : Host.Outcome State Fault Refusal := s.upd (mFsgn e c w)

/-- FCMP: the predicate of a float comparison (R271). -/
def mFcmp (e c : Nat) (w : Kw) (m : Module) : Module :=
  m.issueP e c 0x29 w fun x => (x.setP w.a.toNat (f32Cmp w.imm.toNat (x.getF w.b) (x.getF w.c)).1).orCs (f32Cmp w.imm.toNat (x.getF w.b) (x.getF w.c)).2
def execFcmp (e c : Nat) (w : Kw) (s : State) : Host.Outcome State Fault Refusal := s.upd (mFcmp e c w)

/-- ITOF: a signed 64-bit integer to fp32 (R271). -/
def mItof (e c : Nat) (w : Kw) (m : Module) : Module :=
  m.issueP e c 0x2A w fun x => x.setFR w.a (f32OfInt (x.getG w.b))
def execItof (e c : Nat) (w : Kw) (s : State) : Host.Outcome State Fault Refusal := s.upd (mItof e c w)

/-- FTOI: fp32 to a signed 64-bit integer, towards zero (R271). -/
def mFtoi (e c : Nat) (w : Kw) (m : Module) : Module :=
  m.issueP e c 0x2B w fun x => (x.setG w.a (f32ToInt (x.getF w.b)).1).orCs (f32ToInt (x.getF w.b)).2
def execFtoi (e c : Nat) (w : Kw) (s : State) : Host.Outcome State Fault Refusal := s.upd (mFtoi e c w)

end Sys2Proof.Machine
end

