-- ==== Sys2Proof/Machine/KFlow.lean ====
section
/-!
DEFINITION. Control flow and calls (R255, R282, R283).
-/

namespace Sys2Proof.Machine

/-- A jump to a computed target, taken modulo 2^18 (R282). DEDUCED, assumption 24. -/
def Ctx.jump (x : Ctx) (t : BitVec 64) : KRes :=
  if t.toNat % 8 ≠ 0 then .exc 1 0 0 else .ok { x with pc := t.setWidth 18 }

/-- The frame that a call pushes (R255); the pc is already past the call. -/
def Ctx.frame (x : Ctx) : CallFrame := ⟨x.pc, x.ib, x.ii, x.oi, x.p⟩

/-- CALL and CALLR (R283). -/
def Ctx.call (x : Ctx) (w : Kw) (t : BitVec 64) : KRes :=
  if t.toNat % 8 ≠ 0 then .exc 1 0 0
  else if x.stack.length ≥ 64 then .exc 5 0 0
  else .ok { x with
    stack := x.frame :: x.stack
    ib := if w.a.getLsbD 0 then (x.getG w.b).setWidth 18 else x.ib
    ii := if w.a.getLsbD 1 then (x.getG w.c).setWidth 16 else x.ii
    oi := if w.a.getLsbD 2 then (x.getG w.c).extractLsb' 16 16 else x.oi
    pc := t.setWidth 18 }

/-- RET: restores the top frame (R255). -/
def Ctx.ret (x : Ctx) : KRes :=
  match x.stack with
  | [] => .exc 6 0 0
  | f :: r => .ok { x with stack := r, pc := f.retPc, ib := f.ib, ii := f.ii, oi := f.oi, p := f.preds ||| 1 }

/-- UNDEFINED_ENCODING: a context issues a word whose encoding is undefined and takes exception 1 (R268). -/
def mUndefinedEncoding (e c : Nat) (word : BitVec 64) (m : Module) : Module :=
  if kEncodingOk (kFields word).1 (kFields word).2 then m
  else m.issueM e c (kFields word).1 (kFields word).2 fun m _ => m
def execUndefinedEncoding (e c : Nat) (word : BitVec 64) (s : State) : Host.Outcome State Fault Refusal :=
  s.upd (mUndefinedEncoding e c word)

/-- BR: the relative branch (R282). -/
def mBr (e c : Nat) (w : Kw) (m : Module) : Module :=
  m.issueP e c 0x80 w fun x => { x with pc := x.pc - 8 + w.imm.setWidth 18 }
def execBr (e c : Nat) (w : Kw) (s : State) : Host.Outcome State Fault Refusal := s.upd (mBr e c w)

/-- BRR: the register branch; exception 1 on a target that is not a multiple of 8 (R282). DEDUCED, assumption 24. -/
def mBrr (e c : Nat) (w : Kw) (m : Module) : Module :=
  m.issue e c 0x81 w fun x => x.jump (x.getG w.b + sext64 w.imm)
def execBrr (e c : Nat) (w : Kw) (s : State) : Host.Outcome State Fault Refusal := s.upd (mBrr e c w)

/-- CALL: the relative call (R283). -/
def mCall (e c : Nat) (w : Kw) (m : Module) : Module :=
  m.issue e c 0x82 w fun x => x.call w ((x.pc - 8).setWidth 64 + sext64 w.imm)
def execCall (e c : Nat) (w : Kw) (s : State) : Host.Outcome State Fault Refusal := s.upd (mCall e c w)

/-- CALLR: the call to a register (R283). -/
def mCallr (e c : Nat) (w : Kw) (m : Module) : Module :=
  m.issue e c 0x83 w fun x => x.call w (x.getG (BitVec.ofNat 6 w.imm.toNat))
def execCallr (e c : Nat) (w : Kw) (s : State) : Host.Outcome State Fault Refusal := s.upd (mCallr e c w)

/-- RET: the return (R255). -/
def mRet (e c : Nat) (w : Kw) (m : Module) : Module :=
  m.issue e c 0x84 w fun x => x.ret
def execRet (e c : Nat) (w : Kw) (s : State) : Host.Outcome State Fault Refusal := s.upd (mRet e c w)

/-- TRAP: exception 12 with DETAIL IMM (R282). -/
def mTrap (e c : Nat) (w : Kw) (m : Module) : Module :=
  m.issue e c 0x85 w fun x => .exc 12 w.imm.toNat 0
def execTrap (e c : Nat) (w : Kw) (s : State) : Host.Outcome State Fault Refusal := s.upd (mTrap e c w)

/-- NOP: no effect (R282). -/
def mNop (e c : Nat) (w : Kw) (m : Module) : Module :=
  m.issueP e c 0x86 w fun x => x
def execNop (e c : Nat) (w : Kw) (s : State) : Host.Outcome State Fault Refusal := s.upd (mNop e c w)

end Sys2Proof.Machine
end

