-- ==== Sys2Proof/Machine/KInt.lean ====
section
/-!
DEFINITION. The integer instructions (R270, Table 11.2).
-/

namespace Sys2Proof.Machine

/-- The operators of PLOG: 0 AND, 1 OR, 2 XOR, 3 pB AND NOT pC. -/
def kPlog (op : Nat) (a b : Bool) : Bool :=
  if op = 0 then a && b else if op = 1 then a || b else if op = 2 then a != b else a && !b

/-- ADD: the sum, wrapping (R270). -/
def mAdd (e c : Nat) (w : Kw) (m : Module) : Module :=
  m.issueP e c 0x01 w fun x => x.setG w.a (x.getG w.b + x.getG w.c)
def execAdd (e c : Nat) (w : Kw) (s : State) : Host.Outcome State Fault Refusal := s.upd (mAdd e c w)

/-- SUB: the difference, wrapping (R270). -/
def mSub (e c : Nat) (w : Kw) (m : Module) : Module :=
  m.issueP e c 0x02 w fun x => x.setG w.a (x.getG w.b - x.getG w.c)
def execSub (e c : Nat) (w : Kw) (s : State) : Host.Outcome State Fault Refusal := s.upd (mSub e c w)

/-- MUL: the low 64 bits of the product (R270). -/
def mMul (e c : Nat) (w : Kw) (m : Module) : Module :=
  m.issueP e c 0x03 w fun x => x.setG w.a (x.getG w.b * x.getG w.c)
def execMul (e c : Nat) (w : Kw) (s : State) : Host.Outcome State Fault Refusal := s.upd (mMul e c w)

/-- MULH: the high 64 bits of the signed product (R270). -/
def mMulh (e c : Nat) (w : Kw) (m : Module) : Module :=
  m.issueP e c 0x04 w fun x => x.setG w.a (BitVec.ofInt 64 ((x.getG w.b).toInt * (x.getG w.c).toInt / (2 ^ 64 : Nat)))
def execMulh (e c : Nat) (w : Kw) (s : State) : Host.Outcome State Fault Refusal := s.upd (mMulh e c w)

/-- DIV: the signed quotient towards zero; exception 7 on a zero divisor (R270). -/
def mDiv (e c : Nat) (w : Kw) (m : Module) : Module :=
  m.issue e c 0x05 w fun x => if x.getG w.c = 0 then .exc 7 0 0 else .ok (x.setG w.a ((x.getG w.b).sdiv (x.getG w.c)))
def execDiv (e c : Nat) (w : Kw) (s : State) : Host.Outcome State Fault Refusal := s.upd (mDiv e c w)

/-- REM: the remainder with the sign of gB; exception 7 on a zero divisor (R270). -/
def mRem (e c : Nat) (w : Kw) (m : Module) : Module :=
  m.issue e c 0x06 w fun x => if x.getG w.c = 0 then .exc 7 0 0 else .ok (x.setG w.a ((x.getG w.b).srem (x.getG w.c)))
def execRem (e c : Nat) (w : Kw) (s : State) : Host.Outcome State Fault Refusal := s.upd (mRem e c w)

/-- AND: bitwise and (R270). -/
def mAnd (e c : Nat) (w : Kw) (m : Module) : Module :=
  m.issueP e c 0x07 w fun x => x.setG w.a (x.getG w.b &&& x.getG w.c)
def execAnd (e c : Nat) (w : Kw) (s : State) : Host.Outcome State Fault Refusal := s.upd (mAnd e c w)

/-- OR: bitwise or (R270). -/
def mOr (e c : Nat) (w : Kw) (m : Module) : Module :=
  m.issueP e c 0x08 w fun x => x.setG w.a (x.getG w.b ||| x.getG w.c)
def execOr (e c : Nat) (w : Kw) (s : State) : Host.Outcome State Fault Refusal := s.upd (mOr e c w)

/-- XOR: bitwise exclusive or (R270). -/
def mXor (e c : Nat) (w : Kw) (m : Module) : Module :=
  m.issueP e c 0x09 w fun x => x.setG w.a (x.getG w.b ^^^ x.getG w.c)
def execXor (e c : Nat) (w : Kw) (s : State) : Host.Outcome State Fault Refusal := s.upd (mXor e c w)

/-- SHL: shift left by gC[5:0] (R270). -/
def mShl (e c : Nat) (w : Kw) (m : Module) : Module :=
  m.issueP e c 0x0A w fun x => x.setG w.a (x.getG w.b <<< kShift (x.getG w.c))
def execShl (e c : Nat) (w : Kw) (s : State) : Host.Outcome State Fault Refusal := s.upd (mShl e c w)

/-- SHR: logical shift right by gC[5:0] (R270). -/
def mShr (e c : Nat) (w : Kw) (m : Module) : Module :=
  m.issueP e c 0x0B w fun x => x.setG w.a (x.getG w.b >>> kShift (x.getG w.c))
def execShr (e c : Nat) (w : Kw) (s : State) : Host.Outcome State Fault Refusal := s.upd (mShr e c w)

/-- SAR: arithmetic shift right by gC[5:0] (R270). -/
def mSar (e c : Nat) (w : Kw) (m : Module) : Module :=
  m.issueP e c 0x0C w fun x => x.setG w.a ((x.getG w.b).sshiftRight (kShift (x.getG w.c)))
def execSar (e c : Nat) (w : Kw) (s : State) : Host.Outcome State Fault Refusal := s.upd (mSar e c w)

/-- MIN: the signed minimum (R270). -/
def mMin (e c : Nat) (w : Kw) (m : Module) : Module :=
  m.issueP e c 0x0D w fun x => x.setG w.a (if (x.getG w.b).slt (x.getG w.c) then x.getG w.b else x.getG w.c)
def execMin (e c : Nat) (w : Kw) (s : State) : Host.Outcome State Fault Refusal := s.upd (mMin e c w)

/-- MAX: the signed maximum (R270). -/
def mMax (e c : Nat) (w : Kw) (m : Module) : Module :=
  m.issueP e c 0x0E w fun x => x.setG w.a (if (x.getG w.b).slt (x.getG w.c) then x.getG w.c else x.getG w.b)
def execMax (e c : Nat) (w : Kw) (s : State) : Host.Outcome State Fault Refusal := s.upd (mMax e c w)

/-- ADDS: the saturated signed sum (R270). -/
def mAdds (e c : Nat) (w : Kw) (m : Module) : Module :=
  m.issueP e c 0x0F w fun x => x.setG w.a (satAdd (x.getG w.b) (x.getG w.c))
def execAdds (e c : Nat) (w : Kw) (s : State) : Host.Outcome State Fault Refusal := s.upd (mAdds e c w)

/-- ADDI: the sum with sext(IMM) (R270). -/
def mAddi (e c : Nat) (w : Kw) (m : Module) : Module :=
  m.issueP e c 0x10 w fun x => x.setG w.a (x.getG w.b + sext64 w.imm)
def execAddi (e c : Nat) (w : Kw) (s : State) : Host.Outcome State Fault Refusal := s.upd (mAddi e c w)

/-- ANDI: bitwise and with sext(IMM) (R270). -/
def mAndi (e c : Nat) (w : Kw) (m : Module) : Module :=
  m.issueP e c 0x11 w fun x => x.setG w.a (x.getG w.b &&& sext64 w.imm)
def execAndi (e c : Nat) (w : Kw) (s : State) : Host.Outcome State Fault Refusal := s.upd (mAndi e c w)

/-- ORI: bitwise or with sext(IMM) (R270). -/
def mOri (e c : Nat) (w : Kw) (m : Module) : Module :=
  m.issueP e c 0x12 w fun x => x.setG w.a (x.getG w.b ||| sext64 w.imm)
def execOri (e c : Nat) (w : Kw) (s : State) : Host.Outcome State Fault Refusal := s.upd (mOri e c w)

/-- XORI: bitwise exclusive or with sext(IMM) (R270). -/
def mXori (e c : Nat) (w : Kw) (m : Module) : Module :=
  m.issueP e c 0x13 w fun x => x.setG w.a (x.getG w.b ^^^ sext64 w.imm)
def execXori (e c : Nat) (w : Kw) (s : State) : Host.Outcome State Fault Refusal := s.upd (mXori e c w)

/-- SHLI: shift left by IMM[5:0] (R270). -/
def mShli (e c : Nat) (w : Kw) (m : Module) : Module :=
  m.issueP e c 0x14 w fun x => x.setG w.a (x.getG w.b <<< (w.imm.toNat % 64))
def execShli (e c : Nat) (w : Kw) (s : State) : Host.Outcome State Fault Refusal := s.upd (mShli e c w)

/-- SHRI: logical shift right by IMM[5:0] (R270). -/
def mShri (e c : Nat) (w : Kw) (m : Module) : Module :=
  m.issueP e c 0x15 w fun x => x.setG w.a (x.getG w.b >>> (w.imm.toNat % 64))
def execShri (e c : Nat) (w : Kw) (s : State) : Host.Outcome State Fault Refusal := s.upd (mShri e c w)

/-- SARI: arithmetic shift right by IMM[5:0] (R270). -/
def mSari (e c : Nat) (w : Kw) (m : Module) : Module :=
  m.issueP e c 0x16 w fun x => x.setG w.a ((x.getG w.b).sshiftRight (w.imm.toNat % 64))
def execSari (e c : Nat) (w : Kw) (s : State) : Host.Outcome State Fault Refusal := s.upd (mSari e c w)

/-- MOVI: gA = sext(IMM) (R270). -/
def mMovi (e c : Nat) (w : Kw) (m : Module) : Module :=
  m.issueP e c 0x17 w fun x => x.setG w.a (sext64 w.imm)
def execMovi (e c : Nat) (w : Kw) (s : State) : Host.Outcome State Fault Refusal := s.upd (mMovi e c w)

/-- MOVH: gA[63:32] = IMM, gA[31:0] unchanged (R270). -/
def mMovh (e c : Nat) (w : Kw) (m : Module) : Module :=
  m.issueP e c 0x18 w fun x => x.setG w.a (w.imm ++ x.getF w.a)
def execMovh (e c : Nat) (w : Kw) (s : State) : Host.Outcome State Fault Refusal := s.upd (mMovh e c w)

/-- CMP: the predicate of a comparison (R270). -/
def mCmp (e c : Nat) (w : Kw) (m : Module) : Module :=
  m.issueP e c 0x19 w fun x => x.setP w.a.toNat (kCond w.imm.toNat (x.getG w.b) (x.getG w.c))
def execCmp (e c : Nat) (w : Kw) (s : State) : Host.Outcome State Fault Refusal := s.upd (mCmp e c w)

/-- CMPI: the predicate of a comparison with sext(IMM) (R270). -/
def mCmpi (e c : Nat) (w : Kw) (m : Module) : Module :=
  m.issueP e c 0x1A w fun x => x.setP w.a.toNat (kCond w.c.toNat (x.getG w.b) (sext64 w.imm))
def execCmpi (e c : Nat) (w : Kw) (s : State) : Host.Outcome State Fault Refusal := s.upd (mCmpi e c w)

/-- PLOG: predicate logic (R270). -/
def mPlog (e c : Nat) (w : Kw) (m : Module) : Module :=
  m.issueP e c 0x1B w fun x => x.setP w.a.toNat (kPlog w.imm.toNat (x.getP w.b.toNat) (x.getP w.c.toNat))
def execPlog (e c : Nat) (w : Kw) (s : State) : Host.Outcome State Fault Refusal := s.upd (mPlog e c w)

/-- PGET: the predicates into gA[7:0] (R270). -/
def mPget (e c : Nat) (w : Kw) (m : Module) : Module :=
  m.issueP e c 0x1C w fun x => x.setG w.a ((x.p ||| 1).setWidth 64)
def execPget (e c : Nat) (w : Kw) (s : State) : Host.Outcome State Fault Refusal := s.upd (mPget e c w)

/-- PSET: p1 to p7 from gB[7:1] (R270). -/
def mPset (e c : Nat) (w : Kw) (m : Module) : Module :=
  m.issueP e c 0x1D w fun x => { x with p := (x.getG w.b).setWidth 8 ||| 1 }
def execPset (e c : Nat) (w : Kw) (s : State) : Host.Outcome State Fault Refusal := s.upd (mPset e c w)

end Sys2Proof.Machine
end

