-- ==== Sys2Proof/Machine/KMem.lean ====
section
/-!
DEFINITION. Loads, stores, base and special registers, global reads, timers and edges (R274 to R281).
-/

namespace Sys2Proof.Machine

/-- A read of the context area: what the decoder found is reported; an uncorrectable error is exception 10 (R260). -/
def Module.areaRead (m : Module) (e c : Nat) (err : ReadErr) (x : Ctx) (sp off : Nat) (f : Module → Module) : Module :=
  let m := m.readReport err 2 12 13 x.inst e
  if err.isUe then m.kExc e c x.here 10 sp off else f m

/-- LD and VLD (R274): the checks, then the context area, or a wait for the constant pool. -/
def Module.ctxLoad (m : Module) (e c : Nat) (err : ReadErr) (x : Ctx) (imm : BitVec 32) (w : Kw) (n align : Nat)
    (const : GReq) (f : Bytes → Ctx) : Module :=
  let sp := w.c.toNat % 8
  let off := x.effAddr sp w.b imm
  match x.memCheck sp off n align false with
  | some (code, d, a) => m.kExc e c x.here code d a
  | none =>
    if sp = 4 then m.setCtx e c { x with phase := .waiting const }
    else m.areaRead e c err x sp off fun m => m.setCtx e c (f (x.bytesAt sp off n))

/-- ST and VST (R274): the checks, then the store. -/
def Ctx.ctxStore (x : Ctx) (w : Kw) (n align : Nat) (b : Bytes) : KRes :=
  let sp := w.c.toNat % 8
  let off := x.effAddr sp w.b w.imm
  match x.memCheck sp off n align true with
  | some (code, d, a) => .exc code d a
  | none => .ok (x.storeBytes sp off b)

def Ctx.laneBytes (x : Ctx) (r : BitVec 6) : Bytes :=
  (List.range 8).flatMap fun l => leBytes 4 (x.getV r l).toNat

/-- SETB: 0 ib, 1 ii, 2 oi. -/
def Ctx.setBase (x : Ctx) (n : Nat) (v : BitVec 64) : Ctx :=
  if n = 0 then { x with ib := v.setWidth 18 }
  else if n = 1 then { x with ii := v.setWidth 16 }
  else { x with oi := v.setWidth 16 }

/-- RDSR: 0 ct, 1 cs, 2 sd, 3 ib, 4 ii, 5 oi. -/
def Ctx.special (x : Ctx) (n : Nat) : BitVec 64 :=
  if n = 0 then BitVec.ofNat 64 (x.ct % 2 ^ 32)
  else if n = 1 then x.cs.setWidth 64
  else if n = 2 then BitVec.ofNat 64 x.stack.length
  else if n = 3 then x.ib.setWidth 64
  else if n = 4 then x.ii.setWidth 64
  else x.oi.setWidth 64

def Ctx.awaits (x : Ctx) (r : GReq) : Ctx := { x with phase := .waiting r }

/-- A primitive with a state block (R281's checks come first; only then is the block read). -/
def Module.ctxBlock (m : Module) (e c : Nat) (err : ReadErr) (x : Ctx) (off size kind : Nat) (f : Ctx → KRes) : Module :=
  match x.blockCheck off size kind with
  | some (code, d, a) => m.kExc e c x.here code d a
  | none => m.areaRead e c err x 0 off fun m => m.kDone e c x.here (f x)

/-- EDGE on its block (R281): SZ 0 rising, 1 falling, 2 both. -/
def Ctx.edgeStep (x : Ctx) (w : Kw) : KRes :=
  let off := x.effAddr 0 w.b w.imm
  let word := x.getF w.c
  let prev : Word := BitVec.ofNat 32 (ofLe (x.bytesAt 0 off 4))
  let r : Word := if w.sz = 0 then word &&& ~~~prev else if w.sz = 1 then ~~~word &&& prev else word ^^^ prev
  .ok ((x.storeBytes 0 off (leBytes 4 word.toNat)).setF w.a r)

/-- LD: loads 1, 2, 4 or 8 bytes (R274). -/
def mLd (e c : Nat) (w : Kw) (err : ReadErr) (m : Module) : Module :=
  m.issueM e c 0x60 w fun m x => m.ctxLoad e c err x w.imm w (2 ^ w.sz.toNat) (2 ^ w.sz.toNat)
    (.constLd w.a (x.effAddr (w.c.toNat % 8) w.b w.imm) (2 ^ w.sz.toNat) (w.c.getLsbD 3))
    fun b => x.setG w.a (extendLoad b (w.c.getLsbD 3))
def execLd (e c : Nat) (w : Kw) (err : ReadErr) (s : State) : Host.Outcome State Fault Refusal := s.upd (mLd e c w err)

/-- ST: stores the low 1, 2, 4 or 8 bytes (R274). -/
def mSt (e c : Nat) (w : Kw) (m : Module) : Module :=
  m.issue e c 0x61 w fun x => x.ctxStore w (2 ^ w.sz.toNat) (2 ^ w.sz.toNat)
    (leBytes (2 ^ w.sz.toNat) (x.getG w.a).toNat)
def execSt (e c : Nat) (w : Kw) (s : State) : Host.Outcome State Fault Refusal := s.upd (mSt e c w)

/-- VLD: loads 8 lanes (R274). -/
def mVld (e c : Nat) (w : Kw) (err : ReadErr) (m : Module) : Module :=
  m.issueM e c 0x62 w fun m x => m.ctxLoad e c err x w.imm w 32 4
    (.constVld w.a (x.effAddr (w.c.toNat % 8) w.b w.imm)) fun b => x.setV w.a fun l => BitVec.ofNat 32 (leAt b (4 * l) 4)
def execVld (e c : Nat) (w : Kw) (err : ReadErr) (s : State) : Host.Outcome State Fault Refusal := s.upd (mVld e c w err)

/-- VST: stores 8 lanes (R274). -/
def mVst (e c : Nat) (w : Kw) (m : Module) : Module :=
  m.issue e c 0x63 w fun x => x.ctxStore w 32 4 (x.laneBytes w.a)
def execVst (e c : Nat) (w : Kw) (s : State) : Host.Outcome State Fault Refusal := s.upd (mVst e c w)

/-- SETB: sets a base modulo its width (R275). -/
def mSetb (e c : Nat) (w : Kw) (m : Module) : Module :=
  m.issueP e c 0x64 w fun x => x.setBase w.a.toNat (x.getG w.b + sext64 w.imm)
def execSetb (e c : Nat) (w : Kw) (s : State) : Host.Outcome State Fault Refusal := s.upd (mSetb e c w)

/-- RDSR: reads a base or special register (R275). -/
def mRdsr (e c : Nat) (w : Kw) (m : Module) : Module :=
  m.issueP e c 0x65 w fun x => x.setG w.a (x.special w.imm.toNat)
def execRdsr (e c : Nat) (w : Kw) (s : State) : Host.Outcome State Fault Refusal := s.upd (mRdsr e c w)

/-- WRSR: cs[4:0] = gB[4:0] (R275). -/
def mWrsr (e c : Nat) (w : Kw) (m : Module) : Module :=
  m.issueP e c 0x66 w fun x => { x with cs := (x.getG w.b).setWidth 32 &&& 0x1F }
def execWrsr (e c : Nat) (w : Kw) (s : State) : Host.Outcome State Fault Refusal := s.upd (mWrsr e c w)

/-- RDCLK: asks for a clock (R276). -/
def mRdclk (e c : Nat) (w : Kw) (m : Module) : Module :=
  m.issueP e c 0x67 w fun x => x.awaits (.clock w.a w.imm.toNat)
def execRdclk (e c : Nat) (w : Kw) (s : State) : Host.Outcome State Fault Refusal := s.upd (mRdclk e c w)

/-- CRDV: asks for eight values of a curd frame (R276). -/
def mCrdv (e c : Nat) (w : Kw) (m : Module) : Module :=
  m.issueP e c 0x68 w fun x => x.awaits (.curd false w.a (x.getG w.b).toNat (x.getG w.c).toNat (w.imm.toNat % 4))
def execCrdv (e c : Nat) (w : Kw) (s : State) : Host.Outcome State Fault Refusal := s.upd (mCrdv e c w)

/-- CRDQ: asks for eight quality words of a curd frame (R276). -/
def mCrdq (e c : Nat) (w : Kw) (m : Module) : Module :=
  m.issueP e c 0x69 w fun x => x.awaits (.curd true w.a (x.getG w.b).toNat (x.getG w.c).toNat (w.imm.toNat % 4))
def execCrdq (e c : Nat) (w : Kw) (s : State) : Host.Outcome State Fault Refusal := s.upd (mCrdq e c w)

/-- CRDH: asks for a word of a curd header (R276). -/
def mCrdh (e c : Nat) (w : Kw) (m : Module) : Module :=
  m.issueP e c 0x6A w fun x => x.awaits (.curdHdr w.a (x.getG w.b).toNat (w.imm.toNat % 4) (w.imm.toNat / 4))
def execCrdh (e c : Nat) (w : Kw) (s : State) : Host.Outcome State Fault Refusal := s.upd (mCrdh e c w)

/-- TON: the on-delay timer (R278). -/
def mTon (e c : Nat) (w : Kw) (err : ReadErr) (m : Module) : Module :=
  m.issueM e c 0x70 w fun m x => m.ctxBlock e c err x (x.effAddr 0 w.b w.imm) 16 1 fun x => x.timerStep w .clean Timer.ton
def execTon (e c : Nat) (w : Kw) (err : ReadErr) (s : State) : Host.Outcome State Fault Refusal := s.upd (mTon e c w err)

/-- TOF: the off-delay timer (R278). -/
def mTof (e c : Nat) (w : Kw) (err : ReadErr) (m : Module) : Module :=
  m.issueM e c 0x71 w fun m x => m.ctxBlock e c err x (x.effAddr 0 w.b w.imm) 16 1 fun x => x.timerStep w .clean Timer.tof
def execTof (e c : Nat) (w : Kw) (err : ReadErr) (s : State) : Host.Outcome State Fault Refusal := s.upd (mTof e c w err)

/-- TP: the pulse timer (R278). -/
def mTp (e c : Nat) (w : Kw) (err : ReadErr) (m : Module) : Module :=
  m.issueM e c 0x72 w fun m x => m.ctxBlock e c err x (x.effAddr 0 w.b w.imm) 16 1 fun x => x.timerStep w .clean Timer.tp
def execTp (e c : Nat) (w : Kw) (err : ReadErr) (s : State) : Host.Outcome State Fault Refusal := s.upd (mTp e c w err)

/-- EDGE: edge detection (R281). -/
def mEdge (e c : Nat) (w : Kw) (err : ReadErr) (m : Module) : Module :=
  m.issueM e c 0x74 w fun m x => m.ctxBlock e c err x (x.effAddr 0 w.b w.imm) 4 2 fun x => x.edgeStep w
def execEdge (e c : Nat) (w : Kw) (err : ReadErr) (s : State) : Host.Outcome State Fault Refusal := s.upd (mEdge e c w err)

end Sys2Proof.Machine
end

