-- ==== Sys2Proof/Machine/KVec.lean ====
section
/-!
DEFINITION. The vector and complex instructions (R272, R273, Table 11.4).
-/

namespace Sys2Proof.Machine

/-- VDOT's rounded products and their tree sum, with the flags of both (R272). -/
def kDot (a b : Nat → Word) : FRes :=
  let p := (List.range 8).map fun l => f32Mul (a l) (b l)
  let s := treeSum fun l => (p.getD l ⟨0, 0⟩).bits
  ⟨s.bits, p.foldl (fun f y => f ||| y.flags) s.flags⟩

def cOfPair (p : FRes × FRes) : CNum := ⟨p.1.bits, p.2.bits, p.1.flags ||| p.2.flags⟩

/-- VADD: the lane sums (R272). -/
def mVadd (e c : Nat) (w : Kw) (m : Module) : Module :=
  m.issueP e c 0x40 w fun x => x.mapV w.a fun l => f32Add (x.getV w.b l) (x.getV w.c l)
def execVadd (e c : Nat) (w : Kw) (s : State) : Host.Outcome State Fault Refusal := s.upd (mVadd e c w)

/-- VSUB: the lane differences (R272). -/
def mVsub (e c : Nat) (w : Kw) (m : Module) : Module :=
  m.issueP e c 0x41 w fun x => x.mapV w.a fun l => f32Sub (x.getV w.b l) (x.getV w.c l)
def execVsub (e c : Nat) (w : Kw) (s : State) : Host.Outcome State Fault Refusal := s.upd (mVsub e c w)

/-- VMUL: the lane products (R272). -/
def mVmul (e c : Nat) (w : Kw) (m : Module) : Module :=
  m.issueP e c 0x42 w fun x => x.mapV w.a fun l => f32Mul (x.getV w.b l) (x.getV w.c l)
def execVmul (e c : Nat) (w : Kw) (s : State) : Host.Outcome State Fault Refusal := s.upd (mVmul e c w)

/-- VFMA: vB × vC + vA per lane, rounded once (R272). -/
def mVfma (e c : Nat) (w : Kw) (m : Module) : Module :=
  m.issueP e c 0x43 w fun x => x.mapV w.a fun l => f32Fma (x.getV w.b l) (x.getV w.c l) (x.getV w.a l)
def execVfma (e c : Nat) (w : Kw) (s : State) : Host.Outcome State Fault Refusal := s.upd (mVfma e c w)

/-- VMIN: minimumNumber per lane (R272). -/
def mVmin (e c : Nat) (w : Kw) (m : Module) : Module :=
  m.issueP e c 0x44 w fun x => x.mapV w.a fun l => f32MinMax false (x.getV w.b l) (x.getV w.c l)
def execVmin (e c : Nat) (w : Kw) (s : State) : Host.Outcome State Fault Refusal := s.upd (mVmin e c w)

/-- VMAX: maximumNumber per lane (R272). -/
def mVmax (e c : Nat) (w : Kw) (m : Module) : Module :=
  m.issueP e c 0x45 w fun x => x.mapV w.a fun l => f32MinMax true (x.getV w.b l) (x.getV w.c l)
def execVmax (e c : Nat) (w : Kw) (s : State) : Host.Outcome State Fault Refusal := s.upd (mVmax e c w)

/-- VBC: every lane = gB[31:0] (Table 11.4). -/
def mVbc (e c : Nat) (w : Kw) (m : Module) : Module :=
  m.issueP e c 0x46 w fun x => x.setV w.a fun _ => x.getF w.b
def execVbc (e c : Nat) (w : Kw) (s : State) : Host.Outcome State Fault Refusal := s.upd (mVbc e c w)

/-- VEXT: one lane into gA (Table 11.4). -/
def mVext (e c : Nat) (w : Kw) (m : Module) : Module :=
  m.issueP e c 0x47 w fun x => x.setF w.a (x.getV w.b (w.imm.toNat % 8))
def execVext (e c : Nat) (w : Kw) (s : State) : Host.Outcome State Fault Refusal := s.upd (mVext e c w)

/-- VINS: gB[31:0] into one lane (Table 11.4). -/
def mVins (e c : Nat) (w : Kw) (m : Module) : Module :=
  m.issueP e c 0x48 w fun x => x.setV w.a fun l => if l = w.imm.toNat % 8 then x.getF w.b else x.getV w.a l
def execVins (e c : Nat) (w : Kw) (s : State) : Host.Outcome State Fault Refusal := s.upd (mVins e c w)

/-- VSUM: the tree sum of R272. -/
def mVsum (e c : Nat) (w : Kw) (m : Module) : Module :=
  m.issueP e c 0x49 w fun x => x.setFR w.a (treeSum fun l => x.getV w.b l)
def execVsum (e c : Nat) (w : Kw) (s : State) : Host.Outcome State Fault Refusal := s.upd (mVsum e c w)

/-- VDOT: the tree sum of the rounded products (R272). -/
def mVdot (e c : Nat) (w : Kw) (m : Module) : Module :=
  m.issueP e c 0x4A w fun x => x.setFR w.a (kDot (fun l => x.getV w.b l) fun l => x.getV w.c l)
def execVdot (e c : Nat) (w : Kw) (s : State) : Host.Outcome State Fault Refusal := s.upd (mVdot e c w)

/-- VSCL: vB × gC per lane (Table 11.4). -/
def mVscl (e c : Nat) (w : Kw) (m : Module) : Module :=
  m.issueP e c 0x4B w fun x => x.mapV w.a fun l => f32Mul (x.getV w.b l) (x.getF w.c)
def execVscl (e c : Nat) (w : Kw) (s : State) : Host.Outcome State Fault Refusal := s.upd (mVscl e c w)

/-- CMUL: cmul per pair (R273). -/
def mCmul (e c : Nat) (w : Kw) (m : Module) : Module :=
  m.issueP e c 0x50 w fun x => x.setC w.a fun k => cmul (x.getC w.b k) (x.getC w.c k)
def execCmul (e c : Nat) (w : Kw) (s : State) : Host.Outcome State Fault Refusal := s.upd (mCmul e c w)

/-- CMAC: cmac per pair (R273). -/
def mCmac (e c : Nat) (w : Kw) (m : Module) : Module :=
  m.issueP e c 0x51 w fun x => x.setC w.a fun k => cadd (x.getC w.a k) (cmul (x.getC w.b k) (x.getC w.c k))
def execCmac (e c : Nat) (w : Kw) (s : State) : Host.Outcome State Fault Refusal := s.upd (mCmac e c w)

/-- CMULC: cmulc per pair (R273). -/
def mCmulc (e c : Nat) (w : Kw) (m : Module) : Module :=
  m.issueP e c 0x52 w fun x => x.setC w.a fun k => cmul (x.getC w.b k) (cconj (x.getC w.c k))
def execCmulc (e c : Nat) (w : Kw) (s : State) : Host.Outcome State Fault Refusal := s.upd (mCmulc e c w)

/-- CMAG2: cmag2 per pair (R273). -/
def mCmag2 (e c : Nat) (w : Kw) (m : Module) : Module :=
  m.issueP e c 0x53 w fun x => x.setC w.a fun k => cmag2 (x.getC w.b k)
def execCmag2 (e c : Nat) (w : Kw) (s : State) : Host.Outcome State Fault Refusal := s.upd (mCmag2 e c w)

/-- CEXP: the unit phasor per pair (R273). -/
def mCexp (e c : Nat) (w : Kw) (m : Module) : Module :=
  m.issueP e c 0x54 w fun x => x.setC w.a fun k => cOfPair (f32Cexp (x.getC w.b k).re)
def execCexp (e c : Nat) (w : Kw) (s : State) : Host.Outcome State Fault Refusal := s.upd (mCexp e c w)

/-- CPOL: magnitude and angle per pair (R273). -/
def mCpol (e c : Nat) (w : Kw) (m : Module) : Module :=
  m.issueP e c 0x55 w fun x => x.setC w.a fun k => cOfPair (f32Cpol (x.getC w.b k).re (x.getC w.b k).im)
def execCpol (e c : Nat) (w : Kw) (s : State) : Host.Outcome State Fault Refusal := s.upd (mCpol e c w)

/-- CSEQ: the sequence components (R273). -/
def mCseq (e c : Nat) (w : Kw) (m : Module) : Module :=
  m.issueP e c 0x56 w fun x => x.setC w.a (cseq fun k => (x.getC w.b k))
def execCseq (e c : Nat) (w : Kw) (s : State) : Host.Outcome State Fault Refusal := s.upd (mCseq e c w)

end Sys2Proof.Machine
end

