-- ==== Sys2Proof/Machine/RecRead.lean ====
section
/-!
DEFINITION. Reading records (R349, R368, Table 14.4).
-/

namespace Sys2Proof.Machine

/-- Index of the primary trigger (R354). -/
def AcqRec.primary (r : AcqRec) : Nat :=
  match (List.range 32).find? (bitOf r.bitmap) with
  | some c => c
  | none => if bitOf r.src 0 then 32 else 33

/-- A list of byte strings of n bytes each, filled with 0 to k entries. -/
def fillTo (k n : Nat) (l : List Bytes) : Bytes := l.flatten ++ List.replicate (n * (k - l.length)) 0

/-- The header of a record (Table 14.4); FIRST_TS of a record without rows is open. DESIGN CHOICE, assumption 19. -/
def Session.recHeader (x : Session) (s idx : Nat) (r : AcqRec) : Bytes :=
  let rows := x.recRows r
  let first := match rows.head? with
    | some w => w.instant
    | none => (Config.freeWord idx).toNat
  leBytes 4 r.recno ++ leBytes 1 s ++ leBytes 1 r.primary ++ leBytes 2 (x.recFlags r) ++ leBytes 8 r.trig ++ leBytes 4 r.trig ++
    leBytes 4 r.bitmap ++ leBytes 1 r.src ++ leBytes 1 (min 16 r.list.length) ++ leBytes 1 (min 16 r.rates.length) ++
    leBytes 1 r.origin ++ leBytes 4 rows.length ++ leBytes 4 first ++
    leBytes 4 (rows.foldl (fun a w => qCombine a w.qsum) 0) ++ leBytes 4 (8 + x.dataLen) ++ leBytes 4 (x.recTrend r).length ++
    List.replicate 16 0 ++
    fillTo 16 8 ((r.list.take 16).map fun (c, ts) => leBytes 1 c ++ [0, 0, 0] ++ leBytes 4 ts) ++
    fillTo 16 4 ((r.rates.take 16).map fun (n, rd) =>
      leBytes 3 ((rows.filter fun w => decide (w.idx < n)).length + 1) ++ leBytes 1 rd)

/-- Row p of a record, packed (R348), its tag replaced in COMTRADE format (R349); `bad` are the analogue columns of a poisoned
codeword (R476). DEDUCED, assumption 88. -/
def Session.rowBytes (x : Session) (first p : Nat) (w : AcqRow) (bad : List Nat) : Bytes :=
  let tag := if x.comtrade then leBytes 4 (p + 1) ++ leBytes 4 ((w.instant - first) / 1000)
    else leBytes 4 w.instant ++ leBytes 4 w.qsum
  let missing := leBytes 4 (if x.comtrade then 0x80000000 else 0x7FC00000)
  tag ++ bad.foldl (fun d c => if 4 * c + 4 ≤ d.length then d.take (4 * c) ++ missing ++ d.drop (4 * c + 4) else d) w.data

/-- A region of a record (R368). DEDUCED, assumption 88. -/
def Session.region (x : Session) (s idx region : Nat) (r : AcqRec) (poison : List (Nat × Nat)) : Bytes :=
  if region = 0 then x.recHeader s idx r
  else if region = 1 then
    let rows := x.recRows r
    let first := ((rows.head?).map (·.instant)).getD 0
    rows.zipIdx.flatMap fun (w, p) => x.rowBytes first p w ((poison.filter (·.1 == p)).map (·.2))
  else (x.recTrend r).flatMap (·.bytes)

/-- RECORD_READ: GO in ACQ_RD_CMD by the PF. -/
def mRecordRead (session entry region inst : Nat) (m : Module) : Module :=
  if !m.ready 8 ∨ m.mode = .reset ∨ m.mode = .load ∨ m.mode = .flush ∨ m.acq.read.isSome ∨ region % 4 = 3 then m
  else
    let i := inst % 4096
    let r : AcqRead := ⟨session % 16, entry % 64, region % 4, i, m.gen i, m.rd64 R.ACQ_RD_ADDR_LO_ADDR R.ACQ_RD_ADDR_HI_ADDR,
      m.rd R.ACQ_RD_OFF_VALUE, m.rd R.ACQ_RD_LEN_VALUE⟩
    { m with acq := { m.acq with read := some r } }.flag R.ACQ_RD_STAT_BUSY

/-- READ_DONE: the copy of the read in progress, and its STATUS. `err` is what the reads of the ring found; `poison` names the
rows and analogue columns of a codeword that is uncorrectable. DEDUCED, assumption 88. -/
def mReadDone (err : ReadErr) (poison : List (Nat × Nat)) (m : Module) : Module :=
  match m.acq.read with
  | none => m
  | some q =>
    if !m.hostOwned q.inst ∨ m.isolated q.inst ∨ m.gen q.inst ≠ q.gen then m.readEnd 4
    else match (m.acq.sessions.get? q.session).bind fun x => (x.recs.get? q.entry).map fun r => (x, r) with
    | none => m.readEnd 1
    | some (x, r) =>
      if !bitOf r.flags 0 ∨ bitOf r.flags 1 then m.readEnd 1
      else
        let bad := if err.isUe then poison else []
        let m := m.readReport err 0 0 3 x.inst 0
        let (idx, m) := m.freshIdx
        let b := x.region q.session idx q.region r bad
        if q.len = 0 ∨ 16777216 < q.len ∨ b.length < q.off + q.len then m.readEnd 2
        else if !m.reachable q.inst q.addr q.len true then (m.xltFault q.inst).readEnd 3
        else
          let m := if bad = [] then m else m.modRec q.session q.entry (·.mark 5)
          ((m.hostPut q.inst q.addr (slice b q.off q.len)).acqCnt 15).readEnd 0

def execRecordRead (session entry region inst : Nat) (s : State) : Host.Outcome State Fault Refusal :=
  s.upd (mRecordRead session entry region inst)
def execReadDone (err : ReadErr) (poison : List (Nat × Nat)) (s : State) : Host.Outcome State Fault Refusal :=
  s.upd (mReadDone err poison)

end Sys2Proof.Machine
end

