-- ==== Sys2Proof/Machine/Receive.lean ====
section
/-!
DEFINITION. Frames received at the ports (R129 to R131, R142, R143), the end of a cut-through frame (R157), links up and down (R127, R407),
MKA (R145, R451).
-/

namespace Sys2Proof.Machine

/-! ### Receive checks (Table 5.2) -/

/-- The PRP trailer of a frame (IEC 62439-3): sequence number, LAN, size; none without the suffix 0x88FB.
PRESUMED, assumption 49. -/
def prpTrailer (b : Bytes) : Option (Nat × Nat × Nat) :=
  let n := b.length
  if n < 20 ∨ beAt b (n - 2) 2 ≠ 0x88FB then none
  else some (beAt b (n - 6) 2, beAt b (n - 4) 2 / 4096, beAt b (n - 4) 2 % 4096)

/-- The sequence number of an HSR tag; none without a tag. PRESUMED, assumption 49. -/
def hsrSeq (b : Bytes) : Option Nat := if 18 ≤ b.length ∧ beAt b 12 2 = 0x892F then some (beAt b 16 2) else none

/-- The sequence number that a pair's mode puts on a frame: on PRP of a frame with a trailer, on HSR of any. -/
def redSeqOf (mode : Nat) (b : Bytes) : Option Nat := if mode = 1 then (prpTrailer b).map (·.1) else hsrSeq b

/-- A frame without what the pair's mode adds. PRESUMED, assumption 49. -/
def redStrip (mode : Nat) (b : Bytes) : Bytes :=
  if (redSeqOf mode b).isNone then b else if mode = 1 then b.take (b.length - 6) else b.take 12 ++ b.drop 18

/-- A link-local destination, whose frames carry no HSR tag. -/
def linkLocal (dst : Nat) : Bool := decide (0x0180C2000000 ≤ dst) && decide (dst ≤ 0x0180C200000F)

/-- Check 6: a PRP trailer names a LAN and the frame's size; on HSR every frame but a link-local one has a tag.
PRESUMED, assumption 49. -/
def redSound (mode : Nat) (b : Bytes) : Bool :=
  if mode = 1 then
    match prpTrailer b with
    | none => true
    | some (_, lan, size) => (lan == 10 || lan == 11) && size == ((ethRest b).length - 2) % 4096
  else (hsrSeq b).isSome || linkLocal (ethOf b).dst

/-- The counter of the first check that a frame fails, none for a frame that passes. DEDUCED, assumption 60. -/
def Module.rxFail (m : Module) (p : Nat) (f : RxFrame) : Option Nat :=
  let sec := m.isOn (R.MAC_CTRL_MACSEC_EN p) && (ethOf f.bytes).etype != 0x888E
  let secure := m.isOn (R.MAC_SEC_STAT_SECURE p)
  let len := f.bytes.length + 4 + (if sec && secure then 32 else 0)
  if f.codeError then some 4
  else if len < 64 then some 2
  else if m.rd (R.MAC_CTRL_MAX_LEN p) < len then some 3
  else if !f.fcsOk then some 1
  else if sec && (!secure || f.sec == .noSa) then some 12
  else if sec && f.sec == .icv then some 11
  else if m.inPair p && !redSound (m.redund (p / 2 * 2)) f.bytes then some 14
  else none

/-! ### Redundant pairs (R142) -/

/-- Whether a frame's source is the module itself. DESIGN CHOICE, assumption 22; DEDUCED, assumption 50. -/
def Module.ownSource (m : Module) (src : Nat) : Bool := src == Config.stationMac || src == m.lst.srcMac

/-- HSR: a frame not addressed to the module alone leaves the pair's other port as it is. -/
def Module.hsrForward (m : Module) (p : Nat) (b : Bytes) : Module :=
  let n := if p % 2 = 0 then p + 1 else p - 1
  if (ethOf b).dst = Config.stationMac ∨ linkLocal (ethOf b).dst ∨ !m.linkUp n then m else (m.emit (.frame n b m.tns)).macCnt n 6

/-- Whether a pair has seen a source's sequence number within 400 ms; a first copy is entered.
DEDUCED, assumption 50. -/
def Module.firstCopy (m : Module) (low src seq : Nat) : Bool × Module :=
  let l := (m.sw.dups.getD low []).filter fun (_, _, e) => decide (m.mono < e)
  if l.any fun (s, q, _) => s == src && q == seq then (false, m.macCnt low 13)
  else
    let l := (if 16384 ≤ l.length then l.drop 1 else l) ++ [(src, seq, m.mono + 400000000 * nsUnit)]
    (true, { m with sw := { m.sw with dups := m.sw.dups.set low l } })

/-- A passed frame on a port of a redundant pair. DEDUCED, assumption 50. -/
def Module.pairReceive (m : Module) (p : Nat) (b : Bytes) (t : Nat) : Module :=
  let low := p / 2 * 2
  let mode := m.redund low
  let src := (ethOf b).src
  if mode = 2 ∧ m.ownSource src then m.macCnt p 15
  else
    let m := if mode = 2 then m.hsrForward p b else m
    let first := match redSeqOf mode b with
      | some q => m.firstCopy low src q
      | none => (true, m)
    if first.1 then first.2.switchFrame low (redStrip mode b) t else first.2

/-! ### Frames -/

/-- The end of a frame on the cut-through path that has passed: its cells are settled and its copy waits at the output.
DEDUCED, assumption 54. -/
def Module.cutEnd (m : Module) (p : Nat) (x : CutThru) (b : Bytes) (t : Nat) : Module :=
  let m := { m with sw := { m.sw with cuts := m.sw.cuts.erase p } }.nextFrame
  let e := ethOf b
  let m := m.learn p e x.vid
  if !x.admitted then m
  else if !m.portUp x.dest ∧ !m.holding x.dest then m.macCnt x.dest 9
  else
    let b' := match m.classify p e with
      | some c => copyFor b c x.dest
      | none => b
    let q := QId.cls x.dest x.cls
    let c : Copy := ⟨b', cellsOf b', x.cls, p, t, m.tns, none, m.sw.nextFid, x.vid, e.tag.isSome⟩
    ((m.syncCredits x.dest).setQueue q (m.queue q ++ [c])).swCnt x.dest 1

/-- A MAC control frame (EtherType 0x8808): PAUSE or PFC, consumed at the port (R130). DEDUCED, assumption 51. -/
def Module.macControl (m : Module) (p : Nat) (b : Bytes) : Module :=
  let op := beAt b 14 2
  if op = 1 then mPauseFrame p false 0xFF [beAt b 16 2] m.tns m
  else if op = 0x0101 then
    mPauseFrame p true (beAt b 16 2 % 256) ((List.range 8).map fun q => beAt b (18 + 2 * q) 2) m.tns m
  else m.macCnt p 5

/-- A frame that has passed every check. A frame on PL goes to the pair, whose messages are commands of their own; PTP frames meet
the field triggers of their port first (Table 14.6). -/
def Module.rxPass (m : Module) (p : Nat) (b : Bytes) (t : Nat) : Module :=
  let m := m.macCnt p 0
  if 10 ≤ p then m
  else
    let pair := m.inPair p
    let plain := if pair then redStrip (m.redund (p / 2 * 2)) b else b
    let m := if (ethOf plain).etype = 0x88F7 then m.fieldTrig 3 p plain (fun _ => none) t else m
    if pair then m.pairReceive p b t
    else match m.sw.cuts.get? p with
      | some x => m.cutEnd p x b t
      | none => m.switchFrame p b t

/-- FRAME_RECEIVE: a frame whose first bit after the SFD came at t has been received whole at port p.
DEDUCED, assumption 60. -/
def mFrameReceive (p : Nat) (f : RxFrame) (t : Nat) (m : Module) : Module :=
  let m := m.reach t
  if 10 < p ∨ !m.swOn ∨ !m.isOn (R.MAC_STATUS_LINK p) then m
  else match m.rxFail p f with
    | some k => { m with sw := { m.sw with cuts := m.sw.cuts.erase p } }.macCnt p k
    | none =>
      if (ethOf f.bytes).etype = 0x8808 then { m with sw := { m.sw with cuts := m.sw.cuts.erase p } }.macControl p f.bytes
      else m.rxPass p f.bytes t

/-! ### Links -/

/-- PL is up after being down: every instance is out of sync (R407). -/
def Module.linkPair (m : Module) : Module :=
  if !m.paired then m
  else (m.instances.foldl (fun m i => (m.setUnsynced i).redEvent 4 3 i i) m).judgeWindows

/-- LINK_UP: a port's PCS has held lock for 100 µs. DEDUCED, assumption 95. -/
def mLinkUp (p : Nat) (m : Module) : Module :=
  if 10 < p then m
  else
    let was := m.linkUp p
    let m := m.portLinkUp p
    if p = 10 ∧ !was ∧ m.linkUp 10 then m.linkPair else m

/-- LINK_DOWN: 10 µs of lost lock or fault at a port. -/
def mLinkDown (p : Nat) (m : Module) : Module := if 10 < p then m else m.portDown p

/-! ### MKA (R145, R451) -/

/-- EAPOL_FRAME: the Steward takes an EAPOL frame of port p. Where MKA agrees on an SAK, `an` is its association number, and `server`
says that the module, as key server, draws it. DEDUCED, assumption 52; PRESUMED, assumption 59. -/
def mEapolFrame (p : Nat) (an : Option Nat) (server : Bool) (t : Nat) (m : Module) : Module :=
  let m := m.reach t
  let m := if p < 10 then m.takeEp fun c => (ethOf c.bytes).etype == 0x888E && c.inp == (if m.inPair p then p / 2 * 2 else p) else m
  let ready := match (m.keys.ports.get? p).bind (·.cak) with
    | some s => (m.slot s).state == .ready && (m.slot s).attr == 2
    | none => false
  match an with
  | none => m
  | some n =>
    if 10 < p ∨ !m.ready 12 ∨ !m.isOn (R.MAC_CTRL_MACSEC_EN p) ∨ !m.isOn (R.MAC_STATUS_LINK p) ∨ !ready ∨
        (server && m.rngFailed) then m
    else
      let was := m.linkUp p
      let m := if server then m.keyCnt 5 else m
      let m := (m.flag (R.MAC_SEC_STAT_SECURE p)).wr (R.MAC_SEC_STAT_TX_AN p) n
      if p = 10 ∧ !was then m.linkPair else m

def execLinkUp (p : Nat) (s : State) : Host.Outcome State Fault Refusal := s.upd (mLinkUp p)
def execLinkDown (p : Nat) (s : State) : Host.Outcome State Fault Refusal := s.upd (mLinkDown p)
def execFrameReceive (p : Nat) (f : RxFrame) (t : Nat) (s : State) : Host.Outcome State Fault Refusal := s.upd (mFrameReceive p f t)
def execEapolFrame (p : Nat) (an : Option Nat) (server : Bool) (t : Nat) (s : State) : Host.Outcome State Fault Refusal :=
  s.upd (mEapolFrame p an server t)

end Sys2Proof.Machine
end

