-- ==== Sys2Proof/Machine/Servo.lean ====
section
/-!
DEFINITION. The servo on an offset of a source (R186 to R191): what a step of the primary clock ends (R189, R213).
-/

namespace Sys2Proof.Machine

/-! ### What a step ends (R189) -/

/-- Task cycles whose budget or deadline window has closed at the new time, or every one (R303).
DEDUCED, assumption 62. -/
def Module.stepCycles (m : Module) (all : Bool) : Module :=
  let m := (m.ctxsOf fun _ => true).foldl (fun m (e, c, x) =>
    match x.firstAt, m.taskRec x.task with
    | some f, some r => if all ∨ f + r.budgetNs * nsUnit ≤ m.mono then mBudgetOverrun e c m else m
    | _, _ => m) m
  let due := m.cul.tasks.flatMap fun (t, r) =>
    let cts := ((m.ctxsOf fun x => x.task == t).map fun (_, _, x) => x.ct) ++ (m.task t).opens.map (·.ct)
    (cts.filter fun ct => all || decide (m.nsOfTs ct + r.deadlineNs ≤ m.tns)).map fun ct => (t, ct)
  due.foldl (fun m (t, ct) => mDeadlineExpiry t ct m) m

/-- Commit groups and the hold windows of ports. DEDUCED, assumption 62. -/
def Module.stepHolds (m : Module) (all : Bool) : Module :=
  let m := m.press.groups.foldl (fun m (g, c) =>
    if all ∨ GroupColl.close m c.ct c.deadlineUs ≤ m.tns then mGroupWindowEnd g m else m) m
  m.sw.holdEnd.foldl (fun m (p, e) => if all ∨ e ≤ m.mono then mHoldEnd p m else m) m

/-- The windows that only a step of 1 s or more ends here: echoes, the freeze, transactions, violations, learned and duplicate
entries, mismatches, the pair's, those of RIPEN. DEDUCED, assumption 62. -/
def Module.stepOthers (m : Module) : Module :=
  let m := mAutomaticThaw (mOutLinkExpiry (mEchoTimeout m))
  let m := (List.range 8).foldl (fun m n => mTxnTimeout n m) m
  let m := m.host.viol.foldl (fun m (k, _) => m.setViol k []) m
  let ages := m.rd R.SWC_CTRL_LEARN_AGE_S != 0
  let kept : SMap FdbEntry := m.sw.fdb.filter fun x => x.2.static || !ages
  let m : Module := { m with sw := { m.sw with fdb := kept, dups := [] } }
  let m := m.engines.foldl (fun (m : Module) (e, g) => m.setEngine e { g with mism := [] }) m
  let m := m.red.own.foldl (fun m _ => mDigestUnmatched m) m
  let m := m.red.xfers.foldl (fun m (i, _) => mXferTimeout i m) m
  let m := [0, 1].foldl (fun m p => mHeartbeatPathLost p m) m
  let m := mHealthWindowEnd 4 (mHealthWindowEnd 3 (mPeerWaitEnd (mPeerLost m)))
  mRipenTimeout (mTimeWaitEnd m)

/-- A step by -θ: the clock moves, and with it every window (R188, R189, R213). DEDUCED, assumption 62. -/
def Module.stepClock (m : Module) (theta : Int) (tau : Nat) : Module :=
  let a := m.tns
  let m := m.moveClock theta tau
  let b := m.tns
  let all := decide (a + 1000000000 ≤ b) || decide (b + 1000000000 ≤ a)
  let m := { m.tickFrom (b - 1) with sys := { m.sys with still := true } }
  let m := (((m.vatStep a b).gooseStep all).lstStep all).stepCycles all
  let m := m.stepHolds all
  let m := if all then m.stepOthers else m
  { m with sys := { m.sys with still := false } }

/-! ### An offset (R187, R188) -/

/-- What the selected source says of UTC. -/
def Module.takeUtc (m : Module) (o : TimeOffset) : Module :=
  match o.utc with
  | none => m
  | some (off, l61, l59) =>
    ((m.wr R.TIM_UTC_UTC_OFFSET off).wr R.TIM_UTC_LEAP61 (b2n l61)).wr R.TIM_UTC_LEAP59 (b2n l59) |>.flag R.TIM_UTC_VALID

/-- θ in ns as TIM_OFFSET shows it. -/
def thetaShown (theta : Int) : Nat := unsignedOf (clampTo 2147483647 (divRne theta 65536)) 32

/-- An offset from the selected source: a step, a slew, or the servo's equations. -/
def Module.takeOffset (m : Module) (o : TimeOffset) : Module :=
  let m := ((m.timCnt 0).wr R.TIM_OFFSET_THETA (thetaShown o.theta)).takeUtc o
  if m.rd R.TIM_STEP_NS_STEP_NS * 65536 ≤ o.theta.natAbs then
    if !m.ready 3 || m.isOn R.TIM_LIMITS_STEP_RUN_EN then m.stepClock o.theta o.tau else m.slew o.theta o.tau
  else (m.servo o.theta o.tau).lockAfter o.theta

/-- SERVO_OFFSET: the oldest offset that waits. It may begin its source's run, qualify it and select it. -/
def mServoOffset (m : Module) : Module :=
  match m.tim.offsets with
  | [] => m
  | o :: rest =>
    let m : Module := { m with tim := { m.tim with offsets := rest } }
    if !m.ready 0 ∨ m.mode = .reset ∨ !m.srcEnabled o.src ∨ (o.src = 1 ∧ !m.ptpSlave) then m
    else
      let m := m.runOffset o.src
      if m.tim.selected = some o.src then m.takeOffset o else m

def execServoOffset (s : State) : Host.Outcome State Fault Refusal := s.upd mServoOffset

end Sys2Proof.Machine
end

