-- ==== Sys2Proof/Machine/Snapshot.lean ====
section
/-!
DEFINITION. Snapshot reads (R64 to R66).
-/

namespace Sys2Proof.Machine

/-- Item k of a descriptor (Table 2.5). -/
def snapItem (b : Bytes) (k : Nat) : SnapReq :=
  let o := 16 + 16 * k
  ⟨leAt b o 1, leAt b (o + 4) 2 % 4096, leAt b (o + 6) 2, leAt b (o + 8) 8⟩

/-- Whether an item has the form of Table 2.5. -/
def snapForm (b : Bytes) (k : Nat) : Bool :=
  let o := 16 + 16 * k
  let r := snapItem b k
  decide (r.kind ≤ 3) && leAt b (o + 1) 3 == 0 && leAt b (o + 4) 2 == r.inst &&
    decide (4 ≤ r.len) && decide (r.len ≤ 4096) && r.len % 4 == 0 && (r.kind != 0 || r.addr % 4 == 0)

/-- Whether a VF may name an item: its own window, variables and data of its instances (R66). -/
def Module.snapAllowed (m : Module) (fn : Nat) (r : SnapReq) : Bool :=
  fn == 0 ||
    (if r.kind = 0 then decide (r.addr + r.len ≤ 0x10000)
    else if r.kind = 1 then (match m.cul.vars.get? r.addr with
      | some v => m.owns fn v.inst
      | none => false)
    else m.owns fn r.inst)

/-- The tasks of an instance, ascending. -/
def Module.tasksOf (m : Module) (i : Nat) : List (Nat × TaskRec) := m.cul.tasks.filter fun (_, r) => r.inst == i

/-- Whether what an item names exists over its whole length. -/
def Module.snapExists (m : Module) (r : SnapReq) : Bool :=
  if r.kind = 0 then true
  else if r.kind = 1 then (m.cul.vars.get? r.addr).isSome && decide (r.len ≤ 16)
  else if r.kind = 2 then m.instAdmitted r.inst && (m.tasksOf r.inst).any fun (_, t) => decide (r.addr + r.len ≤ t.outLen)
  else m.instAdmitted r.inst && decide (r.addr + r.len ≤ m.cul.instSizes.getD r.inst 0)

/-- The STATUS that an item gives, 0 for none. DEDUCED, assumption 84. -/
def Module.snapStatus (m : Module) (fn : Nat) (b : Bytes) (k : Nat) : Nat :=
  let r := snapItem b k
  if !snapForm b k then 2
  else if !m.snapAllowed fn r then 1
  else if !m.snapExists r then 2 else 0

/-- The STATUS of a descriptor of n items and the first item that caused it: items in order, their total at most 4,096.
DEDUCED, assumption 84. -/
def Module.snapJudge (m : Module) (fn : Nat) (b : Bytes) (n : Nat) : Nat × Nat :=
  ((List.range n).foldl (fun ((st : Nat), (fail : Nat), (total : Nat)) k =>
    if st ≠ 0 then (st, fail, total)
    else
      let w := m.snapStatus fn b k
      let total := total + (snapItem b k).len
      if w ≠ 0 then (w, k, total) else if 4096 < total then (3, k, total) else (0, 0, total)) (0, 0, 0)) |>
    fun (st, fail, _) => (st, fail)

/-- The bytes of an item, from the latest visible epoch. A variable reads as in an input image (Table 12.3); the output image of an
instance with several tasks is open. DESIGN CHOICE, assumption 19; DEDUCED, assumption 84. -/
def Module.snapBytes (m : Module) (fn : Nat) (r : SnapReq) : Bytes :=
  if r.kind = 0 then (List.range (r.len / 4)).flatMap fun k => leBytes 4 (m.word (fnAddr fn (r.addr + 4 * k)))
  else if r.kind = 1 then
    let (q, v) := m.vars.getD r.addr (0, 0)
    slice (leBytes 4 q ++ [0, 0, 0, 0] ++ leBytes 8 v) 0 r.len
  else if r.kind = 2 then
    match m.tasksOf r.inst with
    | [(t, _)] => memBytes (m.outImg.getD t []) r.addr r.len
    | _ => (List.range (r.len / 4)).flatMap fun k => leBytes 4 (Config.freeWord (m.freeIdx + k)).toNat
  else memBytes (m.instData r.inst) r.addr r.len

/-- SNAPSHOT_GO: GO of the PF or of a VF; ignored while BUSY. -/
def mSnapshotGo (fn : Nat) (m : Module) : Module :=
  let busy := fnReg fn 0x900314 0x24 0 1
  if 255 < fn ∨ !m.ready 7 ∨ m.mode = .reset ∨ m.mode = .load ∨ m.mode = .flush ∨ m.isOn busy then m
  else
    let desc := m.rd64 (fnReg fn 0x900300 0x10 0 32) (fnReg fn 0x900304 0x14 0 32)
    let res := m.rd64 (fnReg fn 0x900308 0x18 0 32) (fnReg fn 0x90030c 0x1c 0 32)
    { m with press := { m.press with snaps := m.press.snaps ++ [(fn, desc, res)] } }.wr busy 1

/-- Ends the snapshot of a function. -/
def Module.snapEnd (m : Module) (fn : Nat) : Module :=
  let m := { m with press := { m.press with snapAt := some m.press.visible } }
  (m.wr (fnReg fn 0x900314 0x24 0 1) 0).wr (fnReg fn 0x900314 0x24 1 1) 1

/-- Writes a result through an instance. -/
def Module.snapResult (m : Module) (fn i res status fail : Nat) (items : Bytes) : Module :=
  let b := leBytes 8 m.press.visible ++ leBytes 4 m.press.visibleTs ++ leBytes 2 status ++ leBytes 2 fail ++
    List.replicate 16 0 ++ items
  (if m.reachable i res b.length true then m.hostPut i res b else m.xltFault i).snapEnd fn

/-- SNAPSHOT_SERVE: the oldest request, with the descriptor that its read found, none where the read failed. While records wait, one
snapshot between two epochs. DESIGN CHOICE, assumption 8; DEDUCED, assumption 84. -/
def mSnapshotServe (desc : Option Bytes) (m : Module) : Module :=
  match m.press.snaps with
  | [] => m
  | (fn, d, res) :: rest =>
    let wait := m.press.pending ≠ [] ∨ m.press.complete ≠ []
    if !m.pressOn ∨ (wait ∧ m.press.snapAt = some m.press.visible) then m
    else
      let m : Module := { m with press := { m.press with snaps := rest } }
      match desc with
      | none => m.snapEnd fn
      | some b =>
        let n := leAt b 0 2
        let i := leAt b 2 2 % 4096
        if fn ≠ 0 ∧ !m.owns fn i then (m.violation 7 fn none).snapEnd fn
        else if !m.hostOwned i ∨ m.isolated i then m.snapEnd fn
        else if !m.reachable i d (16 + 16 * n) false then (m.xltFault i).snapEnd fn
        else if fn ≠ 0 ∧ !m.isOn R.PRS_CTRL_SNAP_VF_EN then m.snapResult fn i res 1 0 []
        else if n = 0 ∨ 256 < n ∨ leAt b 2 2 ≠ i ∨ leAt b 4 12 ≠ 0 ∨ d % 16 ≠ 0 ∨ res % 32 ≠ 0 then m.snapResult fn i res 2 0 []
        else
          match m.snapJudge fn b n with
          | (0, _) =>
            let rs := (List.range n).map (snapItem b)
            let total := rs.foldl (fun a r => a + r.len) 0
            let (m, items) := rs.foldl (fun ((m : Module), (acc : Bytes)) r =>
              ({ m with freeIdx := m.freeIdx + r.len / 4 }, acc ++ m.snapBytes fn r)) (m, [])
            (m.adv (fabric (2 + ceilDiv total 32))).snapResult fn i res 0 0 items
          | (st, k) => (if st = 1 then m.violation 7 fn none else m).snapResult fn i res st k []

def execSnapshotGo (fn : Nat) (s : State) : Host.Outcome State Fault Refusal := s.upd (mSnapshotGo fn)
def execSnapshotServe (desc : Option Bytes) (s : State) : Host.Outcome State Fault Refusal := s.upd (mSnapshotServe desc)

end Sys2Proof.Machine
end

