-- ==== Sys2Proof/Machine/Dispatch.lean ====
section
/-!
DEFINITION. One arm per command: a direct call of its meaning.
-/

namespace Sys2Proof.Machine

/-- The effect of a command on everything but the queue. -/
def exec (i : Instr) (s : State) : Host.Outcome State Fault Refusal :=
  match i with
  | .regWrite fn off v => Sys2Proof.Machine.execRegWrite fn off v s
  | .narrowWrite fn => Sys2Proof.Machine.execNarrowWrite fn s
  | .rcRead fn off => Sys2Proof.Machine.execRcRead fn off s
  | .lowWordRead fn off => Sys2Proof.Machine.execLowWordRead fn off s
  | .violationWindowExpiry key => Sys2Proof.Machine.execViolationWindowExpiry key s
  | .powerOn rested => Sys2Proof.Machine.execPowerOn rested s
  | .resetExit sw bankMv slotMv auxMv => Sys2Proof.Machine.execResetExit sw bankMv slotMv auxMv s
  | .powerFail => Sys2Proof.Machine.execPowerFail s
  | .flushDone power => Sys2Proof.Machine.execFlushDone power s
  | .holdupLow bankMv => Sys2Proof.Machine.execHoldupLow bankMv s
  | .thermalWarning die inlet => Sys2Proof.Machine.execThermalWarning die inlet s
  | .thermalCritical die inlet => Sys2Proof.Machine.execThermalCritical die inlet s
  | .thermalTrip die inlet => Sys2Proof.Machine.execThermalTrip die inlet s
  | .clockCheck osc lock => Sys2Proof.Machine.execClockCheck osc lock s
  | .sysReset v => Sys2Proof.Machine.execSysReset v s
  | .moduleReset causes => Sys2Proof.Machine.execModuleReset causes s
  | .pcieReset => Sys2Proof.Machine.execPcieReset s
  | .pfFunctionLevelReset => Sys2Proof.Machine.execPfFunctionLevelReset s
  | .vfFunctionLevelReset fn => Sys2Proof.Machine.execVfFunctionLevelReset fn s
  | .stewardWatchdogExpiry => Sys2Proof.Machine.execStewardWatchdogExpiry s
  | .sealReread sw => Sys2Proof.Machine.execSealReread sw s
  | .loadComplete => Sys2Proof.Machine.execLoadComplete s
  | .readinessSet bit => Sys2Proof.Machine.execReadinessSet bit s
  | .timeWaitEnd => Sys2Proof.Machine.execTimeWaitEnd s
  | .ripenTimeout => Sys2Proof.Machine.execRipenTimeout s
  | .enterTest => Sys2Proof.Machine.execEnterTest s
  | .leaveTest => Sys2Proof.Machine.execLeaveTest s
  | .stageGo target inst => Sys2Proof.Machine.execStageGo target inst s
  | .stageDone image ok left => Sys2Proof.Machine.execStageDone image ok left s
  | .linkUp p => Sys2Proof.Machine.execLinkUp p s
  | .linkDown p => Sys2Proof.Machine.execLinkDown p s
  | .cageSignalChange p absent fault los copper rates => Sys2Proof.Machine.execCageSignalChange p absent fault los copper rates s
  | .sfpDiagRead p temp rxPwr alarm => Sys2Proof.Machine.execSfpDiagRead p temp rxPwr alarm s
  | .macCtrlWrite p v => Sys2Proof.Machine.execMacCtrlWrite p v s
  | .frameReceive p f t => Sys2Proof.Machine.execFrameReceive p f t s
  | .duplicateEntryExpiry p => Sys2Proof.Machine.execDuplicateEntryExpiry p s
  | .supervisionSend p => Sys2Proof.Machine.execSupervisionSend p s
  | .pauseFrame p pfc enable times t => Sys2Proof.Machine.execPauseFrame p pfc enable times t s
  | .pauseExpiry p q => Sys2Proof.Machine.execPauseExpiry p q s
  | .frameStart p => Sys2Proof.Machine.execFrameStart p s
  | .holdEnd p => Sys2Proof.Machine.execHoldEnd p s
  | .tsqPop p => Sys2Proof.Machine.execTsqPop p s
  | .eapolFrame p an server t => Sys2Proof.Machine.execEapolFrame p an server t s
  | .learnAgeOut mac vid => Sys2Proof.Machine.execLearnAgeOut mac vid s
  | .flushLearned => Sys2Proof.Machine.execFlushLearned s
  | .tblRead table index => Sys2Proof.Machine.execTblRead table index s
  | .tblWrite table index => Sys2Proof.Machine.execTblWrite table index s
  | .tblDelete => Sys2Proof.Machine.execTblDelete s
  | .minCellsWrite p q cells => Sys2Proof.Machine.execMinCellsWrite p q cells s
  | .nowRead fn => Sys2Proof.Machine.execNowRead fn s
  | .vcNowRead fn v => Sys2Proof.Machine.execVcNowRead fn v s
  | .vcRateWrite v rate => Sys2Proof.Machine.execVcRateWrite v rate s
  | .vcOffWrite fn v hi => Sys2Proof.Machine.execVcOffWrite fn v hi s
  | .ptpMessage x t => Sys2Proof.Machine.execPtpMessage x t s
  | .syncSend p => Sys2Proof.Machine.execSyncSend p s
  | .servoOffset => Sys2Proof.Machine.execServoOffset s
  | .sourceLost src => Sys2Proof.Machine.execSourceLost src s
  | .haulatoEdge t => Sys2Proof.Machine.execHaulatoEdge t s
  | .haulatoTimeFrame b t => Sys2Proof.Machine.execHaulatoTimeFrame b t s
  | .haulatoOriginEdge => Sys2Proof.Machine.execHaulatoOriginEdge s
  | .echoRequest token => Sys2Proof.Machine.execEchoRequest token s
  | .echoAnswer b t => Sys2Proof.Machine.execEchoAnswer b t s
  | .echoRequestReceive b t => Sys2Proof.Machine.execEchoRequestReceive b t s
  | .echoTimeout => Sys2Proof.Machine.execEchoTimeout s
  | .irigbFrame utcSec t => Sys2Proof.Machine.execIrigbFrame utcSec t s
  | .svFrame x t => Sys2Proof.Machine.execSvFrame x t s
  | .instantOpen v => Sys2Proof.Machine.execInstantOpen v s
  | .windowEnd v => Sys2Proof.Machine.execWindowEnd v s
  | .curdFrameClose v => Sys2Proof.Machine.execCurdFrameClose v s
  | .chainOutput c => Sys2Proof.Machine.execChainOutput c s
  | .curdFrameVisible v drained err poison => Sys2Proof.Machine.execCurdFrameVisible v drained err poison s
  | .deltaUpdate => Sys2Proof.Machine.execDeltaUpdate s
  | .sigmaUpdate => Sys2Proof.Machine.execSigmaUpdate s
  | .windowWrite v w => Sys2Proof.Machine.execWindowWrite v w s
  | .chainSwitch fn c stage set k => Sys2Proof.Machine.execChainSwitch fn c stage set k s
  | .chainReset fn c => Sys2Proof.Machine.execChainReset fn c s
  | .fadeStart => Sys2Proof.Machine.execFadeStart s
  | .cmemWrite fn v => Sys2Proof.Machine.execCmemWrite fn v s
  | .setWrite fn set v => Sys2Proof.Machine.execSetWrite fn set v s
  | .operandArrival => Sys2Proof.Machine.execOperandArrival s
  | .tick task slot => Sys2Proof.Machine.execTick task slot s
  | .dispatch => Sys2Proof.Machine.execDispatch s
  | .captureDone e c dram curd poison => Sys2Proof.Machine.execCaptureDone e c dram curd poison s
  | .budgetOverrun e c => Sys2Proof.Machine.execBudgetOverrun e c s
  | .deadlineExpiry task ct => Sys2Proof.Machine.execDeadlineExpiry task ct s
  | .progressMark e c => Sys2Proof.Machine.execProgressMark e c s
  | .taskEnable task => Sys2Proof.Machine.execTaskEnable task s
  | .taskDisable task => Sys2Proof.Machine.execTaskDisable task s
  | .taskCancel task => Sys2Proof.Machine.execTaskCancel task s
  | .slowClr mask => Sys2Proof.Machine.execSlowClr mask s
  | .tracePop => Sys2Proof.Machine.execTracePop s
  | .olcWindowWrite w x v => Sys2Proof.Machine.execOlcWindowWrite w x v s
  | .forceEnable f v => Sys2Proof.Machine.execForceEnable f v s
  | .forceDisable f v => Sys2Proof.Machine.execForceDisable f v s
  | .gooseFrame x t => Sys2Proof.Machine.execGooseFrame x t s
  | .gooseTalExpiry j => Sys2Proof.Machine.execGooseTalExpiry j s
  | .gooseRepeat p => Sys2Proof.Machine.execGooseRepeat p s
  | .handOff e c => Sys2Proof.Machine.execHandOff e c s
  | .admission errs => Sys2Proof.Machine.execAdmission errs s
  | .visibilityPoint err => Sys2Proof.Machine.execVisibilityPoint err s
  | .groupWindowEnd g => Sys2Proof.Machine.execGroupWindowEnd g s
  | .txnBegin n => Sys2Proof.Machine.execTxnBegin n s
  | .txnDataWrite n v => Sys2Proof.Machine.execTxnDataWrite n v s
  | .txnCommit n => Sys2Proof.Machine.execTxnCommit n s
  | .txnCommitAt n => Sys2Proof.Machine.execTxnCommitAt n s
  | .txnAtReached n => Sys2Proof.Machine.execTxnAtReached n s
  | .txnAbort n => Sys2Proof.Machine.execTxnAbort n s
  | .txnTimeout n => Sys2Proof.Machine.execTxnTimeout n s
  | .snapshotGo fn => Sys2Proof.Machine.execSnapshotGo fn s
  | .snapshotServe desc => Sys2Proof.Machine.execSnapshotServe desc s
  | .selfTestEnd e pass => Sys2Proof.Machine.execSelfTestEnd e pass s
  | .lockstepMismatch e => Sys2Proof.Machine.execLockstepMismatch e s
  | .mismatchAgeOut e => Sys2Proof.Machine.execMismatchAgeOut e s
  | .fence e => Sys2Proof.Machine.execFence e s
  | .unfence e => Sys2Proof.Machine.execUnfence e s
  | .retest e => Sys2Proof.Machine.execRetest e s
  | .drainDone e => Sys2Proof.Machine.execDrainDone e s
  | .add e c w => Sys2Proof.Machine.execAdd e c w s
  | .sub e c w => Sys2Proof.Machine.execSub e c w s
  | .mul e c w => Sys2Proof.Machine.execMul e c w s
  | .mulh e c w => Sys2Proof.Machine.execMulh e c w s
  | .div e c w => Sys2Proof.Machine.execDiv e c w s
  | .rem e c w => Sys2Proof.Machine.execRem e c w s
  | .and e c w => Sys2Proof.Machine.execAnd e c w s
  | .or e c w => Sys2Proof.Machine.execOr e c w s
  | .xor e c w => Sys2Proof.Machine.execXor e c w s
  | .shl e c w => Sys2Proof.Machine.execShl e c w s
  | .shr e c w => Sys2Proof.Machine.execShr e c w s
  | .sar e c w => Sys2Proof.Machine.execSar e c w s
  | .min e c w => Sys2Proof.Machine.execMin e c w s
  | .max e c w => Sys2Proof.Machine.execMax e c w s
  | .adds e c w => Sys2Proof.Machine.execAdds e c w s
  | .addi e c w => Sys2Proof.Machine.execAddi e c w s
  | .andi e c w => Sys2Proof.Machine.execAndi e c w s
  | .ori e c w => Sys2Proof.Machine.execOri e c w s
  | .xori e c w => Sys2Proof.Machine.execXori e c w s
  | .shli e c w => Sys2Proof.Machine.execShli e c w s
  | .shri e c w => Sys2Proof.Machine.execShri e c w s
  | .sari e c w => Sys2Proof.Machine.execSari e c w s
  | .movi e c w => Sys2Proof.Machine.execMovi e c w s
  | .movh e c w => Sys2Proof.Machine.execMovh e c w s
  | .cmp e c w => Sys2Proof.Machine.execCmp e c w s
  | .cmpi e c w => Sys2Proof.Machine.execCmpi e c w s
  | .plog e c w => Sys2Proof.Machine.execPlog e c w s
  | .pget e c w => Sys2Proof.Machine.execPget e c w s
  | .pset e c w => Sys2Proof.Machine.execPset e c w s
  | .fadd e c w => Sys2Proof.Machine.execFadd e c w s
  | .fsub e c w => Sys2Proof.Machine.execFsub e c w s
  | .fmul e c w => Sys2Proof.Machine.execFmul e c w s
  | .fma e c w => Sys2Proof.Machine.execFma e c w s
  | .fdiv e c w => Sys2Proof.Machine.execFdiv e c w s
  | .fsqrt e c w => Sys2Proof.Machine.execFsqrt e c w s
  | .fmin e c w => Sys2Proof.Machine.execFmin e c w s
  | .fmax e c w => Sys2Proof.Machine.execFmax e c w s
  | .fsgn e c w => Sys2Proof.Machine.execFsgn e c w s
  | .fcmp e c w => Sys2Proof.Machine.execFcmp e c w s
  | .itof e c w => Sys2Proof.Machine.execItof e c w s
  | .ftoi e c w => Sys2Proof.Machine.execFtoi e c w s
  | .vadd e c w => Sys2Proof.Machine.execVadd e c w s
  | .vsub e c w => Sys2Proof.Machine.execVsub e c w s
  | .vmul e c w => Sys2Proof.Machine.execVmul e c w s
  | .vfma e c w => Sys2Proof.Machine.execVfma e c w s
  | .vmin e c w => Sys2Proof.Machine.execVmin e c w s
  | .vmax e c w => Sys2Proof.Machine.execVmax e c w s
  | .vbc e c w => Sys2Proof.Machine.execVbc e c w s
  | .vext e c w => Sys2Proof.Machine.execVext e c w s
  | .vins e c w => Sys2Proof.Machine.execVins e c w s
  | .vsum e c w => Sys2Proof.Machine.execVsum e c w s
  | .vdot e c w => Sys2Proof.Machine.execVdot e c w s
  | .vscl e c w => Sys2Proof.Machine.execVscl e c w s
  | .cmul e c w => Sys2Proof.Machine.execCmul e c w s
  | .cmac e c w => Sys2Proof.Machine.execCmac e c w s
  | .cmulc e c w => Sys2Proof.Machine.execCmulc e c w s
  | .cmag2 e c w => Sys2Proof.Machine.execCmag2 e c w s
  | .cexp e c w => Sys2Proof.Machine.execCexp e c w s
  | .cpol e c w => Sys2Proof.Machine.execCpol e c w s
  | .cseq e c w => Sys2Proof.Machine.execCseq e c w s
  | .ld e c w err => Sys2Proof.Machine.execLd e c w err s
  | .st e c w => Sys2Proof.Machine.execSt e c w s
  | .vld e c w err => Sys2Proof.Machine.execVld e c w err s
  | .vst e c w => Sys2Proof.Machine.execVst e c w s
  | .setb e c w => Sys2Proof.Machine.execSetb e c w s
  | .rdsr e c w => Sys2Proof.Machine.execRdsr e c w s
  | .wrsr e c w => Sys2Proof.Machine.execWrsr e c w s
  | .rdclk e c w => Sys2Proof.Machine.execRdclk e c w s
  | .crdv e c w => Sys2Proof.Machine.execCrdv e c w s
  | .crdq e c w => Sys2Proof.Machine.execCrdq e c w s
  | .crdh e c w => Sys2Proof.Machine.execCrdh e c w s
  | .globalReadAnswer e c err => Sys2Proof.Machine.execGlobalReadAnswer e c err s
  | .ton e c w err => Sys2Proof.Machine.execTon e c w err s
  | .tof e c w err => Sys2Proof.Machine.execTof e c w err s
  | .tp e c w err => Sys2Proof.Machine.execTp e c w err s
  | .edge e c w err => Sys2Proof.Machine.execEdge e c w err s
  | .br e c w => Sys2Proof.Machine.execBr e c w s
  | .brr e c w => Sys2Proof.Machine.execBrr e c w s
  | .call e c w => Sys2Proof.Machine.execCall e c w s
  | .callr e c w => Sys2Proof.Machine.execCallr e c w s
  | .ret e c w => Sys2Proof.Machine.execRet e c w s
  | .trap e c w => Sys2Proof.Machine.execTrap e c w s
  | .nop e c w => Sys2Proof.Machine.execNop e c w s
  | .pubv e c w => Sys2Proof.Machine.execPubv e c w s
  | .frm e c w => Sys2Proof.Machine.execFrm e c w s
  | .frmr e c w err => Sys2Proof.Machine.execFrmr e c w err s
  | .evm e c w => Sys2Proof.Machine.execEvm e c w s
  | .recm e c w => Sys2Proof.Machine.execRecm e c w s
  | .commit e c w => Sys2Proof.Machine.execCommit e c w s
  | .drop e c w => Sys2Proof.Machine.execDrop e c w s
  | .crci e c w => Sys2Proof.Machine.execCrci e c w s
  | .crcf e c w => Sys2Proof.Machine.execCrcf e c w s
  | .crcb e c w err => Sys2Proof.Machine.execCrcb e c w err s
  | .crct e c w => Sys2Proof.Machine.execCrct e c w s
  | .crcx e c w => Sys2Proof.Machine.execCrcx e c w s
  | .trc e c w => Sys2Proof.Machine.execTrc e c w s
  | .dbCommandTail fn inst idx => Sys2Proof.Machine.execDbCommandTail fn inst idx s
  | .dbCompletionHead fn inst idx => Sys2Proof.Machine.execDbCompletionHead fn inst idx s
  | .dbReceiveTail fn inst idx => Sys2Proof.Machine.execDbReceiveTail fn inst idx s
  | .dbExportConsumer fn inst v idx => Sys2Proof.Machine.execDbExportConsumer fn inst v idx s
  | .cmdNop inst => Sys2Proof.Machine.execCmdNop inst s
  | .cmdSend inst => Sys2Proof.Machine.execCmdSend inst s
  | .cmdTime inst => Sys2Proof.Machine.execCmdTime inst s
  | .receiveDelivery inst => Sys2Proof.Machine.execReceiveDelivery inst s
  | .exportFrameWrite inst v err poison => Sys2Proof.Machine.execExportFrameWrite inst v err poison s
  | .completionInterrupt inst => Sys2Proof.Machine.execCompletionInterrupt inst s
  | .qcfgWrite fn w v => Sys2Proof.Machine.execQcfgWrite fn w v s
  | .shareWrite inst part v => Sys2Proof.Machine.execShareWrite inst part v s
  | .xltWrite => Sys2Proof.Machine.execXltWrite s
  | .invalAll => Sys2Proof.Machine.execInvalAll s
  | .xltDrainDone => Sys2Proof.Machine.execXltDrainDone s
  | .instanceReset inst => Sys2Proof.Machine.execInstanceReset inst s
  | .assign inst owner => Sys2Proof.Machine.execAssign inst owner s
  | .remove inst => Sys2Proof.Machine.execRemove inst s
  | .unisolate inst => Sys2Proof.Machine.execUnisolate inst s
  | .icmdReset fn inst => Sys2Proof.Machine.execIcmdReset fn inst s
  | .hostReadCompletion k data => Sys2Proof.Machine.execHostReadCompletion k data s
  | .hostAccessTimeout k => Sys2Proof.Machine.execHostAccessTimeout k s
  | .drained inst => Sys2Proof.Machine.execDrained inst s
  | .arm k => Sys2Proof.Machine.execArm k s
  | .disarm k => Sys2Proof.Machine.execDisarm k s
  | .trigger k => Sys2Proof.Machine.execTrigger k s
  | .release k e => Sys2Proof.Machine.execRelease k e s
  | .haulatoMessage onIn b t => Sys2Proof.Machine.execHaulatoMessage onIn b t s
  | .haulatoSend toIn collides t => Sys2Proof.Machine.execHaulatoSend toIn collides t s
  | .recordRead session entry region inst => Sys2Proof.Machine.execRecordRead session entry region inst s
  | .readDone err poison => Sys2Proof.Machine.execReadDone err poison s
  | .recordWrite => Sys2Proof.Machine.execRecordWrite s
  | .freeze => Sys2Proof.Machine.execFreeze s
  | .thaw => Sys2Proof.Machine.execThaw s
  | .evrFlush => Sys2Proof.Machine.execEvrFlush s
  | .automaticThaw => Sys2Proof.Machine.execAutomaticThaw s
  | .bufferMove => Sys2Proof.Machine.execBufferMove s
  | .caveDataRead => Sys2Proof.Machine.execCaveDataRead s
  | .heartbeatSend path => Sys2Proof.Machine.execHeartbeatSend path s
  | .heartbeat path b t => Sys2Proof.Machine.execHeartbeat path b t s
  | .peerLost => Sys2Proof.Machine.execPeerLost s
  | .roleDecision => Sys2Proof.Machine.execRoleDecision s
  | .peerWaitEnd => Sys2Proof.Machine.execPeerWaitEnd s
  | .healthWindowEnd cause => Sys2Proof.Machine.execHealthWindowEnd cause s
  | .healthUpdate => Sys2Proof.Machine.execHealthUpdate s
  | .digestSend => Sys2Proof.Machine.execDigestSend s
  | .digestMessage l => Sys2Proof.Machine.execDigestMessage l s
  | .digestUnmatched => Sys2Proof.Machine.execDigestUnmatched s
  | .xferStart => Sys2Proof.Machine.execXferStart s
  | .requestMessage inst => Sys2Proof.Machine.execRequestMessage inst s
  | .stateMessage inst tJoin part => Sys2Proof.Machine.execStateMessage inst tJoin part s
  | .recordMessage inst r => Sys2Proof.Machine.execRecordMessage inst r s
  | .markerMessage inst ct task => Sys2Proof.Machine.execMarkerMessage inst ct task s
  | .xferTimeout inst => Sys2Proof.Machine.execXferTimeout inst s
  | .redSwitch => Sys2Proof.Machine.execRedSwitch s
  | .resync => Sys2Proof.Machine.execResync s
  | .lstRefresh c => Sys2Proof.Machine.execLstRefresh c s
  | .lstFrame b p ingress t => Sys2Proof.Machine.execLstFrame b p ingress t s
  | .lstWatchdog c => Sys2Proof.Machine.execLstWatchdog c s
  | .connEnable c => Sys2Proof.Machine.execConnEnable c s
  | .connDisable c => Sys2Proof.Machine.execConnDisable c s
  | .ack c => Sys2Proof.Machine.execAck c s
  | .derive slot inst block => Sys2Proof.Machine.execDerive slot inst block s
  | .importKey slot inst block => Sys2Proof.Machine.execImportKey slot inst block s
  | .clear slot inst block => Sys2Proof.Machine.execClear slot inst block s
  | .keySwitch slot inst block => Sys2Proof.Machine.execKeySwitch slot inst block s
  | .sendHalfSwitch slot => Sys2Proof.Machine.execSendHalfSwitch slot s
  | .attest slot dev inst block => Sys2Proof.Machine.execAttest slot dev inst block s
  | .program inst block => Sys2Proof.Machine.execProgram inst block s
  | .revoke inst block => Sys2Proof.Machine.execRevoke inst block s
  | .keyCommandDone t => Sys2Proof.Machine.execKeyCommandDone t s
  | .rngFail => Sys2Proof.Machine.execRngFail s
  | .start fn u => Sys2Proof.Machine.execStart fn u s
  | .compare fn u => Sys2Proof.Machine.execCompare fn u s
  | .crcFeed fn u n v => Sys2Proof.Machine.execCrcFeed fn u n v s
  | .crcTagHiWrite fn u hi => Sys2Proof.Machine.execCrcTagHiWrite fn u hi s
  | .crcValueHiWrite fn u hi => Sys2Proof.Machine.execCrcValueHiWrite fn u hi s
  | .crcOwnerWrite u v => Sys2Proof.Machine.execCrcOwnerWrite u v s
  | .scrubVisit mem err slot a b => Sys2Proof.Machine.execScrubVisit mem err slot a b s
  | .shadowRepair kind inst word => Sys2Proof.Machine.execShadowRepair kind inst word s
  | .errorInterrupt => Sys2Proof.Machine.execErrorInterrupt s
  | .injectionTaken addr => Sys2Proof.Machine.execInjectionTaken addr s
  | .debugRead addr err => Sys2Proof.Machine.execDebugRead addr err s
  | .cutThroughLookup p head t => Sys2Proof.Machine.execCutThroughLookup p head t s
  | .undefinedEncoding e c word => Sys2Proof.Machine.execUndefinedEncoding e c word s
  | .pcieLinkTrained width rate mps vfs => Sys2Proof.Machine.execPcieLinkTrained width rate mps vfs s
  | .holdupExhausted => Sys2Proof.Machine.execHoldupExhausted s
  | .holdupRecharged bankMv => Sys2Proof.Machine.execHoldupRecharged bankMv s
  | .thermalWarningCleared die inlet => Sys2Proof.Machine.execThermalWarningCleared die inlet s
  | .heartbeatPathLost path => Sys2Proof.Machine.execHeartbeatPathLost path s
  | .outLinkExpiry => Sys2Proof.Machine.execOutLinkExpiry s

end Sys2Proof.Machine
end

