-- ==== Sys2Proof/Machine/Leds.lean ====
section
/-!
DEFINITION. The indicators (R93, Table 3.11) and the cages' TX_DISABLE pins (R128), read from the state.
That a cage LED blinks on activity is left out: a frame's passage is an instant of the model.
-/

namespace Sys2Proof.Machine

/-- A colour, and the rate at which it blinks in Hz, 0 for steady. -/
inductive Led where
  | off
  | green (hz : Nat)
  | amber (hz : Nat)
  | red (hz : Nat)
  | white (hz : Nat)
  deriving DecidableEq, Repr

/-- The LED of cage p: P0 to P9, PL. DESIGN CHOICE, assumption 58. -/
def Module.cageLed (m : Module) (p : Nat) : Led :=
  if !m.isOn (R.MAC_STATUS_LINK p) then .off
  else if m.rd (R.MAC_STATUS_RATE p) = 3 then .green 0 else .amber 0

/-- TX_DISABLE of cage p (R128). -/
def Module.txDisable (m : Module) (p : Nat) : Bool :=
  m.mode == .reset || m.mode == .load || m.mode == .flush || !m.isOn (R.MAC_CTRL_EN p) || m.isOn (R.MAC_STATUS_RATE_MISMATCH p)

/-- A status LED under SYS_LED.LOCATE. -/
def Module.located (m : Module) (l : Led) : Led := if m.isOn R.SYS_LED_LOCATE then .white 2 else l

/-- PWR: an input is good at 10.2 V (R79); in RESET, where no sample is held, both inputs stand as POWER_ON or the end of FLUSH found
them. DEDUCED, assumption 37. -/
def Module.pwrLed (m : Module) : Led :=
  let slot := decide (10200 ≤ m.rd R.SYS_PWR_IN_SLOT_MV)
  let aux := decide (10200 ≤ m.rd R.SYS_PWR_IN_AUX_MV)
  m.located (if m.sys.off then .off else if m.mode == .reset || (slot && aux) then .green 0 else if slot || aux then .amber 4 else .off)

def Module.modeLed (m : Module) : Led :=
  m.located (match m.mode with
    | .reset => .off
    | .load | .ripen => .green 4
    | .active => .green 0
    | .standby => .amber 0
    | .test => .amber 4
    | .safeHold => .red 0
    | .flush => .red 4)

def Module.pairLed (m : Module) : Led :=
  m.located (match m.red.role with
    | .active => if m.isOn R.RED_STATUS_PEER_LOST then .red 0 else .green 0
    | .standby => if m.isOn R.RED_STATUS_PEER_LOST then .red 0 else .amber 0
    | .standalone | .undecided => .off)

end Sys2Proof.Machine
end

