-- ==== Sys2Proof/Machine/Step.lean ====
section
/-!
DEFINITION. One step of the block: the command at the front of the queue, or, with no command waiting, one tick of the 250 MHz
time base.
-/

namespace Sys2Proof.Machine

/-- What a step does on an empty queue: the primary clock advances by INCR (R169), and nothing else happens. DESIGN CHOICE
(assumption 2). -/
def idleStep (s : State) : Host.Outcome State Fault Refusal := s.upd fun m => m.adv m.tim.incr

/-- One step: the command at the front of the queue, run on the rest of the queue. -/
def step (s : State) : Host.Outcome State Fault Refusal :=
  match s.pending with
  | [] => idleStep s
  | c :: r => exec c { s with pending := r }

/-- The state with the command that a word spells at the front of its queue; unchanged where it spells none.
DESIGN CHOICE, assumption 1. -/
def State.withFetchWord (s : State) (nbits w : Nat) : State :=
  match decodeTableWord nbits w with
  | none => s
  | some c => { s with pending := c :: s.pending }

end Sys2Proof.Machine
end

