-- ==== Sys2Proof/WellFormed.lean ====
section
/-!
DEFINITION. The commands whose operands lie within the ranges that the spec gives them. A command outside them never reaches the
module; the machine itself gives every command a next state.
-/

namespace Sys2Proof.WellFormed

/-- A function: 0 the PF, 1 to 255 the VFs (Table 0.2). -/
def isFn (n : Nat) : Bool := decide (n < 256)

/-- An instance ID (Table 0.2). -/
def isInst (n : Nat) : Bool := decide (n < 4096)

/-- A port: P0 to P9, 10 the Pair Link. -/
def isPort (n : Nat) : Bool := decide (n < 11)

/-- A switch port: P0 to P9, 10 HP, 11 EP (Switch Core and Buffer Manager). -/
def isSwPort (n : Nat) : Bool := decide (n < 12)

/-- A task (Table 0.2). -/
def isTask (n : Nat) : Bool := decide (n < 8192)

/-- A commit group (R51). -/
def isGroup (n : Nat) : Bool := decide (n < 256)

/-- An engine (R239). -/
def isEngine (n : Nat) : Bool := decide (n < 32)

/-- A context of an engine (R242). -/
def isCtx (n : Nat) : Bool := decide (n < 4)

/-- A path of the pair: 0 PL, 1 the station network. -/
def isPath (n : Nat) : Bool := decide (n < 2)

/-- A check-value unit. -/
def isUnit (n : Nat) : Bool := decide (n < 8)

/-- A transaction slot (PRS_TXN_CMD). -/
def isTxn (n : Nat) : Bool := decide (n < 8)

/-- A recording session (R345). -/
def isSession (n : Nat) : Bool := decide (n < 16)

/-- A directory entry (ACQ_DIR). -/
def isEntry (n : Nat) : Bool := decide (n < 64)

/-- A region that RECORD_READ names (ACQ_RD_CMD). -/
def isRegion (n : Nat) : Bool := decide (n < 3)

/-- A 16-bit value. -/
def isHalf (n : Nat) : Bool := decide (n < 65536)

/-- A queue class. -/
def isClass (n : Nat) : Bool := decide (n < 8)

/-- A MAC address. -/
def isMac (n : Nat) : Bool := decide (n < 281474976710656)

/-- A VLAN ID. -/
def isVid (n : Nat) : Bool := decide (n < 4096)

/-- An 8-bit value. -/
def isByte (n : Nat) : Bool := decide (n < 256)

/-- A GOOSE subscription (Table 0.2). -/
def isSub (n : Nat) : Bool := decide (n < 8192)

/-- A GOOSE publication (Table 0.2). -/
def isPub (n : Nat) : Bool := decide (n < 2048)

/-- An LST connection (Table 0.2). -/
def isConn (n : Nat) : Bool := decide (n < 1024)

/-- A filter chain. -/
def isChain (n : Nat) : Bool := decide (n < 65536)

/-- A bit of SYS_READY. -/
def isReady (n : Nat) : Bool := decide (n < 16)

/-- A culture copy: 0 Culture A, 1 Culture B. -/
def isCopy (n : Nat) : Bool := decide (n < 2)

/-- A time source: 1 PTP, 2 Haulato, 3 IRIG-B. -/
def isSource (n : Nat) : Bool := decide (n < 4)

/-- A key slot (Table 0.2). -/
def isSlot (n : Nat) : Bool := decide (n < 1024)

/-- Who violations are charged to: an instance, or 0x1000 + a function. -/
def isViolKey (n : Nat) : Bool := decide (n < 4352)

/-- A configuration table of the switch. -/
def isTable (n : Nat) : Bool := decide (n < 4)

/-- A stage of a chain, or all. -/
def isStage (n : Nat) : Bool := decide (n < 4)

/-- A prototype or coefficient set. -/
def isSet (n : Nat) : Bool := decide (n < 1024)

/-- A memory of the error service. -/
def isMem (n : Nat) : Bool := decide (n < 6)

/-- A kind of configuration table with a shadow (R481). -/
def isShadow (n : Nat) : Bool := decide (n < 8)

/-- The line rates that a cage module supports. -/
def isRates (n : Nat) : Bool := decide (n < 8)

/-- A PCIe link width. -/
def isWidth (n : Nat) : Bool := decide (n < 17)

/-- A cause of a health window. -/
def isHealth (n : Nat) : Bool := decide (n < 5)

/-- A force entry. -/
def isForce (n : Nat) : Bool := decide (n < 256)

/-- An online change window. -/
def isOlc (n : Nat) : Bool := decide (n < 8)

/-- A word of INS_QCFG. -/
def isQcfg (n : Nat) : Bool := decide (n < 6)

/-- An offset in an online change window. -/
def isOlcOff (n : Nat) : Bool := decide (n < 16384)

/-- An operand slot of a task. -/
def isOperand (n : Nat) : Bool := decide (n < 8)

/-- A feed of 1, 2 or 4 bytes. -/
def isFeed (n : Nat) : Bool := decide (n < 5)

/-- A share word of an instance: HP, DMA, recorder. -/
def isShare (n : Nat) : Bool := decide (n < 3)

/-- A PCIe link rate. -/
def isGen (n : Nat) : Bool := decide (n < 8)

/-- A vat rate, or a virtual clock (R195, R177). -/
def isRate (n : Nat) : Bool := decide (n < 4)

/-- A 32-bit word. -/
def isWord (n : Nat) : Bool := decide (n < 4294967296)

/-- A MACsec association number. -/
def isAn (n : Nat) : Bool := decide (n < 4)

end Sys2Proof.WellFormed

namespace Sys2Proof

open Sys2Proof.WellFormed in
/-- A command is well formed: each operand is in its range. -/
def Instr.wf : Instr → Bool
  | .regWrite fn off v => isFn fn && isWord off && isWord v
  | .narrowWrite fn => isFn fn
  | .rcRead fn off => isFn fn && isWord off
  | .lowWordRead fn off => isFn fn && isWord off
  | .violationWindowExpiry key => isViolKey key
  | .powerOn _ => true
  | .resetExit sw _ _ _ => isByte sw
  | .powerFail => true
  | .flushDone _ => true
  | .holdupLow _ => true
  | .thermalWarning _ _ => true
  | .thermalCritical _ _ => true
  | .thermalTrip _ _ => true
  | .clockCheck _ _ => true
  | .sysReset v => isWord v
  | .moduleReset causes => isWord causes
  | .pcieReset => true
  | .pfFunctionLevelReset => true
  | .vfFunctionLevelReset fn => isFn fn
  | .stewardWatchdogExpiry => true
  | .sealReread sw => isByte sw
  | .loadComplete => true
  | .readinessSet bit => isReady bit
  | .timeWaitEnd => true
  | .ripenTimeout => true
  | .enterTest => true
  | .leaveTest => true
  | .stageGo target inst => isCopy target && isInst inst
  | .stageDone _ _ _ => true
  | .linkUp p => isPort p
  | .linkDown p => isPort p
  | .cageSignalChange p _ _ _ _ rates => isPort p && isRates rates
  | .sfpDiagRead p temp rxPwr _ => isPort p && isHalf temp && isHalf rxPwr
  | .macCtrlWrite p v => isPort p && isWord v
  | .frameReceive p _ _ => isPort p
  | .duplicateEntryExpiry p => isPort p
  | .supervisionSend p => isPort p
  | .pauseFrame p _ enable _ _ => isPort p && isByte enable
  | .pauseExpiry p q => isPort p && isClass q
  | .frameStart p => isPort p
  | .holdEnd p => isPort p
  | .tsqPop p => isPort p
  | .eapolFrame p an _ _ => isPort p && an.all isAn
  | .learnAgeOut mac vid => isMac mac && isVid vid
  | .flushLearned => true
  | .tblRead table index => isTable table && isWord index
  | .tblWrite table index => isTable table && isWord index
  | .tblDelete => true
  | .minCellsWrite p q cells => isSwPort p && isClass q && isWord cells
  | .nowRead fn => isFn fn
  | .vcNowRead fn v => isFn fn && isRate v
  | .vcRateWrite v rate => isRate v && isWord rate
  | .vcOffWrite fn v hi => isFn fn && isRate v && isWord hi
  | .ptpMessage _ _ => true
  | .syncSend p => isPort p
  | .servoOffset => true
  | .sourceLost src => isSource src
  | .haulatoEdge _ => true
  | .haulatoTimeFrame _ _ => true
  | .haulatoOriginEdge => true
  | .echoRequest token => isWord token
  | .echoAnswer _ _ => true
  | .echoRequestReceive _ _ => true
  | .echoTimeout => true
  | .irigbFrame _ _ => true
  | .svFrame _ _ => true
  | .instantOpen v => isRate v
  | .windowEnd v => isRate v
  | .curdFrameClose v => isRate v
  | .chainOutput c => isChain c
  | .curdFrameVisible v _ _ _ => isRate v
  | .deltaUpdate => true
  | .sigmaUpdate => true
  | .windowWrite v w => isRate v && isWord w
  | .chainSwitch fn c stage set k => isFn fn && isChain c && isStage stage && isSet set && isWord k
  | .chainReset fn c => isFn fn && isChain c
  | .fadeStart => true
  | .cmemWrite fn v => isFn fn && isWord v
  | .setWrite fn set v => isFn fn && isSet set && isWord v
  | .operandArrival => true
  | .tick task slot => isTask task && isOperand slot
  | .dispatch => true
  | .captureDone e c _ _ _ => isEngine e && isCtx c
  | .budgetOverrun e c => isEngine e && isCtx c
  | .deadlineExpiry task ct => isTask task && isWord ct
  | .progressMark e c => isEngine e && isCtx c
  | .taskEnable task => isTask task
  | .taskDisable task => isTask task
  | .taskCancel task => isTask task
  | .slowClr mask => isWord mask
  | .tracePop => true
  | .olcWindowWrite w x v => isOlc w && isOlcOff x && isWord v
  | .forceEnable f v => isForce f && isWord v
  | .forceDisable f v => isForce f && isWord v
  | .gooseFrame _ _ => true
  | .gooseTalExpiry j => isSub j
  | .gooseRepeat p => isPub p
  | .handOff e c => isEngine e && isCtx c
  | .admission _ => true
  | .visibilityPoint _ => true
  | .groupWindowEnd g => isGroup g
  | .txnBegin n => isTxn n
  | .txnDataWrite n v => isTxn n && isWord v
  | .txnCommit n => isTxn n
  | .txnCommitAt n => isTxn n
  | .txnAtReached n => isTxn n
  | .txnAbort n => isTxn n
  | .txnTimeout n => isTxn n
  | .snapshotGo fn => isFn fn
  | .snapshotServe _ => true
  | .selfTestEnd e _ => isEngine e
  | .lockstepMismatch e => isEngine e
  | .mismatchAgeOut e => isEngine e
  | .fence e => isEngine e
  | .unfence e => isEngine e
  | .retest e => isEngine e
  | .drainDone e => isEngine e
  | .add e c _ => isEngine e && isCtx c
  | .sub e c _ => isEngine e && isCtx c
  | .mul e c _ => isEngine e && isCtx c
  | .mulh e c _ => isEngine e && isCtx c
  | .div e c _ => isEngine e && isCtx c
  | .rem e c _ => isEngine e && isCtx c
  | .and e c _ => isEngine e && isCtx c
  | .or e c _ => isEngine e && isCtx c
  | .xor e c _ => isEngine e && isCtx c
  | .shl e c _ => isEngine e && isCtx c
  | .shr e c _ => isEngine e && isCtx c
  | .sar e c _ => isEngine e && isCtx c
  | .min e c _ => isEngine e && isCtx c
  | .max e c _ => isEngine e && isCtx c
  | .adds e c _ => isEngine e && isCtx c
  | .addi e c _ => isEngine e && isCtx c
  | .andi e c _ => isEngine e && isCtx c
  | .ori e c _ => isEngine e && isCtx c
  | .xori e c _ => isEngine e && isCtx c
  | .shli e c _ => isEngine e && isCtx c
  | .shri e c _ => isEngine e && isCtx c
  | .sari e c _ => isEngine e && isCtx c
  | .movi e c _ => isEngine e && isCtx c
  | .movh e c _ => isEngine e && isCtx c
  | .cmp e c _ => isEngine e && isCtx c
  | .cmpi e c _ => isEngine e && isCtx c
  | .plog e c _ => isEngine e && isCtx c
  | .pget e c _ => isEngine e && isCtx c
  | .pset e c _ => isEngine e && isCtx c
  | .fadd e c _ => isEngine e && isCtx c
  | .fsub e c _ => isEngine e && isCtx c
  | .fmul e c _ => isEngine e && isCtx c
  | .fma e c _ => isEngine e && isCtx c
  | .fdiv e c _ => isEngine e && isCtx c
  | .fsqrt e c _ => isEngine e && isCtx c
  | .fmin e c _ => isEngine e && isCtx c
  | .fmax e c _ => isEngine e && isCtx c
  | .fsgn e c _ => isEngine e && isCtx c
  | .fcmp e c _ => isEngine e && isCtx c
  | .itof e c _ => isEngine e && isCtx c
  | .ftoi e c _ => isEngine e && isCtx c
  | .vadd e c _ => isEngine e && isCtx c
  | .vsub e c _ => isEngine e && isCtx c
  | .vmul e c _ => isEngine e && isCtx c
  | .vfma e c _ => isEngine e && isCtx c
  | .vmin e c _ => isEngine e && isCtx c
  | .vmax e c _ => isEngine e && isCtx c
  | .vbc e c _ => isEngine e && isCtx c
  | .vext e c _ => isEngine e && isCtx c
  | .vins e c _ => isEngine e && isCtx c
  | .vsum e c _ => isEngine e && isCtx c
  | .vdot e c _ => isEngine e && isCtx c
  | .vscl e c _ => isEngine e && isCtx c
  | .cmul e c _ => isEngine e && isCtx c
  | .cmac e c _ => isEngine e && isCtx c
  | .cmulc e c _ => isEngine e && isCtx c
  | .cmag2 e c _ => isEngine e && isCtx c
  | .cexp e c _ => isEngine e && isCtx c
  | .cpol e c _ => isEngine e && isCtx c
  | .cseq e c _ => isEngine e && isCtx c
  | .ld e c _ _ => isEngine e && isCtx c
  | .st e c _ => isEngine e && isCtx c
  | .vld e c _ _ => isEngine e && isCtx c
  | .vst e c _ => isEngine e && isCtx c
  | .setb e c _ => isEngine e && isCtx c
  | .rdsr e c _ => isEngine e && isCtx c
  | .wrsr e c _ => isEngine e && isCtx c
  | .rdclk e c _ => isEngine e && isCtx c
  | .crdv e c _ => isEngine e && isCtx c
  | .crdq e c _ => isEngine e && isCtx c
  | .crdh e c _ => isEngine e && isCtx c
  | .globalReadAnswer e c _ => isEngine e && isCtx c
  | .ton e c _ _ => isEngine e && isCtx c
  | .tof e c _ _ => isEngine e && isCtx c
  | .tp e c _ _ => isEngine e && isCtx c
  | .edge e c _ _ => isEngine e && isCtx c
  | .br e c _ => isEngine e && isCtx c
  | .brr e c _ => isEngine e && isCtx c
  | .call e c _ => isEngine e && isCtx c
  | .callr e c _ => isEngine e && isCtx c
  | .ret e c _ => isEngine e && isCtx c
  | .trap e c _ => isEngine e && isCtx c
  | .nop e c _ => isEngine e && isCtx c
  | .pubv e c _ => isEngine e && isCtx c
  | .frm e c _ => isEngine e && isCtx c
  | .frmr e c _ _ => isEngine e && isCtx c
  | .evm e c _ => isEngine e && isCtx c
  | .recm e c _ => isEngine e && isCtx c
  | .commit e c _ => isEngine e && isCtx c
  | .drop e c _ => isEngine e && isCtx c
  | .crci e c _ => isEngine e && isCtx c
  | .crcf e c _ => isEngine e && isCtx c
  | .crcb e c _ _ => isEngine e && isCtx c
  | .crct e c _ => isEngine e && isCtx c
  | .crcx e c _ => isEngine e && isCtx c
  | .trc e c _ => isEngine e && isCtx c
  | .dbCommandTail fn i idx => isFn fn && isInst i && isHalf idx
  | .dbCompletionHead fn i idx => isFn fn && isInst i && isHalf idx
  | .dbReceiveTail fn i idx => isFn fn && isInst i && isHalf idx
  | .dbExportConsumer fn i v idx => isFn fn && isInst i && isRate v && isHalf idx
  | .cmdNop i => isInst i
  | .cmdSend i => isInst i
  | .cmdTime i => isInst i
  | .receiveDelivery i => isInst i
  | .exportFrameWrite i v _ _ => isInst i && isRate v
  | .completionInterrupt i => isInst i
  | .qcfgWrite fn w v => isFn fn && isQcfg w && isWord v
  | .shareWrite i part v => isInst i && isShare part && isWord v
  | .xltWrite => true
  | .invalAll => true
  | .xltDrainDone => true
  | .instanceReset i => isInst i
  | .assign i owner => isInst i && isFn owner
  | .remove i => isInst i
  | .unisolate i => isInst i
  | .icmdReset fn i => isFn fn && isInst i
  | .hostReadCompletion _ _ => true
  | .hostAccessTimeout _ => true
  | .drained i => isInst i
  | .arm k => isSession k
  | .disarm k => isSession k
  | .trigger k => isSession k
  | .release k e => isSession k && isEntry e
  | .haulatoMessage _ _ _ => true
  | .haulatoSend _ _ _ => true
  | .recordRead session entry region inst => isSession session && isEntry entry && isRegion region && isInst inst
  | .readDone _ _ => true
  | .recordWrite => true
  | .freeze => true
  | .thaw => true
  | .evrFlush => true
  | .automaticThaw => true
  | .bufferMove => true
  | .caveDataRead => true
  | .heartbeatSend path => isPath path
  | .heartbeat path _ _ => isPath path
  | .peerLost => true
  | .roleDecision => true
  | .peerWaitEnd => true
  | .healthWindowEnd cause => isHealth cause
  | .healthUpdate => true
  | .digestSend => true
  | .digestMessage _ => true
  | .digestUnmatched => true
  | .xferStart => true
  | .requestMessage i => isInst i
  | .stateMessage i tJoin _ => isInst i && isWord tJoin
  | .recordMessage i _ => isInst i
  | .markerMessage i ct task => isInst i && isWord ct && isTask task
  | .xferTimeout i => isInst i
  | .redSwitch => true
  | .resync => true
  | .lstRefresh c => isConn c
  | .lstFrame _ p _ _ => isPort p
  | .lstWatchdog c => isConn c
  | .connEnable c => isConn c
  | .connDisable c => isConn c
  | .ack c => isConn c
  | .derive slot inst _ => isSlot slot && isInst inst
  | .importKey slot inst _ => isSlot slot && isInst inst
  | .clear slot inst _ => isSlot slot && isInst inst
  | .keySwitch slot inst _ => isSlot slot && isInst inst
  | .sendHalfSwitch slot => isSlot slot
  | .attest slot _ inst _ => isSlot slot && isInst inst
  | .program inst _ => isInst inst
  | .revoke inst _ => isInst inst
  | .keyCommandDone _ => true
  | .rngFail => true
  | .start fn u => isFn fn && isUnit u
  | .compare fn u => isFn fn && isUnit u
  | .crcFeed fn u n v => isFn fn && isUnit u && isFeed n && isWord v
  | .crcTagHiWrite fn u hi => isFn fn && isUnit u && isWord hi
  | .crcValueHiWrite fn u hi => isFn fn && isUnit u && isWord hi
  | .crcOwnerWrite u v => isUnit u && isWord v
  | .scrubVisit mem _ slot _ _ => isMem mem && isWord slot
  | .shadowRepair kind i word => isShadow kind && isWord i && isWord word
  | .errorInterrupt => true
  | .injectionTaken addr => isWord addr
  | .debugRead addr _ => isWord addr
  | .cutThroughLookup p _ _ => isPort p
  | .undefinedEncoding e c _ => isEngine e && isCtx c
  | .pcieLinkTrained width rate mps vfs => isWidth width && isGen rate && isWord mps && isFn vfs
  | .holdupExhausted => true
  | .holdupRecharged _ => true
  | .thermalWarningCleared _ _ => true
  | .heartbeatPathLost path => isPath path
  | .outLinkExpiry => true

end Sys2Proof
end

