-- ==== Sys2Proof/Certificates/Slice0/Obligations.lean ====
section
/-!
DEFINITION. The statements for the provers. A statement about a command says for which states and operands it completes and what
the next state holds; `becomes` fixes the whole next state, `completes` says a property of it.
-/

namespace Sys2Proof.Claims
open Sys2Proof.Machine

/-! ### How a command completes -/

/-- The command answers a next state whose module is m in canonical form, the queue as it was. -/
def becomes (i : Instr) (s : State) (m : Module) : Prop := exec i s = .next { s with m := m.settle }

/-- The command answers a next state, the queue as it was, whose module has the property. -/
def completes (i : Instr) (s : State) (p : Module → Prop) : Prop := ∃ m, exec i s = .next { s with m := m } ∧ p m

/-! ### The issue of a Kiljo instruction -/

/-- A Kiljo row: the command of engine, context and fields, and its opcode (Table 11.1). -/
abbrev KRow := (Nat → Nat → Kw → Instr) × Nat

/-- Context c, which holds x, is the one that engine e issues from (R240). -/
abbrev issues (s : State) (e c : Nat) (x : Ctx) : Prop := (s.m.engine e).issuer = some (c, x)

/-- It issues a defined encoding whose qualifying predicate holds (R267, R268). -/
abbrev acts (s : State) (e c : Nat) (x : Ctx) (op : Nat) (w : Kw) : Prop :=
  issues s e c x ∧ kEncodingOk op w = true ∧ x.qualified w = true

/-- The context at its first instruction: `firstAt` is set (R301). -/
def begun (s : State) (e c : Nat) (x : Ctx) : Ctx := { x with firstAt := some (x.firstAt.getD (s.m.capturePoint e c x).mono) }

/-- The context with its pc past the instruction (R267). -/
def past (s : State) (e c : Nat) (x : Ctx) : Ctx := { begun s e c x with pc := x.pc + 8 }

/-- The module, as the capture point of R264 leaves it, with y in context c of engine e. -/
def holding (s : State) (e c : Nat) (x y : Ctx) : Module := (s.m.capturePoint e c x).setCtx e c y

/-- The module in which an instruction at x.pc takes an exception (R256). -/
def excepts (s : State) (e c : Nat) (x : Ctx) (code detail addr : Nat) : Module :=
  (holding s e c x (begun s e c x)).kExc e c x.pc.toNat code detail addr

/-! ### The result of each row that computes on its own context -/

/-- Table 11.2 but for DIV and REM: gA, from the context before the instruction. -/
def intRows : List (KRow × (Ctx → Kw → BitVec 64)) :=
  [((.add, 0x01), fun x w => x.getG w.b + x.getG w.c), ((.sub, 0x02), fun x w => x.getG w.b - x.getG w.c),
   ((.mul, 0x03), fun x w => x.getG w.b * x.getG w.c),
   ((.mulh, 0x04), fun x w => ((x.getG w.b).signExtend 128 * (x.getG w.c).signExtend 128).extractLsb' 64 64),
   ((.and, 0x07), fun x w => x.getG w.b &&& x.getG w.c), ((.or, 0x08), fun x w => x.getG w.b ||| x.getG w.c),
   ((.xor, 0x09), fun x w => x.getG w.b ^^^ x.getG w.c),
   ((.shl, 0x0A), fun x w => x.getG w.b <<< ((x.getG w.c).toNat % 64)),
   ((.shr, 0x0B), fun x w => x.getG w.b >>> ((x.getG w.c).toNat % 64)),
   ((.sar, 0x0C), fun x w => (x.getG w.b).sshiftRight ((x.getG w.c).toNat % 64)),
   ((.min, 0x0D), fun x w => BitVec.ofInt 64 (min (x.getG w.b).toInt (x.getG w.c).toInt)),
   ((.max, 0x0E), fun x w => BitVec.ofInt 64 (max (x.getG w.b).toInt (x.getG w.c).toInt)),
   ((.adds, 0x0F), fun x w =>
     BitVec.ofInt 64 (max (-(2 ^ 63)) (min (2 ^ 63 - 1) ((x.getG w.b).toInt + (x.getG w.c).toInt)))),
   ((.addi, 0x10), fun x w => x.getG w.b + w.imm.signExtend 64), ((.andi, 0x11), fun x w => x.getG w.b &&& w.imm.signExtend 64),
   ((.ori, 0x12), fun x w => x.getG w.b ||| w.imm.signExtend 64), ((.xori, 0x13), fun x w => x.getG w.b ^^^ w.imm.signExtend 64),
   ((.shli, 0x14), fun x w => x.getG w.b <<< (w.imm.toNat % 64)), ((.shri, 0x15), fun x w => x.getG w.b >>> (w.imm.toNat % 64)),
   ((.sari, 0x16), fun x w => (x.getG w.b).sshiftRight (w.imm.toNat % 64)),
   ((.movi, 0x17), fun _ w => w.imm.signExtend 64), ((.movh, 0x18), fun x w => w.imm ++ (x.getG w.a).setWidth 32)]

/-- Table 11.3, results in gA with their flags. -/
def floatRows : List (KRow × (Ctx → Kw → FRes)) :=
  [((.fadd, 0x20), fun x w => f32Add (x.getF w.b) (x.getF w.c)), ((.fsub, 0x21), fun x w => f32Sub (x.getF w.b) (x.getF w.c)),
   ((.fmul, 0x22), fun x w => f32Mul (x.getF w.b) (x.getF w.c)),
   ((.fma, 0x23), fun x w => f32Fma (x.getF w.b) (x.getF w.c) (x.getF w.a)),
   ((.fdiv, 0x24), fun x w => f32Div (x.getF w.b) (x.getF w.c)), ((.fsqrt, 0x25), fun x w => f32Sqrt (x.getF w.b)),
   ((.fmin, 0x26), fun x w => f32MinMax false (x.getF w.b) (x.getF w.c)),
   ((.fmax, 0x27), fun x w => f32MinMax true (x.getF w.b) (x.getF w.c)),
   ((.fsgn, 0x28), fun x w => f32Sgn w.sz (x.getF w.b) (x.getF w.c)), ((.itof, 0x2A), fun x w => f32OfInt (x.getG w.b)),
   ((.vsum, 0x49), fun x w => treeSum fun l => x.getV w.b l),
   ((.vdot, 0x4A), fun x w => kDot (fun l => x.getV w.b l) fun l => x.getV w.c l)]

/-- The lane by lane rows of Table 11.4. -/
def laneRows : List (KRow × (Ctx → Kw → Nat → FRes)) :=
  [((.vadd, 0x40), fun x w l => f32Add (x.getV w.b l) (x.getV w.c l)),
   ((.vsub, 0x41), fun x w l => f32Sub (x.getV w.b l) (x.getV w.c l)),
   ((.vmul, 0x42), fun x w l => f32Mul (x.getV w.b l) (x.getV w.c l)),
   ((.vfma, 0x43), fun x w l => f32Fma (x.getV w.b l) (x.getV w.c l) (x.getV w.a l)),
   ((.vmin, 0x44), fun x w l => f32MinMax false (x.getV w.b l) (x.getV w.c l)),
   ((.vmax, 0x45), fun x w l => f32MinMax true (x.getV w.b l) (x.getV w.c l)),
   ((.vscl, 0x4B), fun x w l => f32Mul (x.getV w.b l) (x.getF w.c))]

/-- The complex rows of Table 11.4, pair by pair. -/
def complexRows : List (KRow × (Ctx → Kw → Nat → CNum)) :=
  [((.cmul, 0x50), fun x w k => cmul (x.getC w.b k) (x.getC w.c k)),
   ((.cmac, 0x51), fun x w k => cadd (x.getC w.a k) (cmul (x.getC w.b k) (x.getC w.c k))),
   ((.cmulc, 0x52), fun x w k => cmul (x.getC w.b k) (cconj (x.getC w.c k))), ((.cmag2, 0x53), fun x w k => cmag2 (x.getC w.b k)),
   ((.cexp, 0x54), fun x w k => cOfPair (f32Cexp (x.getC w.b k).re)),
   ((.cpol, 0x55), fun x w k => cOfPair (f32Cpol (x.getC w.b k).re (x.getC w.b k).im)),
   ((.cseq, 0x56), fun x w => cseq fun k => x.getC w.b k)]

/-- The other rows that only compute: the context after, from the context with its pc past the instruction. -/
def moveRows : List (KRow × (Ctx → Kw → Ctx)) :=
  [((.pget, 0x1C), fun x w => x.setG w.a ((x.p ||| 1).setWidth 64)),
   ((.pset, 0x1D), fun x w => { x with p := (x.getG w.b).setWidth 8 ||| 1 }),
   ((.fcmp, 0x29), fun x w =>
     let r := f32Cmp w.imm.toNat (x.getF w.b) (x.getF w.c)
     (x.setP w.a.toNat r.1).orCs r.2),
   ((.ftoi, 0x2B), fun x w => (x.setG w.a (f32ToInt (x.getF w.b)).1).orCs (f32ToInt (x.getF w.b)).2),
   ((.vbc, 0x46), fun x w => x.setV w.a fun _ => x.getF w.b), ((.vext, 0x47), fun x w => x.setF w.a (x.getV w.b (w.imm.toNat % 8))),
   ((.vins, 0x48), fun x w => x.setV w.a fun l => if l = w.imm.toNat % 8 then x.getF w.b else x.getV w.a l),
   ((.setb, 0x64), fun x w =>
     let v := x.getG w.b + w.imm.signExtend 64
     if w.a.toNat = 0 then { x with ib := v.setWidth 18 } else if w.a.toNat = 1 then { x with ii := v.setWidth 16 }
     else { x with oi := v.setWidth 16 }),
   ((.rdsr, 0x65), fun x w =>
     let n := w.imm.toNat
     x.setG w.a (if n = 0 then BitVec.ofNat 64 (x.ct % 2 ^ 32) else if n = 1 then x.cs.setWidth 64
       else if n = 2 then BitVec.ofNat 64 x.stack.length else if n = 3 then x.ib.setWidth 64 else if n = 4 then x.ii.setWidth 64
       else x.oi.setWidth 64)),
   ((.wrsr, 0x66), fun x w => { x with cs := ((x.getG w.b).setWidth 5).setWidth 32 }), ((.nop, 0x86), fun x _ => x),
   ((.br, 0x80), fun x w => { x with pc := x.pc - 8 + w.imm.setWidth 18 })]

/-- The rows that ask for an answer from outside the context and wait for it (R240, R276). -/
def askRows : List (KRow × (Ctx → Kw → GReq)) :=
  [((.rdclk, 0x67), fun _ w => .clock w.a w.imm.toNat),
   ((.crdv, 0x68), fun x w => .curd false w.a (x.getG w.b).toNat (x.getG w.c).toNat (w.imm.toNat % 4)),
   ((.crdq, 0x69), fun x w => .curd true w.a (x.getG w.b).toNat (x.getG w.c).toNat (w.imm.toNat % 4)),
   ((.crdh, 0x6A), fun x w => .curdHdr w.a (x.getG w.b).toNat (w.imm.toNat % 4) (w.imm.toNat / 4))]

/-- The rows that stage an entry (R284). -/
def stageRows : List (KRow × (Ctx → Kw → Entry)) :=
  [((.pubv, 0x90), fun x w => .varPub (w.imm.toNat % 2 ^ 16) (x.getF w.a)
     (if w.sz = 2 then ((x.getG w.b).setWidth 32).setWidth 64 else x.getG w.b) (if w.sz = 2 then 4 else 8)),
   ((.frm, 0x91), fun _ w => .frame w.sz.toNat w.imm.toNat),
   ((.evm, 0x93), fun x w => .eventMark w.imm.toNat (leBytes w.c.toNat (x.getG w.b).toNat)),
   ((.recm, 0x94), fun _ w => .recMark w.imm)]

/-- The rows that ask a check-value unit: what the unit computes, from its settings (R286). -/
def crcRows : List (KRow × (Ctx → Kw → CrcSet → Nat)) :=
  [((.crci, 0xA0), fun _ _ u => u.init),
   ((.crcf, 0xA1), fun x w u => u.feeds ((x.getG w.a).toNat % 2 ^ u.w) (leBytes (2 ^ w.sz.toNat) (x.getG w.b).toNat)),
   ((.crct, 0xA3), fun x w u => u.fold ((x.getG w.a).toNat % 2 ^ u.w) (x.getG w.b).toNat),
   ((.crcx, 0xA4), fun x w u => u.final ((x.getG w.a).toNat % 2 ^ u.w))]

/-- The rows that read memory; each stands for every finding of the read. -/
def readRows : List ((Nat → Nat → Kw → ReadErr → Instr) × Nat) :=
  [(.ld, 0x60), (.vld, 0x62), (.ton, 0x70), (.tof, 0x71), (.tp, 0x72), (.edge, 0x74), (.frmr, 0x92), (.crcb, 0xA2)]

/-- Every row whose fields are all its operands. -/
def plainRows : List KRow :=
  intRows.map (·.1) ++ floatRows.map (·.1) ++ laneRows.map (·.1) ++ complexRows.map (·.1) ++ moveRows.map (·.1) ++
  askRows.map (·.1) ++ stageRows.map (·.1) ++ crcRows.map (·.1) ++
  [(.div, 0x05), (.rem, 0x06), (.cmp, 0x19), (.cmpi, 0x1A), (.plog, 0x1B), (.st, 0x61), (.vst, 0x63)] ++
  [(.brr, 0x81), (.call, 0x82), (.callr, 0x83), (.ret, 0x84), (.trap, 0x85), (.commit, 0x95), (.drop, 0x96), (.trc, 0xB0)]

/-- Every Kiljo row. -/
def kiljoRows : List KRow := plainRows ++ readRows.flatMap fun r => [ReadErr.clean].map fun err => (fun e c w => r.1 e c w err, r.2)

/-- The comparisons of CMP and CMPI (R270). -/
def compares (n : Nat) (a b : BitVec 64) : Bool :=
  if n = 0 then a == b else if n = 1 then a != b else if n = 2 then decide (a.toInt < b.toInt)
  else if n = 3 then decide (b.toInt ≤ a.toInt) else if n = 4 then decide (a.toNat < b.toNat) else decide (b.toNat ≤ a.toNat)

/-- What an access at an offset of a space reads or takes an exception for: the module in which an access that passed its checks
has read n bytes, `k` says what it does with them (R260, R274). -/
def reading (s : State) (e c : Nat) (x : Ctx) (err : ReadErr) (sp off : Nat) (k : Module → Module) : Module :=
  let m := (holding s e c x (begun s e c x)).readReport err 2 12 13 x.inst e
  if err.isUe then m.kExc e c x.pc.toNat 10 sp off else k m

end Sys2Proof.Claims
open Sys2Proof Sys2Proof.Machine Sys2Proof.Claims

/-! ### The block as a whole -/

/-- Step runs the command at the front of the queue on the rest of it; with none waiting the primary clock ticks once
(the model's choice, assumption 2). -/
def Obligations.StepFront : Prop :=
  (∀ (c : Instr) (r : List Instr) (s : State), step { s with pending := c :: r } = exec c { s with pending := r }) ∧
  (∀ s : State, s.pending = [] → step s = .next { s with m := (s.m.adv s.m.tim.incr).settle })

/-- The state right after power-on has its stores and memories in canonical form. -/
def Obligations.ResetCanonical : Prop := State.reset.wf = true ∧ State.reset.pending = []

/-- Every step of a state in canonical form answers a next state in canonical form. -/
def Obligations.StepKeepsCanonical : Prop :=
  ∀ s : State, s.wf = true → ∃ t, step s = .next t ∧ t.wf = true

/-- The effect of a command on the module, read off exec with an empty queue. -/
def Sys2Proof.Claims.effect (c : Instr) (m : Module) : Module :=
  match exec c ⟨m, []⟩ with
  | .next t => t.m
  | .fault _ => m
  | .refused _ => m

/-- As many steps as commands wait empty the queue: each command runs once, first in, first out, none stops the block, and
none sees or changes what waits behind it. -/
def Obligations.QueueDrains : Prop :=
  ∀ s : State, run s.pending.length s = .next ⟨s.pending.foldl (fun m c => effect c m) s.m, []⟩

/-- R16: right after power-on every register field reads its Reset value. -/
def Obligations.ResetRegisters : Prop := ∀ f : Fld, Module.reset.rd f = f.dflt

/-! ### Kiljo -/

/-- R270: the integer rows but DIV and REM. -/
def Sys2Proof.Claims.IntegerResultsClaim : Prop :=
  ∀ r ∈ intRows, ∀ s e c x w, acts s e c x r.1.2 w →
    becomes (r.1.1 e c w) s (holding s e c x ((past s e c x).setG w.a (r.2 x w)))

/-- R270: DIV and REM, and their exception 7. -/
def Sys2Proof.Claims.DivisionClaim : Prop :=
  ∀ s e c x w,
    (acts s e c x 0x05 w → x.getG w.c ≠ 0 →
      becomes (.div e c w) s (holding s e c x ((past s e c x).setG w.a (BitVec.ofInt 64 ((x.getG w.b).toInt.tdiv (x.getG w.c).toInt))))) ∧
    (acts s e c x 0x06 w → x.getG w.c ≠ 0 →
      becomes (.rem e c w) s (holding s e c x ((past s e c x).setG w.a (BitVec.ofInt 64 ((x.getG w.b).toInt.tmod (x.getG w.c).toInt))))) ∧
    (acts s e c x 0x05 w → x.getG w.c = 0 → becomes (.div e c w) s (excepts s e c x 7 0 0)) ∧
    (acts s e c x 0x06 w → x.getG w.c = 0 → becomes (.rem e c w) s (excepts s e c x 7 0 0))

/-- R270: CMP, CMPI and PLOG. -/
def Sys2Proof.Claims.PredicatesClaim : Prop :=
  ∀ s e c x w,
    (acts s e c x 0x19 w → becomes (.cmp e c w) s
      (holding s e c x ((past s e c x).setP w.a.toNat (compares w.imm.toNat (x.getG w.b) (x.getG w.c))))) ∧
    (acts s e c x 0x1A w → becomes (.cmpi e c w) s
      (holding s e c x ((past s e c x).setP w.a.toNat (compares w.c.toNat (x.getG w.b) (w.imm.signExtend 64))))) ∧
    (acts s e c x 0x1B w → becomes (.plog e c w) s
      (holding s e c x ((past s e c x).setP w.a.toNat
        (let b := x.getP w.b.toNat
         let d := x.getP w.c.toNat
         if w.imm.toNat = 0 then b && d else if w.imm.toNat = 1 then b || d else if w.imm.toNat = 2 then xor b d else b && !d))))

/-- R270, R275, R282: the rows that move values within the context, NOP and BR. -/
def Sys2Proof.Claims.MovesClaim : Prop :=
  ∀ r ∈ moveRows, ∀ s e c x w, acts s e c x r.1.2 w → becomes (r.1.1 e c w) s (holding s e c x (r.2 (past s e c x) w))

/-- R270: a write to g0 or p0 is ignored, and any other write is read back and leaves the other registers. -/
def Sys2Proof.Claims.RegisterWritesClaim : Prop :=
  ∀ x : Ctx, (∀ v, x.setG 0 v = x ∧ x.getG 0 = 0) ∧ (∀ b, x.setP 0 b = x ∧ x.getP 0 = true) ∧
    (∀ r v, r ≠ 0 → (x.setG r v).getG r = v ∧ ∀ q, q ≠ r → (x.setG r v).getG q = x.getG q) ∧
    (∀ n b, n < 8 → n ≠ 0 → (x.setP n b).getP n = b ∧ ∀ k, k < 8 → k ≠ n → (x.setP n b).getP k = x.getP k)

/-- R271, R272: the fp32 result in gA[31:0], gA[63:32] = 0, its flags into cs. -/
def Sys2Proof.Claims.FloatResultsClaim : Prop :=
  ∀ r ∈ floatRows, ∀ s e c x w, acts s e c x r.1.2 w →
    becomes (r.1.1 e c w) s (holding s e c x (((past s e c x).setG w.a ((r.2 x w).bits.setWidth 64)).orCs (r.2 x w).flags))

/-- R272: the eight lanes and the flags of all of them. -/
def Sys2Proof.Claims.LaneResultsClaim : Prop :=
  ∀ r ∈ laneRows, ∀ s e c x w, acts s e c x r.1.2 w →
    becomes (r.1.1 e c w) s (holding s e c x (((past s e c x).setV w.a fun l => (r.2 x w l).bits).orCs
      ((r.2 x w 0).flags ||| (r.2 x w 1).flags ||| (r.2 x w 2).flags ||| (r.2 x w 3).flags ||| (r.2 x w 4).flags |||
        (r.2 x w 5).flags ||| (r.2 x w 6).flags ||| (r.2 x w 7).flags)))

/-- R273: the four pairs, real part in the even lane, and the flags of all of them. -/
def Sys2Proof.Claims.ComplexResultsClaim : Prop :=
  ∀ r ∈ complexRows, ∀ s e c x w, acts s e c x r.1.2 w →
    becomes (r.1.1 e c w) s (holding s e c x (((past s e c x).setV w.a fun l =>
      if l % 2 = 0 then (r.2 x w (l / 2)).re else (r.2 x w (l / 2)).im).orCs
      ((r.2 x w 0).flags ||| (r.2 x w 1).flags ||| (r.2 x w 2).flags ||| (r.2 x w 3).flags)))

/-- R267: a row whose qualifying predicate does not hold advances the pc and does nothing else. -/
def Sys2Proof.Claims.UnqualifiedClaim : Prop :=
  (∀ r ∈ plainRows, ∀ s e c x w, issues s e c x → kEncodingOk r.2 w = true → x.qualified w = false →
    becomes (r.1 e c w) s (holding s e c x (past s e c x))) ∧
  (∀ r ∈ readRows, ∀ s e c x w err, issues s e c x → kEncodingOk r.2 w = true → x.qualified w = false →
    becomes (r.1 e c w err) s (holding s e c x (past s e c x)))

/-- R268: an undefined encoding takes exception 1, whatever its predicate. -/
def Sys2Proof.Claims.UndefinedEncodingClaim : Prop :=
  (∀ s e c x v, issues s e c x → kEncodingOk (kFields v).1 (kFields v).2 = false →
    becomes (.undefinedEncoding e c v) s (excepts s e c x 1 0 0)) ∧
  (∀ r ∈ plainRows, ∀ s e c x w, issues s e c x → kEncodingOk r.2 w = false → becomes (r.1 e c w) s (excepts s e c x 1 0 0))

/-- R274, R260: LD and VLD, by the first check that fails, then by the space. -/
def Obligations.Loads : Prop :=
  ∀ s e c x w err,
    (acts s e c x 0x60 w →
      let sp := w.c.toNat % 8
      let off := x.effAddr sp w.b w.imm
      let n := 2 ^ w.sz.toNat
      becomes (.ld e c w err) s
        (match x.memCheck sp off n n false with
         | some (code, d, a) => excepts s e c x code d a
         | none =>
           if sp = 4 then holding s e c x { past s e c x with phase := .waiting (.constLd w.a off n (w.c.getLsbD 3)) }
           else reading s e c x err sp off fun m =>
             m.setCtx e c ((past s e c x).setG w.a (extendLoad (x.bytesAt sp off n) (w.c.getLsbD 3))))) ∧
    (acts s e c x 0x62 w →
      let sp := w.c.toNat % 8
      let off := x.effAddr sp w.b w.imm
      becomes (.vld e c w err) s
        (match x.memCheck sp off 32 4 false with
         | some (code, d, a) => excepts s e c x code d a
         | none =>
           if sp = 4 then holding s e c x { past s e c x with phase := .waiting (.constVld w.a off) }
           else reading s e c x err sp off fun m =>
             m.setCtx e c ((past s e c x).setV w.a fun l => BitVec.ofNat 32 (leAt (x.bytesAt sp off 32) (4 * l) 4))))

/-- R274, R250: ST and VST store at the offset of their space, or take the exception of the first check that fails. -/
def Obligations.Stores : Prop :=
  ∀ s e c x w,
    (acts s e c x 0x61 w →
      let sp := w.c.toNat % 8
      let off := x.effAddr sp w.b w.imm
      let n := 2 ^ w.sz.toNat
      becomes (.st e c w) s
        (match x.memCheck sp off n n true with
         | some (code, d, a) => excepts s e c x code d a
         | none => holding s e c x ((past s e c x).storeBytes sp off (leBytes n (x.getG w.a).toNat)))) ∧
    (acts s e c x 0x63 w →
      let sp := w.c.toNat % 8
      let off := x.effAddr sp w.b w.imm
      becomes (.vst e c w) s
        (match x.memCheck sp off 32 4 true with
         | some (code, d, a) => excepts s e c x code d a
         | none => holding s e c x ((past s e c x).storeBytes sp off
             ((List.range 8).flatMap fun l => leBytes 4 (x.getV w.a l).toNat))))

/-- R250: a store into INST, OUT or LOC writes its bytes at their offsets and leaves every other byte of every space as it
was. -/
def Obligations.StoreFrame : Prop :=
  ∀ (x : Ctx) (sp off : Nat) (b : Bytes), sp = 0 ∨ sp = 2 ∨ sp = 3 →
    SMap.memWf x.instImg = true → SMap.memWf x.outImg = true →
    (∀ i, i < b.length → (x.storeBytes sp off b).byteAt sp (off + i) = b.getD i 0) ∧
    (∀ sq a, sq < 4 → ¬ (sq = sp ∧ off ≤ a ∧ a < off + b.length) → (x.storeBytes sp off b).byteAt sq a = x.byteAt sq a)

/-- R240, R276: RDCLK, CRDV, CRDQ and CRDH ask, and the context waits for the answer. -/
def Sys2Proof.Claims.AsksClaim : Prop :=
  ∀ r ∈ askRows, ∀ s e c x w, acts s e c x r.1.2 w →
    becomes (r.1.1 e c w) s (holding s e c x { past s e c x with phase := .waiting (r.2 x w) })

/-- R278, R281: a timer or EDGE on its block of the instance data: the checks of R281, then the evaluation with IN, PT and ct,
and the block written back. -/
def Obligations.Timers : Prop :=
  ∀ s e c x w err,
    (∀ r ∈ [((Instr.ton, 0x70), Timer.ton), ((Instr.tof, 0x71), Timer.tof), ((Instr.tp, 0x72), Timer.tp)], acts s e c x r.1.2 w →
      let off := x.effAddr 0 w.b w.imm
      becomes (r.1.1 e c w err) s
        (match x.blockCheck off 16 1 with
         | some (code, d, a) => excepts s e c x code d a
         | none => reading s e c x err 0 off fun m =>
             let t := r.2 (Timer.ofBytes (x.bytesAt 0 off 16)) (x.getP (w.a.toNat / 8)) (x.getG w.c).toNat x.ct
             m.setCtx e c (((past s e c x).storeBytes 0 off t.toBytes).setP (w.a.toNat % 8) t.q))) ∧
    (acts s e c x 0x74 w →
      let off := x.effAddr 0 w.b w.imm
      becomes (.edge e c w err) s
        (match x.blockCheck off 4 2 with
         | some (code, d, a) => excepts s e c x code d a
         | none => reading s e c x err 0 off fun m =>
             let now := x.getF w.c
             let prev : Word := BitVec.ofNat 32 (ofLe (x.bytesAt 0 off 4))
             m.setCtx e c (((past s e c x).storeBytes 0 off (leBytes 4 now.toNat)).setF w.a
               (if w.sz = 0 then now &&& ~~~prev else if w.sz = 1 then ~~~now &&& prev else now ^^^ prev))))

/-- R282, R283, R255: BRR, CALL, CALLR, RET and TRAP. -/
def Sys2Proof.Claims.ControlFlowClaim : Prop :=
  ∀ s e c x w,
    (acts s e c x 0x81 w →
      let t := x.getG w.b + w.imm.signExtend 64
      becomes (.brr e c w) s (if t.toNat % 8 = 0 then holding s e c x { past s e c x with pc := t.setWidth 18 }
        else excepts s e c x 1 0 0)) ∧
    (acts s e c x 0x82 w →
      becomes (.call e c w) s (match (past s e c x).call w (x.pc.setWidth 64 + w.imm.signExtend 64) with
        | .ok y => holding s e c x y
        | .exc code d a => excepts s e c x code d a)) ∧
    (acts s e c x 0x83 w →
      becomes (.callr e c w) s (match (past s e c x).call w (x.getG (w.imm.setWidth 6)) with
        | .ok y => holding s e c x y
        | .exc code d a => excepts s e c x code d a)) ∧
    (acts s e c x 0x84 w →
      becomes (.ret e c w) s (match x.stack with
        | [] => excepts s e c x 6 0 0
        | f :: r => holding s e c x { past s e c x with
            stack := r, pc := f.retPc, ib := f.ib, ii := f.ii, oi := f.oi, p := f.preds ||| 1 })) ∧
    (acts s e c x 0x85 w → becomes (.trap e c w) s (excepts s e c x 12 w.imm.toNat 0))

/-- R255, R283: a call to a multiple of 8 with fewer than 64 frames pushes a frame that a return undoes. -/
def Sys2Proof.Claims.CallReturnClaim : Prop :=
  ∀ (x : Ctx) (w : Kw) (t : BitVec 64), t.toNat % 8 = 0 → x.stack.length < 64 → x.p.getLsbD 0 = true →
    ∃ y, x.call w t = .ok y ∧ y.stack.length = x.stack.length + 1 ∧ y.pc = t.setWidth 18 ∧ y.ret = .ok x

/-- R284: PUBV, FRM, EVM and RECM stage an entry, or take exception 8 where the record would pass its limits. -/
def Sys2Proof.Claims.StagedEntriesClaim : Prop :=
  ∀ r ∈ stageRows, ∀ s e c x w, acts s e c x r.1.2 w →
    let l := x.recordEntries ++ [r.2 x w]
    becomes (r.1.1 e c w) s
      (if 4096 < 32 + entriesSize l ∨ 255 < l.length then excepts s e c x 8 l.length 0
       else holding s e c x { past s e c x with staged := x.staged ++ [r.2 x w] })

/-- R284: FRMR copies its frame from LOC; beyond LOC it takes exception 2. -/
def Sys2Proof.Claims.RawFramesClaim : Prop :=
  ∀ s e c x w err, acts s e c x 0x92 w →
    let off := (x.getG w.b).toNat
    let n := w.imm.toNat
    becomes (.frmr e c w err) s
      (if x.lay.inside 3 off n = false then excepts s e c x 2 3 off
       else reading s e c x err 3 off fun m =>
         let l := x.recordEntries ++ [.frameRaw ((x.getG w.c).setWidth 8) (x.bytesAt 3 off n)]
         if 4096 < 32 + entriesSize l ∨ 255 < l.length then m.kExc e c x.pc.toNat 8 l.length 0
         else m.setCtx e c { past s e c x with staged := x.staged ++ [.frameRaw ((x.getG w.c).setWidth 8) (x.bytesAt 3 off n)] })

/-- R285: COMMIT hands off a record of its entries, or without entries ends the cycle as DROP does; DROP ends it without a
record. -/
def Obligations.CommitDrop : Prop :=
  ∀ s e c x w,
    (acts s e c x 0x95 w →
      let l := x.recordEntries
      becomes (.commit e c w) s
        (if l = [] then (holding s e c x (past s e c x)).endWithout e c
         else if 4096 < 32 + entriesSize l ∨ 255 < l.length then excepts s e c x 8 l.length 0
         else holding s e c x { past s e c x with
           phase := .handing ⟨x.inst, x.gen, x.group, x.task, x.ct, 32 + entriesSize l, l, e, c, x.epoch, 0, .cycle⟩ })) ∧
    (acts s e c x 0x96 w → becomes (.drop e c w) s ((holding s e c x (past s e c x)).endWithout e c))

/-- R286: CRCI, CRCF, CRCT and CRCX ask a unit that serves the engines; of another unit they take exception 2 with DETAIL 5. -/
def Sys2Proof.Claims.CheckValueRequestsClaim : Prop :=
  ∀ r ∈ crcRows, ∀ s e c x w, acts s e c x r.1.2 w →
    let u := w.imm.toNat % 8
    ((s.m.capturePoint e c x).crcForEngines u = true → becomes (r.1.1 e c w) s (holding s e c x
      { past s e c x with phase := .waiting (.crc w.a u (BitVec.ofNat 64 (r.2 x w ((s.m.capturePoint e c x).crcSet u)))) })) ∧
    ((s.m.capturePoint e c x).crcForEngines u = false → ∃ addr, becomes (r.1.1 e c w) s
      ({ holding s e c x (begun s e c x) with freeIdx := (s.m.capturePoint e c x).freeIdx + 1 }.kExc e c x.pc.toNat 2 5 addr))

/-- R286: CRCB feeds 1 to 4,096 bytes of a space. -/
def Sys2Proof.Claims.CheckValueBlockClaim : Prop :=
  ∀ s e c x w err, acts s e c x 0xA2 w → (s.m.capturePoint e c x).crcForEngines (w.imm.toNat % 8) = true →
    let sp := w.sz.toNat
    let off := x.effAddr sp w.b 0
    let n := (x.getG w.c).toNat
    let u := w.imm.toNat % 8
    becomes (.crcb e c w err) s
      (if n = 0 ∨ 4096 < n ∨ x.lay.inside sp off n = false then excepts s e c x 2 sp off
       else reading s e c x err sp off fun m => m.setCtx e c { past s e c x with phase := .waiting (.crc w.a u
         (BitVec.ofNat 64 (((s.m.capturePoint e c x).crcSet u).feeds ((x.getG w.a).toNat % 2 ^ ((s.m.capturePoint e c x).crcSet u).w) (x.bytesAt sp off n)))) })

/-- R287, Table 12.7: TRC appends a mark to the trace. -/
def Sys2Proof.Claims.TraceMarkClaim : Prop :=
  ∀ s e c x w, acts s e c x 0xB0 w → ∃ t3 : Word,
    becomes (.trc e c w) s
      (((holding s e c x (begun s e c x)).traceWords [(x.getG w.b).setWidth 32, BitVec.ofNat 32 x.ct,
        BitVec.ofNat 32 (7 + x.task * 2 ^ 3 + w.imm.toNat % 2 ^ 16 * 2 ^ 16), t3]).setCtx e c (past s e c x))

/-- R276, R277, R286: the answer that a context waits for: a clock, a constant, a check value. -/
def Sys2Proof.Claims.AnswersClaim : Prop :=
  ∀ s e c x err, s.m.ctx? e c = some x →
    (∀ a, x.phase = .waiting (.clock a 0) → becomes (.globalReadAnswer e c err) s
      (s.m.setCtx e c { x.setG a (BitVec.ofNat 64 s.m.tns) with phase := .running })) ∧
    (∀ a, x.phase = .waiting (.clock a 1) → becomes (.globalReadAnswer e c err) s
      (s.m.setCtx e c { x.setG a (BitVec.ofNat 64 (s.m.tns % 2 ^ 32)) with phase := .running })) ∧
    (∀ a off n sx, x.phase = .waiting (.constLd a off n sx) → err.isUe = false → becomes (.globalReadAnswer e c err) s
      ((s.m.readReport err 0 0 2 x.inst e).setCtx e c
        { x.setG a (extendLoad (slice s.m.cul.consts off n) sx) with phase := .running })) ∧
    (∀ a u v, x.phase = .waiting (.crc a u v) → becomes (.globalReadAnswer e c err) s
      ((s.m.bump (R.CRC_REQ_CNT_CNT u)).setCtx e c { x.setG a v with phase := .running }))

/-- R256, Table 10.6: taking an exception writes the next entry of the ring and moves on. -/
def Obligations.ExceptionEntry : Prop :=
  ∀ (m : Module) (code e c detail pc task inst gen ct addr : Nat), SMap.rising m.regs = true →
    let i := m.rd R.BEN_EXC_WR_NEXT
    let t := m.excEntry code e c detail pc task inst gen ct addr
    i < 256 →
    t.rd (R.BEN_EXC0_CODE i) = code % 2 ^ (R.BEN_EXC0_CODE i).width ∧ t.rd (R.BEN_EXC0_ENGINE i) = e % 2 ^ (R.BEN_EXC0_ENGINE i).width ∧
    t.rd (R.BEN_EXC0_DETAIL i) = detail % 2 ^ (R.BEN_EXC0_DETAIL i).width ∧ t.rd (R.BEN_EXC1_PC i) = pc % 2 ^ (R.BEN_EXC1_PC i).width ∧
    t.rd (R.BEN_EXC1_TASK i) = task % 2 ^ (R.BEN_EXC1_TASK i).width ∧ t.rd (R.BEN_EXC3_CYCLE_TS i) = ct % 2 ^ 32 ∧
    t.rd (R.BEN_EXC4_AT i) = m.ts32 ∧ t.rd (R.BEN_EXC5_ADDR i) = addr % 2 ^ 32 ∧ t.rd R.BEN_EXC_WR_NEXT = (i + 1) % 256

/-! ### Power, resets and operating modes -/

/-- What a reset leaves of a module (R85, R94): RESET mode, registers at their Reset values, no culture, nothing in progress; the
flash, the root secret and owner slots and the bytes of the Cave as they were. -/
def Sys2Proof.Claims.rebooted (m0 m : Module) : Prop :=
  m.mode = .reset ∧ m.clk = 0 ∧ m.cul = Culture.init ∧ m.engines = [] ∧ m.press = Press.init ∧ m.evr.queue = [] ∧
    m.persist = m0.persist ∧ (∀ a, m.evr.cave.getD a 0 = m0.evr.cave.getD a 0) ∧ m.rd R.SYS_READY_READY = 0

/-- The cause bits of SYS_RESET_CAUSE, in order (R85). -/
def Sys2Proof.Claims.causeBits : List Fld :=
  [R.SYS_RESET_CAUSE_POWER_ON_STK, R.SYS_RESET_CAUSE_SW_STK, R.SYS_RESET_CAUSE_PLL_STK, R.SYS_RESET_CAUSE_THERMAL_STK,
   R.SYS_RESET_CAUSE_FLUSH_STK, R.SYS_RESET_CAUSE_STEWARD_STK]

/-- R85, R87, R89, R90: POWER_ON unless the trip latch holds, MODULE_RESET with its causes, the two words of SYS_RESET in time, and
HOLDUP_EXHAUSTED. -/
def Obligations.Resets : Prop :=
  (∀ (s : State) (rested : Bool), (s.m.sys.latched = true → rested = true) → completes (.powerOn rested) s fun m =>
    rebooted s.m m ∧ m.rd R.SYS_RESET_CAUSE_POWER_ON_STK = 1 ∧ m.sys = SysSt.init) ∧
  (∀ (s : State) (causes : Nat), s.m.sys.off = false → completes (.moduleReset causes) s fun m =>
    rebooted s.m m ∧ m.host.mps = s.m.host.mps) ∧
  (∀ s : State, s.m.sys.off = false → s.m.sys.resetWord = none →
    becomes (.sysReset 0xA5C3) s { s.m with sys := { s.m.sys with resetWord := some s.m.mono } }) ∧
  (∀ (s : State) (t : Nat), s.m.sys.off = false → s.m.sys.resetWord = some t → s.m.mono ≤ t + 1000000 * nsUnit →
    completes (.sysReset 0x3C5A) s fun m => rebooted s.m m ∧ m.rd R.SYS_RESET_CAUSE_SW_STK = 1) ∧
  (∀ s : State, s.m.mode = .flush → completes .holdupExhausted s fun m =>
    rebooted s.m m ∧ m.sys.off = true ∧ m.sys.latched = s.m.sys.trip)

/-- R94: after power-on SYS_RESET_CAUSE holds its Reset values; a later module reset sets the bits of its own causes and keeps the
others. -/
def Obligations.ResetCauses : Prop :=
  (∀ (s : State) (rested : Bool), (s.m.sys.latched = true → rested = true) → completes (.powerOn rested) s fun m =>
    ∀ k f, causeBits[k]? = some f → m.rd f = if k = 0 then 1 else 0) ∧
  (∀ (s : State) (causes : Nat), s.m.sys.off = false → (∀ f ∈ causeBits, s.m.rd f < 2) → completes (.moduleReset causes) s fun m =>
    ∀ k f, causeBits[k]? = some f → m.rd f = if bitOf causes k then 1 else s.m.rd f)

/-- R78, R76, R169: with the bank and the inputs within their limits RESET_EXIT samples the Seal Bank, starts the primary clock at 0
and enters LOAD. -/
def Obligations.ResetExit : Prop :=
  ∀ (s : State) (sw bank slot aux : Nat), s.m.mode = .reset → s.m.sys.off = false → s.m.sys.held = false → 34500 ≤ bank →
    11040 ≤ slot → slot ≤ 12960 → 11040 ≤ aux → aux ≤ 12960 → SMap.rising s.m.regs = true →
    completes (.resetExit sw bank slot aux) s fun m =>
      m.mode = .load ∧ m.clk = 0 ∧ m.rd R.SYS_SEAL_AT_RESET = sw % 256 ∧ m.rd R.SYS_SEAL_NOW = sw % 256 ∧ m.persist = s.m.persist

/-- R79, R90, R82, R384: POWER_FAIL, and THERMAL_TRIP at 120 °C or more, enter FLUSH; FLUSH_DONE ends it in a module reset with
FLUSH_STK where the power is back, and after a trip turns the regulators off for good. -/
def Obligations.Flush : Prop :=
  (∀ s : State, s.m.sys.off = false → s.m.mode ≠ .reset → s.m.mode ≠ .flush → completes .powerFail s fun m =>
    m.sys.trip = false ∧ m.sys.flushed = false ∧ m.evr.flushing = true) ∧
  (∀ (s : State) (die inlet : Int), 120 ≤ die → s.m.sys.off = false → s.m.mode ≠ .reset → s.m.mode ≠ .flush →
    completes (.thermalTrip die inlet) s fun m => m.sys.trip = true ∧ m.evr.flushing = true) ∧
  (∀ s : State, s.m.mode = .flush → s.m.sys.off = false → s.m.sys.trip = false → completes (.flushDone true) s fun m =>
    m.mode = .reset ∧ m.cul = Culture.init ∧ m.persist = s.m.persist ∧ m.rd R.SYS_RESET_CAUSE_FLUSH_STK = 1) ∧
  (∀ (s : State) (power : Bool), s.m.mode = .flush → s.m.sys.off = false → s.m.sys.trip = true →
    completes (.flushDone power) s fun m => m.sys.off = true ∧ m.sys.latched = true ∧ m.mode = .reset)

/-- R81, R84, R90, R88, R431: the monitors. The bank below 34.5 V and back, the clock monitor's two checks, the thermal warning at
100 °C and its end at 95 °C, SAFE-HOLD at 110 °C, the Steward's watchdog, the reread of the Seal Bank. -/
def Obligations.Monitors : Prop :=
  (∀ (s : State) (mv : Nat), s.m.mode ≠ .reset → s.m.mode ≠ .flush → mv < 34500 → s.wf = true → completes (.holdupLow mv) s fun m =>
    m.rd R.SYS_HOLDUP_BANK_MV = mv ∧ m.rd R.SYS_HOLDUP_OK = 0 ∧ m.mode = s.m.mode) ∧
  (∀ (s : State) (mv : Nat), s.m.mode ≠ .reset → 34500 ≤ mv → s.wf = true → completes (.holdupRecharged mv) s fun m =>
    m.rd R.SYS_HOLDUP_BANK_MV = mv % 65536 ∧ m.rd R.SYS_HOLDUP_OK = 1) ∧
  (∀ s : State, s.m.mode ≠ .reset → s.m.sys.off = false → s.m.sys.failedChecks = 0 → completes (.clockCheck true false) s fun m =>
    m.sys.held = true ∧ m.sys.failedChecks = 1) ∧
  (∀ s : State, s.m.mode ≠ .reset → s.m.sys.off = false → s.m.sys.failedChecks = 1 → completes (.clockCheck true false) s fun m =>
    m.mode = .reset ∧ m.rd R.SYS_RESET_CAUSE_PLL_STK = 1) ∧
  (∀ (s : State) (die inlet : Int), 100 ≤ die → s.m.sys.off = false → s.m.sys.warn = false → s.wf = true →
    completes (.thermalWarning die inlet) s fun m => m.sys.warn = true ∧ m.mode = s.m.mode) ∧
  (∀ (s : State) (die inlet : Int), die ≤ 95 → s.m.sys.off = false →
    completes (.thermalWarningCleared die inlet) s fun m => m.sys.warn = false) ∧
  (∀ (s : State) (die inlet : Int), 110 ≤ die → s.m.sys.off = false → (s.m.mode = .active ∨ s.m.mode = .standby ∨ s.m.mode = .ripen) →
    completes (.thermalCritical die inlet) s fun m => m.mode = .safeHold) ∧
  (∀ s : State, s.m.mode = .load → completes .stewardWatchdogExpiry s fun m =>
    m.mode = .reset ∧ m.rd R.SYS_RESET_CAUSE_STEWARD_STK = 1) ∧
  (∀ s : State, s.m.mode = .active → completes .stewardWatchdogExpiry s fun m => m.mode = .active ∧ m.tim.runs = s.m.tim.runs.erase 1) ∧
  (∀ (s : State) (sw : Nat), s.m.mode ≠ .reset → sw < 256 → s.m.rd R.SYS_SEAL_NOW ≠ sw → s.wf = true →
    completes (.sealReread sw) s fun m => m.rd R.SYS_SEAL_NOW = sw ∧ m.rd R.SYS_SEAL_AT_RESET = s.m.rd R.SYS_SEAL_AT_RESET ∧
      m.rd R.SEAL_LAST_VAL_OLD = s.m.rd R.SYS_SEAL_NOW % 256 ∧ m.rd R.SEAL_LAST_VAL_NEW = sw)

/-! ### The Timekeeper -/

/-- R171, R177, R178: NOW_READ and VC_NOW_READ answer the nanoseconds and hold the other words of the same instant for the
reading function; VC_OFF_WRITE commits both words; a write of the rate or the offset takes effect at the instant. -/
def Obligations.ClockReads : Prop :=
  (∀ (s : State) (fn : Nat), s.m.mode ≠ .reset → completes (.nowRead fn) s fun m =>
    m.rdata = BitVec.ofNat 32 (s.m.tns % 1000000000) ∧
    m.latch.getD (fn * 2 ^ 33 + 0x200008) 0 = s.m.tns / 1000000000 % 2 ^ 32 ∧
    m.latch.getD (fn * 2 ^ 33 + 0x20000c) 0 = s.m.tns / 1000000000 / 2 ^ 32 % 2 ^ 16 ∧
    m.latch.getD (fn * 2 ^ 33 + 0x200010) 0 = s.m.clk % 2 ^ 32 ∧ m.latch.getD (fn * 2 ^ 33 + 0x200014) 0 = s.m.tns % 2 ^ 32 ∧
    m.clk = s.m.clk ∧ m.mono = s.m.mono) ∧
  (∀ (s : State) (fn v : Nat), s.m.mode ≠ .reset → s.m.rd (R.TIM_VC_CFG_EN v) = 1 → completes (.vcNowRead fn v) s fun m =>
    m.rdata = BitVec.ofNat 32 (unsignedOf (s.m.vcNow v % 1000000000) 32) ∧
    m.latch.getD (fn * 2 ^ 33 + (0x200114 + 0x20 * v)) 0 = unsignedOf (s.m.vcNow v / 1000000000) 48 % 2 ^ 32 ∧
    m.latch.getD (fn * 2 ^ 33 + (0x200118 + 0x20 * v)) 0 = unsignedOf (s.m.vcNow v / 1000000000) 48 / 2 ^ 32) ∧
  (∀ (s : State) (v rate : Nat), s.m.mode ≠ .reset → s.m.rd (R.TIM_VC_CFG_BIND v) = 0 → v < 4 → s.wf = true →
    -(2 ^ 63) ≤ s.m.vcNow v - s.m.tns → s.m.vcNow v - s.m.tns < 2 ^ 63 → completes (.vcRateWrite v rate) s fun m =>
      m.rd (R.TIM_VC_RATE_RATE v) = rate % 2 ^ 32 ∧ m.vcNow v = s.m.vcNow v) ∧
  (∀ (s : State) (fn v hi lo : Nat), s.m.mode ≠ .reset → s.m.rd (R.TIM_VC_CFG_BIND v) = 0 → v < 4 → s.wf = true →
    s.m.wlatch.get? (fn * 2 ^ 33 + (0x200104 + 0x20 * v)) = some lo → lo < 2 ^ 32 → completes (.vcOffWrite fn v hi) s fun m =>
      m.vcNow v = s.m.tns + signedOf (lo + 2 ^ 32 * (hi % 2 ^ 32)) 64)

/-- R179 to R181, R185, R186: what the sources hand to the servo, the loss of a source and the selection after it. -/
def Obligations.TimeSources : Prop :=
  (∀ (s : State) (x : PtpMsg) (o : TimeOffset) (t : Nat), s.m.ready 0 = true → x.sound = true → bitOf s.m.tim.cfg.ptpPorts x.port = true →
    x.domain = s.m.tim.cfg.domain → x.replies = [] → x.offset = some o → s.wf = true → completes (.ptpMessage x t) s fun m =>
      m.tim.offsets = s.m.tim.offsets ++ [{ o with src := 1 }] ∧ m.rd R.TIM_PTP_PORTS_STATE = x.states % 2 ^ R.TIM_PTP_PORTS_STATE.width ∧
      m.out = s.m.out) ∧
  (∀ (s : State) (p : Nat), s.m.tim.cfg.role = 1 → bitOf s.m.tim.cfg.ptpPorts p = true →
    bitsOf (s.m.rd R.TIM_PTP_PORTS_STATE) (2 * p) 2 = 2 → s.m.linkUp p = true → s.m.ready 0 = true → completes (.syncSend p) s fun m =>
      m.out = s.m.out ++ [.ptpSync p s.m.tns] ∧ m.tim = s.m.tim) ∧
  (∀ (s : State) (sec t : Nat), s.m.mode ≠ .reset → s.m.ready 0 = true → s.wf = true → completes (.irigbFrame (some sec) t) s fun m =>
    m.rd R.SYS_HAUL_IRIGB_PRESENT = 1 ∧ m.tim.offsets = s.m.tim.offsets ++
      [⟨3, ((t : Int) - ((sec + s.m.rd R.TIM_UTC_UTC_OFFSET) * 1000000000 : Nat)) * 65536, 1000000000, none⟩]) ∧
  (∀ (s : State) (src : Nat) (r : SrcRun), s.m.tim.runs.get? src = some r → s.m.sys.still = false → completes (.sourceLost src) s fun m =>
    m.tim.runs = s.m.tim.runs.erase src ∧ m.tim.selected = m.bestSrc ∧
      m.mono = max s.m.mono (r.last + s.m.rd R.TIM_HOLD_HOLD_TMO_MS * 1000000 * nsUnit))

/-- R187: an offset below STEP_NS of the selected source moves the integral, the correction and the increment by the servo's
equations; the module takes it off the queue and the clock stands where it was. -/
def Obligations.ServoEquations : Prop :=
  ∀ (s : State) (o : TimeOffset) (r : SrcRun), s.m.tim.offsets = [o] → s.m.tim.selected = some o.src → s.m.bestSrc = some o.src →
    s.m.ready 0 = true → s.m.mode ≠ .reset → s.m.tim.runs.get? o.src = some r → r.qualified = true →
    s.m.mono < r.last + s.m.rd R.TIM_HOLD_HOLD_TMO_MS * 1000000 * nsUnit → o.utc = none →
    o.theta.natAbs < s.m.rd R.TIM_STEP_NS_STEP_NS * 65536 → completes .servoOffset s fun m =>
      let i := clampTo (s.m.rd R.TIM_LIMITS_MAX_PPB * 65536 * o.tau / 1000000000)
        (s.m.tim.integ + divRne (s.m.rd R.TIM_SERVO_KI * o.theta) 65536)
      let y := clampTo (s.m.rd R.TIM_LIMITS_MAX_PPB * 65536)
        (divRne (-((divRne (s.m.rd R.TIM_SERVO_KP * o.theta) 65536 + i) * 1000000000)) (max 1 o.tau))
      m.tim.integ = i ∧ m.tim.y = y ∧ m.tim.incr = ((2 ^ 34 : Int) + divRne (2 ^ 34 * y) (65536 * 1000000000)).toNat ∧
        m.tim.offsets = [] ∧ m.clk = s.m.clk

/-- R182 to R184: the Haulato bus. Relay of edge and time frame, the originator's pair, and the echo in both directions. -/
def Obligations.HaulatoBus : Prop :=
  (∀ (s : State) (t : Nat), s.m.mode ≠ .reset → s.m.haulOrig = false → completes (.haulatoEdge t) s fun m =>
    m.tim.edge = some t ∧ m.out = s.m.out ++ [.edge (t + 160)]) ∧
  (∀ (s : State) (b : Bytes) (t e : Nat), s.m.mode ≠ .reset → s.m.haulOrig = false → b.length = 18 → haulOk b 1 = true → beAt b 12 1 < 16 →
    beAt b 13 1 % 4 < 2 → s.m.tim.edge = some e → s.m.ready 0 = true → completes (.haulatoTimeFrame b t) s fun m =>
      let body := (b.take 8).drop 1 ++ beBytes 4 (beAt b 8 4 + s.m.rd R.SYS_HAUL_IN_DLY_NS + 160) ++ beBytes 1 (beAt b 12 1 + 1) ++
        (b.drop 13).take 3
      m.out = s.m.out ++ [.haulato 0 ([0xA5] ++ body ++ beBytes 2 (crc16 body))] ∧ m.tim.edge = none ∧
      m.tim.offsets = s.m.tim.offsets ++ [⟨2, ((e : Int) - (beAt b 2 6 * 1000000000 + beAt b 8 4 + s.m.rd R.SYS_HAUL_IN_DLY_NS : Nat)) *
        65536, 1000000000, some (beAt b 14 2, false, false)⟩]) ∧
  (∀ s : State, s.m.mode ≠ .reset → s.m.haulOrig = true → completes .haulatoOriginEdge s fun m =>
    let sec := s.m.tns / 1000000000 + 1
    let body := beBytes 1 1 ++ beBytes 6 sec ++ beBytes 4 0 ++ beBytes 1 0 ++ beBytes 1 s.m.haulQual ++ beBytes 2 (s.m.rd R.TIM_UTC_UTC_OFFSET)
    m.out = s.m.out ++ [.edge (sec * 1000000000), .haulato 0 ([0xA5] ++ body ++ beBytes 2 (crc16 body))]) ∧
  (∀ (s : State) (token : Nat), s.m.mode ≠ .reset → completes (.echoRequest token) s fun m =>
    m.tim.echo = some (token % 65536, s.m.tns) ∧ m.out = s.m.out ++ [.haulato 1 (echoFrame 5 token)]) ∧
  (∀ (s : State) (b : Bytes) (t t0 : Nat), s.m.tim.echo = some (beAt b 2 2, t0) → b.length = 6 → haulOk b 6 = true → t0 ≤ t →
    t < t0 + 10000 → s.wf = true → completes (.echoAnswer b t) s fun m =>
      m.tim.echo = none ∧ m.tim.echoFails = 0 ∧ m.rd R.SYS_HAUL_IN_LINK = 1 ∧
      m.rd R.SYS_HAUL_IN_DLY_NS = (t - t0 - 2000) / 2 % 2 ^ R.SYS_HAUL_IN_DLY_NS.width) ∧
  (∀ (s : State) (tok t0 : Nat), s.m.tim.echo = some (tok, t0) → s.wf = true → completes .echoTimeout s fun m =>
    m.tim.echo = none ∧ m.tim.echoFails = s.m.tim.echoFails + 1 ∧ (2 ≤ s.m.tim.echoFails → m.rd R.SYS_HAUL_IN_LINK = 0)) ∧
  (∀ (s : State) (b : Bytes) (t : Nat), s.m.mode ≠ .reset → b.length = 6 → haulOk b 5 = true → s.wf = true →
    completes (.echoRequestReceive b t) s fun m =>
      m.out = s.m.out ++ [.haulato 0 (echoFrame 6 (beAt b 2 2))] ∧ m.rd R.SYS_HAUL_OUT_LINK = 1 ∧ m.tim.outUntil = t + 2000000000) ∧
  (∀ s : State, s.m.rd R.SYS_HAUL_OUT_LINK = 1 → s.wf = true → completes .outLinkExpiry s fun m => m.rd R.SYS_HAUL_OUT_LINK = 0)

/-! ### Ports and the switch -/

/-- R125 to R128, R137, R145: the cage's signals, the diagnostics, MAC_CTRL, links up and down, the end of the hold window, the SAK
of MKA. -/
def Obligations.PortEvents : Prop :=
  ∀ (s : State) (p : Nat), p < 10 → s.wf = true →
    (∀ absent fault los copper rates, completes (.cageSignalChange p absent fault los copper rates) s fun m =>
      m.rd (R.MAC_STATUS_MOD_PRESENT p) = b2n !absent ∧ m.rd (R.MAC_STATUS_TX_FAULT p) = b2n fault ∧
      m.rd (R.MAC_STATUS_RX_LOS p) = b2n los ∧ m.rd (R.MAC_STATUS_COPPER p) = b2n (copper && !absent) ∧
      (absent = true ∨ fault = true → m.isOn (R.MAC_STATUS_LINK p) = false)) ∧
    (∀ temp rx alarm, s.m.rd (R.MAC_STATUS_MOD_PRESENT p) = 1 → completes (.sfpDiagRead p temp rx alarm) s fun m =>
      m.rd (R.MAC_SFP_DIAG_TEMP p) = temp % 2 ^ 16 ∧ m.rd (R.MAC_SFP_DIAG_RX_PWR p) = rx % 2 ^ 16 ∧
      m.rd (R.MAC_STATUS_TEMP_ALARM_STK p) = if alarm then 1 else s.m.rd (R.MAC_STATUS_TEMP_ALARM_STK p)) ∧
    (∀ v, s.m.mode ≠ .reset → completes (.macCtrlWrite p v) s fun m =>
      m.rd (R.MAC_CTRL_EN p) = v % 2 ∧ m.rd (R.MAC_CTRL_SPEED p) = bitsOf v 1 2 ∧ m.rd (R.MAC_CTRL_FEC p) = bitsOf v 3 2 ∧
      m.rd (R.MAC_CTRL_MAX_LEN p) = bitsOf v 8 14 ∧ (bitOf v 0 = false → m.isOn (R.MAC_STATUS_LINK p) = false)) ∧
    (s.m.mayLink p = true → s.m.rd (R.MAC_STATUS_LINK p) = 0 → completes (.linkUp p) s fun m =>
      m.rd (R.MAC_STATUS_LINK p) = 1 ∧ m.rd (R.MAC_STATUS_RATE p) = s.m.wantedRate p % 4 ∧ m.rd (R.MAC_STATUS_HOLDING p) = 0) ∧
    (s.m.rd (R.MAC_STATUS_LINK p) = 1 → completes (.linkDown p) s fun m =>
      m.rd (R.MAC_STATUS_LINK p) = 0 ∧ m.rd (R.MAC_STATUS_RATE p) = 0 ∧ m.rd (R.MAC_STATUS_LINK_DOWN_STK p) = 1 ∧
      m.rd (R.MAC_SEC_STAT_SECURE p) = 0 ∧ (s.m.rd (R.MAC_HOLD_HOLD_US p) ≠ 0 → m.rd (R.MAC_STATUS_HOLDING p) = 1 ∧
        m.sw.holdEnd.get? p = some (s.m.mono + s.m.rd (R.MAC_HOLD_HOLD_US p) * 1000 * nsUnit))) ∧
    (∀ e, s.m.sw.holdEnd.get? p = some e → s.m.sys.still = false → SMap.rising s.m.sw.queues = true → completes (.holdEnd p) s fun m =>
      m.rd (R.MAC_STATUS_HOLDING p) = 0 ∧ m.sw.holdEnd = s.m.sw.holdEnd.erase p ∧ m.mono = max s.m.mono e ∧
      (s.m.portUp (if s.m.inPair p then p / 2 * 2 else p) = false → ∀ q < 8, m.queue (.cls p q) = [])) ∧
    (∀ an t k, (s.m.keys.ports.get? p).bind (·.cak) = some k → (s.m.slot k).state = .ready → (s.m.slot k).attr = 2 →
      s.m.ready 12 = true → s.m.rd (R.MAC_CTRL_MACSEC_EN p) = 1 → s.m.rd (R.MAC_STATUS_LINK p) = 1 →
      completes (.eapolFrame p (some an) false t) s fun m =>
        m.rd (R.MAC_SEC_STAT_SECURE p) = 1 ∧ m.rd (R.MAC_SEC_STAT_TX_AN p) = an % 2)

/-- R134 to R136, R138, R142: pauses and their end, the timestamp queue, supervision frames, the duplicate table. -/
def Obligations.PortQueues : Prop :=
  (∀ (s : State) (p n t : Nat), p < 10 → n ≠ 0 → s.m.rd (R.MAC_STATUS_LINK p) = 1 → s.m.rd (R.MAC_PAUSE_CFG_RX_PAUSE_EN p) = 1 →
    s.m.rd (R.MAC_PAUSE_CFG_IGN_PAUSE p) = 0 → completes (.pauseFrame p false 0xFF [n] t) s fun m =>
      ∀ q < 8, m.sw.pauses.get? (8 * p + q) = some (m.mono + n * 512 * nsUnit / s.m.runRate p)) ∧
  (∀ (s : State) (p q e : Nat), s.m.sw.pauses.get? (8 * p + q) = some e → s.m.sys.still = false →
    completes (.pauseExpiry p q) s fun m => m.sw.pauses = s.m.sw.pauses.erase (8 * p + q) ∧ m.mono = max s.m.mono e) ∧
  (∀ (s : State) (p : Nat), s.m.mode ≠ .reset → completes (.tsqPop p) s fun m =>
    m.sw.tsq.getD p [] = (s.m.sw.tsq.getD p []).drop 1 ∧ ∀ n, n ≠ p → m.sw.tsq.getD n [] = s.m.sw.tsq.getD n []) ∧
  (∀ (s : State) (p : Nat), s.m.redund p ≠ 0 → s.m.swOn = true → s.m.linkUp p = true → s.m.linkUp (p + 1) = true →
    completes (.supervisionSend p) s fun m =>
      m.out = s.m.out ++ [.supervision p (s.m.redund p), .supervision (p + 1) (s.m.redund p)]) ∧
  (∀ (s : State) (p a b e : Nat) (r : List (Nat × Nat × Nat)), s.m.sw.dups.get? p = some ((a, b, e) :: r) → s.m.sys.still = false →
    completes (.duplicateEntryExpiry p) s fun m => m.sw.dups.getD p [] = r ∧ m.mono = max s.m.mono e)

/-- R133, R160: a waiting class-7 frame that nothing pauses and no age limit holds starts at once, before every other class. -/
def Sys2Proof.Claims.FrameStartClaim : Prop :=
  ∀ (s : State) (p : Nat) (c : Copy) (r : List Copy), p < 10 → s.m.swOn = true → s.m.sys.held = false → s.m.inPair p = false →
    s.m.linkUp p = true → s.m.sw.pauses.get? (8 * p + 7) = none → s.m.rd (R.MAC_AGE_AGE_US p 7) = 0 →
    s.m.queue (.cls p 7) = c :: r → SMap.rising s.m.sw.queues = true → completes (.frameStart p) s fun m =>
      m.out = s.m.out ++ [.frame p c.bytes m.tns] ∧ m.queue (.cls p 7) = r ∧ (m.sw.wire.get? p).map (·.2) = some 7 ∧
      (∀ n q, q < 8 → (n, q) ≠ (p, 7) → m.queue (.cls n q) = s.m.queue (.cls n q)) ∧ ∀ i, m.queue (.hp i) = s.m.queue (.hp i)

/-- A frame at P0 to P9, outside a redundant pair, that has passed the receive checks and is classified as c, while no port is a
mirror's source or destination. -/
abbrev Sys2Proof.Claims.arrives (m : Module) (p : Nat) (b : Bytes) (t : Nat) (c : Classed) : Prop :=
  p < 10 ∧ m.swOn = true ∧ m.rd (R.MAC_STATUS_LINK p) = 1 ∧ m.linkUp p = true ∧ m.inPair p = false ∧
    (ethOf b).etype ≠ 0x8808 ∧ (m.divert p b (ethOf b) t).isNone = true ∧ m.isOn R.SYS_MODE_MINIMAL = false ∧
    m.classify p (ethOf b) = some c ∧ ∀ k < 4, m.isOn (R.SWC_MIR0_EN k) = false

/-- R152, R164: a frame whose destination is known at another port that is up joins the end of one class queue there, as the VLAN
says tagged or untagged; no other queue changes. -/
def Sys2Proof.Claims.ForwardingClaim : Prop :=
  ∀ (s : State) (p : Nat) (f : RxFrame) (t n q : Nat) (c : Classed), arrives (s.m.reach t) p f.bytes t c →
    s.m.rxFail p f = none → s.m.sw.cuts.get? p = none → s.m.rd (R.SWC_PORT_CFG_LEARN p) = 0 →
    bitsOf (s.m.rd (R.SWC_PCP_MAP_MAP p)) (3 * c.pcp) 3 = q → q < 7 →
    s.m.dests p c.vlan (s.m.lookup p (ethOf f.bytes).dst c.vid c.vlan).1 = [.inl n] → n < 10 → s.m.portUp n = true →
    s.m.admits (.cls n q) (cellsOf (copyFor f.bytes c n)) = true → completes (.frameReceive p f t) s fun m =>
      (∃ x : Copy, m.queue (.cls n q) = s.m.queue (.cls n q) ++ [x] ∧ x.bytes = copyFor f.bytes c n ∧ x.ts = t ∧ x.inp = p ∧
        x.admitted = m.tns) ∧
      (∀ a b, b < 8 → (a, b) ≠ (n, q) → m.queue (.cls a b) = s.m.queue (.cls a b)) ∧ ∀ i, m.queue (.hp i) = s.m.queue (.hp i)

/-- R153: a frame that is not diverted teaches the switch its source, at its port, in its VLAN. -/
def Sys2Proof.Claims.LearningClaim : Prop :=
  ∀ (s : State) (p : Nat) (f : RxFrame) (t : Nat) (c : Classed), arrives (s.m.reach t) p f.bytes t c → s.m.rxFail p f = none →
    s.m.sw.cuts.get? p = none → s.m.rd (R.SWC_PORT_CFG_LEARN p) = 1 → isGroup (ethOf f.bytes).src = false →
    s.m.sw.fdb.get? (fdbKey (ethOf f.bytes).src c.vid) = none → s.m.sw.fdb.length < 65536 → completes (.frameReceive p f t) s fun m =>
      m.sw.fdb = s.m.sw.fdb.set (fdbKey (ethOf f.bytes).src c.vid) ⟨p, 0, 0, false, false, 0, m.mono⟩

/-- R157: a frame whose one destination is an idle port that is up and no faster takes the cut-through path at its first 64
bytes. -/
def Sys2Proof.Claims.CutThroughClaim : Prop :=
  ∀ (s : State) (p n q : Nat) (head : Bytes) (t : Nat) (c : Classed), arrives (s.m.reach t) p head t c →
    s.m.rd (R.SWC_PORT_CFG_CUT_THRU p) = 1 → bitsOf (s.m.rd (R.SWC_PCP_MAP_MAP p)) (3 * c.pcp) 3 = q → q < 7 →
    s.m.dests p c.vlan (s.m.lookup p (ethOf head).dst c.vid c.vlan).1 = [.inl n] → n < 10 → s.m.portUp n = true →
    s.m.runRate n ≤ s.m.runRate p → (∀ k, q ≤ k → k < 8 → s.m.queue (.cls n k) = []) → s.m.sw.wire.get? n = none →
    completes (.cutThroughLookup p head t) s fun m =>
      let cells := ceilDiv (s.m.rd (R.MAC_CTRL_MAX_LEN p)) 256
      m.sw.cuts.get? p = some ⟨n, q, c.vid, c.pcp, cells, s.m.admits (.cls n q) cells⟩ ∧ m.sw.queues = s.m.sw.queues

/-- R153, R155, R165: the table commands on an item that the table has, ageing, flushing, and a guaranteed minimum within what is
free. -/
def Sys2Proof.Claims.SwitchTablesClaim : Prop :=
  (∀ (s : State) (index : Nat), s.m.swOn = true → s.wf = true →
    let d := fun w => s.m.rd (R.SWC_TBL_DATA_DATA w)
    let key := fdbKey s.m.tblKey.1 s.m.tblKey.2
    (tblBad 0 index s.m.tblKey.2 = false →
      (bitOf (d 2) 31 = true → s.m.sw.fdb.length < 65536 → completes (.tblWrite 0 index) s fun m =>
        m.sw.fdb = s.m.sw.fdb.set key (FdbEntry.ofWords (d 2) (d 3) s.m.mono) ∧ m.rd R.SWC_TBL_STAT_RESULT = 0) ∧
      (∀ f, s.m.sw.fdb.get? key = some f → completes (.tblRead 0 index) s fun m =>
        m.rd (R.SWC_TBL_DATA_DATA 2) = f.words.getD 0 0 % 2 ^ 32 ∧ m.rd (R.SWC_TBL_DATA_DATA 3) = f.words.getD 1 0 % 2 ^ 32 ∧
        m.rd R.SWC_TBL_STAT_RESULT = 0 ∧ m.sw = s.m.sw) ∧
      (∀ f, s.m.sw.fdb.get? key = some f → completes .tblDelete s fun m =>
        m.sw.fdb = s.m.sw.fdb.erase key ∧ m.rd R.SWC_TBL_STAT_RESULT = 0)) ∧
    (index < 8192 → completes (.tblWrite 1 index) s fun m =>
      m.sw.mcg.get? index = some (McGroup.ofWord (d 0)) ∧ m.rd R.SWC_TBL_STAT_RESULT = 0) ∧
    (0 < index → index < 4095 → bitOf (d 0) 31 = true → completes (.tblWrite 2 index) s fun m =>
      m.sw.vlans.get? index = some (VlanEntry.ofWords (d 0) (d 1) (d 2)) ∧ m.rd R.SWC_TBL_STAT_RESULT = 0) ∧
    (index < 131072 → completes (.tblRead 3 index) s fun m =>
      m.rd (R.SWC_TBL_DATA_DATA 0) = s.m.sw.hpSets.getD index 0 % 2 ^ 32 ∧ m.rd R.SWC_TBL_STAT_RESULT = 0)) ∧
  (∀ (s : State) (mac vid : Nat) (f : FdbEntry), s.m.sw.fdb.get? (fdbKey mac vid) = some f → f.static = false →
    s.m.rd R.SWC_CTRL_LEARN_AGE_S ≠ 0 → s.m.swOn = true → completes (.learnAgeOut mac vid) s fun m =>
      m.sw = { s.m.sw with fdb := s.m.sw.fdb.erase (fdbKey mac vid) }) ∧
  (∀ s : State, completes .flushLearned s fun m => m.sw = { s.m.sw with fdb := s.m.sw.fdb.filter fun x => x.2.static }) ∧
  (∀ (s : State) (p q cells : Nat), s.m.swOn = true → s.m.minSum - s.m.guar (.cls p q) + cells ≤ 60576 → s.wf = true →
    completes (.minCellsWrite p q cells) s fun m => m.rd (R.SWC_Q_CFG_MIN_CELLS p q) = cells % 2 ^ 16)

/-! ### The Vat and the filter chains -/

/-- R208, R209: an instant opens its curd frame with the window as it is and the VALID streams; its window ends W after it; a frame
that is complete, or whose window has ended, closes with its sequence number, instant and cause. -/
def Sys2Proof.Claims.CurdFramesClaim : Prop :=
  (∀ (s : State) (v : Nat) (r : VRate), s.m.vat.rates.get? v = some r → s.m.vatOn = true → r.running = true → s.m.sys.still = false →
    completes (.instantOpen v) s fun m => m.tns = max s.m.tns (gridNs r.f r.nextG) ∧
      ∃ f : OpenFrame, f.g = r.nextG ∧ f.w = s.m.rd (R.VAT_WINDOW_W_NS v) ∧
        (∀ i ∈ f.expected, (m.vat.streams.get? i).map (·.state) = some .valid) ∧
        m.vat.rates.get? v = some { r with nextG := r.nextG + 1, opens := r.opens ++ [f] }) ∧
  (∀ (s : State) (v : Nat) (r : VRate) (f : OpenFrame) (rest : List OpenFrame), s.m.vat.rates.get? v = some r → r.opens = f :: rest →
    s.m.vatOn = true → s.m.sys.still = false → s.m.tns < gridNs r.f f.g + f.w → completes (.windowEnd v) s fun m =>
      m.tns = gridNs r.f f.g + f.w ∧ m.vat = s.m.vat) ∧
  (∀ (s : State) (v : Nat) (r : VRate) (f : OpenFrame) (rest : List OpenFrame), s.m.vat.rates.get? v = some r → r.opens = f :: rest →
    s.m.vatOn = true → gridNs r.f f.g ≤ s.m.tns →
    (f.expected.all (s.m.slotsPresent r f.g) = true ∨ gridNs r.f f.g + f.w ≤ s.m.tns) → completes (.curdFrameClose v) s fun m =>
      ∃ (y : VRate) (cd : Curd), m.vat.rates.get? v = some y ∧ y.opens = rest ∧ y.seq = r.seq + 1 ∧ y.closing = r.closing ++ [cd] ∧
        cd.g = f.g ∧ cd.seq = r.seq ∧ cd.instant = gridNs r.f f.g ∧ cd.closeTs = s.m.tns ∧
        cd.cause = (if f.expected = [] then 3 else if f.expected.all (s.m.slotsPresent r f.g) = true then 0 else 1)) ∧
  (∀ (s : State) (v w : Nat), s.m.mode ≠ .reset → v < 4 → s.wf = true → completes (.windowWrite v w) s fun m =>
    let ns := bitsOf w 0 21
    if ns < 1000 ∨ ((s.m.vat.rates.get? v).map (·.wLoaded)).getD 200000 < ns then
      m.rd (R.VAT_WINDOW_W_REFUSED_STK v) = 1 ∧ m.rd (R.VAT_WINDOW_W_NS v) = s.m.rd (R.VAT_WINDOW_W_NS v)
    else m.rd (R.VAT_WINDOW_W_NS v) = ns)

/-- R25, R220, R228: a chain writes its output into the oldest closed frame that lacks it; the frame becomes visible once every chain
has written. -/
def Sys2Proof.Claims.CurdOutputsClaim : Prop :=
  (∀ (s : State) (c : Nat) (ch : Chan) (r : VRate) (cd : Curd), s.m.chan? c = some ch → s.m.vat.rates.get? ch.vrate = some r →
    (r.closing.find? fun x => (x.ins.get? c).isSome) = some cd → (∀ st ∈ ch.stages, s.m.setGone st.set = false) →
    completes (.chainOutput c) s fun m =>
      m.vat.rates.get? ch.vrate = some { r with closing := r.closing.map fun x =>
        if x.seq = cd.seq then
          { x with outs := x.outs.set c (s.m.chainRun c ch cd.g cd.instant (cd.ins.getD c [])).2, ins := x.ins.erase c }
        else x }) ∧
  (∀ (s : State) (v : Nat) (drained : List (Nat × Nat)) (err : ReadErr) (poison : List Nat) (r : VRate) (cd : Curd) (rest : List Curd),
    s.m.vat.rates.get? v = some r → r.closing = cd :: rest → cd.ins = [] → (∀ x ∈ s.m.acq.sessions, x.2.vrate ≠ v) →
    completes (.curdFrameVisible v drained err poison) s fun m =>
      m.vat.rates.get? v = some { r with closing := rest, rows := (cd :: r.rows).take r.depth } ∧
      m.ladle.arrivals = s.m.ladle.arrivals ++ (s.m.slotsFor 1 v).map fun x => (x.1, x.2, cd.instant % 2 ^ 32))

/-- R199, R203: a sample of a synchronised stream goes into the slot of its counter instant, once. -/
def Sys2Proof.Claims.SampledValuesClaim : Prop :=
  ∀ (s : State) (x : SvFrame) (t k : Nat) (st : Stream) (a : Asdu),
    let m0 := s.m.reach t
    let slot : Int := counterInstant (m0.streamRate k) a.smpCnt m0.tns / 1000000000 * m0.streamRate k + a.smpCnt
    s.m.vatOn = true → (∀ y ∈ s.m.vat.streams, (s.m.vat.chans.any fun z => z.2.stream == y.1) = true) → s.m.acq.sessions = [] →
    (s.m.vat.streams.filter fun y => s.m.svKey x y.1 y.2) = [(k, st)] → s.m.vat.streams.get? k = some st → st.state ≠ .disabled →
    m0.svFrameCheck x k st = none → x.asdus = [a] → a.smpCnt < m0.streamRate k → syncMeets st.cfg a.smpSynch = true →
    st.byEstimate = some false → m0.inRing k st slot = true → st.slots.get? slot.toNat = none → m0.slotShut k st slot.toNat = false →
    completes (.svFrame x t) s fun m => (m.vat.streams.get? k).bind (·.slots.get? slot.toNat) =
      some ⟨true, false, a.data.map fun d => (d.1 % 2 ^ 32, d.2 % 2 ^ 14 + b2n x.sim * 2 ^ 22), []⟩

/-- R204, R225: at a second boundary the estimate of a stream takes the mean of its terms; every chain takes VAT_SKEW from there. -/
def Sys2Proof.Claims.SecondBoundaryClaim : Prop :=
  (∀ (s : State) (k : Nat) (x : Stream), s.m.vatOn = true → s.m.sys.still = false → s.m.vat.streams = [(k, x)] → x.byEstimate = some true →
    x.terms ≠ [] → completes .deltaUpdate s fun m =>
      m.vat.second = max (s.m.vat.second + 1) (s.m.tns / 1000000000) ∧ m.tns = max s.m.tns (m.vat.second * 1000000000) ∧
      m.vat.streams = [(k, { x with delta := meanOf x.terms.flatten })]) ∧
  (∀ (s : State) (c : Nat) (ch : Chan), s.m.vatOn = true → SMap.rising s.m.vat.chans = true → s.m.chan? c = some ch →
    completes .sigmaUpdate s fun m =>
      m.chan? c = some { ch with sigmaNext := some (s.m.rd (R.VAT_SKEW_SIGMA_NS c), s.m.vat.second * 1000000000) })

/-- R232 to R235: a switch to a set of the stage's kind and length starts a fade, a pending one starts when it fits, a restart empties
the histories; a coefficient or set that nothing uses is written. -/
def Obligations.FilterCommands : Prop :=
  (∀ (s : State) (c stage set k : Nat) (x : Chan) (st : Stage), s.m.mode ≠ .reset → s.m.sealOn 3 = true → c < 16384 → set < 1024 →
    s.m.chan? c = some x → x.stages[stage]? = some st → s.m.isOn (R.FLT_SET_VALID set) = true →
    s.m.isOn (R.FLT_SET_KIND set) = (stage == 0) → s.m.rd (R.FLT_SET_N set) ≤ st.nmax → x.fade = none → (∀ y ∈ s.m.vat.chans, y.2.stream < 2048) → s.m.fadeFits x stage = true →
    completes (.chainSwitch 0 c stage set k) s fun m =>
      ∃ g eq, m.chan? c = some { x with fade := some ⟨stage, set, if k = 0 then x.kdef else k, 0, g, eq⟩, pend := none }) ∧
  (∀ (s : State) (c : Nat) (x : Chan), s.m.mode ≠ .reset → s.m.sealOn 3 = true → s.m.chan? c = some x → x.fade = none → x.pend = none →
    completes (.chainReset 0 c) s fun m =>
      m.chan? c = some { x with stages := x.stages.map fun st => { st with hist := [] }, fresh := true, tr := none }) ∧
  (∀ (s : State) (n i set k : Nat) (c : Chan), SMap.rising s.m.vat.chans = true → s.m.chan? n = some c → c.fade = none →
    c.pend = some (i, set, k) → s.m.fadeFits c i = true → (∀ y ∈ s.m.vat.chans, y.1 < n → y.2.pend = none) →
    completes .fadeStart s fun m => ∃ g eq, m.chan? n = some { c with fade := some ⟨i, set, k, 0, g, eq⟩, pend := none }) ∧
  (∀ (s : State) (v : Nat), s.m.mode ≠ .reset → s.m.sealOn 3 = true → s.wf = true → SMap.rising s.m.vat.cmem = true →
    let w := s.m.rd R.FLT_CMEM_ADDR_WORD
    (∀ n ∈ s.m.setsInUse, w < s.m.rd (R.FLT_SET_WORD n) ∨ s.m.rd (R.FLT_SET_WORD n) + s.m.setWords n ≤ w) →
    completes (.cmemWrite 0 v) s fun m =>
      m.vat.cmem.getD w 0 = v % 2 ^ 32 ∧ m.rd R.FLT_CMEM_ADDR_WORD = (w + 1) % 2 ^ 18 ∧
        ∀ a, a ≠ w → m.vat.cmem.getD a 0 = s.m.vat.cmem.getD a 0) ∧
  (∀ (s : State) (n v : Nat), s.m.mode ≠ .reset → s.m.sealOn 3 = true → n ∉ s.m.setsInUse → s.wf = true →
    completes (.setWrite 0 n v) s fun m =>
      m.rd (R.FLT_SET_WORD n) = bitsOf v 0 18 ∧ m.rd (R.FLT_SET_N n) = bitsOf v 18 9 ∧ m.rd (R.FLT_SET_KIND n) = bitsOf v 27 1 ∧
      m.rd (R.FLT_SET_VALID n) = bitsOf v 28 1 ∧ m.vat = s.m.vat)

/-! ### Recording and safe transport -/

/-- R350, R351, R353, R355: ARM, DISARM, a software trigger that opens a record, RELEASE of a closed record that nothing reads. -/
def Obligations.Sessions : Prop :=
  ∀ (s : State) (k : Nat) (x : Session), s.m.mode ≠ .reset → s.m.acq.sessions.get? k = some x → s.m.ready 8 = true → s.wf = true →
    (x.member = false → x.state = .idle ∨ x.state = .halted → s.m.acqOn = true → completes (.arm k) s fun m =>
      m.acq.sessions.get? k = some x.armed ∧ m.rd R.ACQ_SESS_CMD_STAT_RESULT = 1 ∧ m.rd R.ACQ_SESS_CMD_STAT_DONE_FLG = 1) ∧
    (x.member = false → completes (.disarm k) s fun m =>
      m.acq.sessions.get? k = some x.disarmed ∧ m.rd R.ACQ_SESS_CMD_STAT_RESULT = 1) ∧
    (∀ e, x.running = true → x.open_ = none → x.armRow.getD (x.lastG + 1) ≤ gridAt (s.m.sessRate x) s.m.tns →
      ((List.range 64).find? fun e => (x.recs.get? e).isNone) = some e → completes (.trigger k) s fun m =>
        m.rd R.ACQ_SESS_CMD_STAT_RESULT = 1 ∧ ∃ y r, m.acq.sessions.get? k = some y ∧ y.state = .recording ∧ y.open_ = some e ∧
          y.recs.get? e = some r ∧ r.trigG = gridAt (s.m.sessRate x) s.m.tns ∧ r.trig = gridNs (s.m.sessRate x) r.trigG ∧
          r.src = 1 ∧ r.recno = x.recno ∧ y.recno = (x.recno + 1) % 2 ^ 32 ∧ y.rows = x.rows) ∧
    (∀ e r, x.recs.get? e = some r → x.open_ ≠ some e → s.m.acq.read = none → completes (.release k e) s fun m =>
      m.acq.sessions.get? k = some { x with recs := x.recs.erase e } ∧ m.rd R.ACQ_SESS_CMD_STAT_RESULT = 1)

/-- R363, R364: a sound message of another module is relayed on the other pair with its hop counted; a message that may start leaves
on an idle segment. -/
def Obligations.HaulatoMessages : Prop :=
  (∀ (s : State) (onIn : Bool) (b : Bytes) (t : Nat), s.m.mode ≠ .reset → s.m.mode ≠ .load → s.m.ready 8 = true → b.length = 18 →
    beAt b 0 1 = 0xA5 → crc16 (slice b 1 15) = beAt b 16 2 → beAt b 14 1 < 16 → beAt b 2 1 % 16 ≠ s.m.rd R.ACQ_CTRL_HAUL_ID →
    s.m.acq.sessions = [] → s.m.acq.inQ.length < 16 → s.m.acq.outQ.length < 16 → completes (.haulatoMessage onIn b t) s fun m =>
      let acc := (if onIn then beAt b 10 4 + s.m.rd R.SYS_HAUL_IN_DLY_NS else beAt b 10 4) % 2 ^ 32
      let h : HaulMsg := ⟨b.take 10 ++ beBytes 4 acc ++ beBytes 1 (beAt b 14 1 + 1) ++ beBytes 1 (beAt b 15 1), false, some t, 0, 0⟩
      m.acq.inQ = (if onIn then s.m.acq.inQ else s.m.acq.inQ ++ [h]) ∧ m.acq.outQ = (if onIn then s.m.acq.outQ ++ [h] else s.m.acq.outQ)) ∧
  (∀ (s : State) (t : Nat) (h : HaulMsg) (rest : List HaulMsg), s.m.mode ≠ .reset → s.m.mode ≠ .load → s.m.ready 8 = true →
    s.m.acq.outQ = h :: rest → h.notBefore ≤ t → completes (.haulatoSend false false t) s fun m =>
      m.out = s.m.out ++ [.haulato 2 (s.m.haulBytes false h t)] ∧
      m.acq.outQ = if h.own = true ∧ h.copy = 0 then rest ++ [{ h with copy := 1, notBefore := t + 10000 }] else rest)

/-- R417, R424 to R426: a repetition of a send connection takes the next sequence number; a receive connection whose window closes
goes to FAIL_SAFE with violation 9; CONN_ENABLE, CONN_DISABLE and ACK. -/
def Sys2Proof.Claims.SafeTransportClaim : Prop :=
  ∀ (s : State) (c : Nat) (x : Conn), s.m.lst.conns.get? c = some x → s.m.ready 11 = true → c < 1024 → s.wf = true →
    (s.m.isSend c = true → x.en = true → x.built = true → s.m.mode ≠ .flush → completes (.lstRefresh c) s fun m =>
      m.lst.conns.get? c = some { x with seq := some (match x.seq with | some n => (n + 1) % 2 ^ 32 | none => 0), lastBuild := m.tns }) ∧
    (s.m.isSend c = false → s.m.connState c < 2 → completes (.lstWatchdog c) s fun m =>
      m.connState c = 2 ∧ m.rd (R.LST_CONN8_REACTION c) = 9 ∧ m.rd (R.LST_CONN8_VIOL_STK c) = 1 ∧
      m.lst.conns.get? c = some { x with seq := none, ack := false, wdogFrom := x.wdogFrom + x.wdogNs,
                                         wdogNs := s.m.rd (R.LST_CONN4_WDOG_US c) * 1000 }) ∧
    (s.m.mode ≠ .reset → s.m.isSend c = false → s.m.connState c = 3 → completes (.connEnable c) s fun m =>
      m.connState c = 0 ∧ m.rd R.LST_CONN_CMD_STAT_RESULT = 1 ∧
      m.lst.conns.get? c = some { x with seq := none, wdogFrom := s.m.tns, wdogNs := s.m.rd (R.LST_CONN4_WDOG_US c) * 1000, ack := false }) ∧
    (s.m.mode ≠ .reset → s.m.isSend c = false → s.m.connState c ≠ 3 → completes (.connDisable c) s fun m =>
      m.connState c = 3 ∧ m.rd R.LST_CONN_CMD_STAT_RESULT = 1 ∧ m.lst.conns.get? c = some { x with ack := false }) ∧
    (s.m.mode ≠ .reset → s.m.isSend c = false → s.m.connState c = 2 → s.m.rd (R.LST_CONN0_RESTORE c) = 1 → completes (.ack c) s fun m =>
      m.lst.conns.get? c = some { x with ack := true } ∧ m.rd R.LST_CONN_CMD_STAT_RESULT =
        if s.m.rd (R.LST_CONN8_RECOVER_CNT c) < s.m.rd (R.LST_CONN5_RECOVER_N c) then 2 else 1)

/-- R420 to R425: a raw frame of the one connection of its destination, VID and identity, in order and in time, takes it from WAIT to
VALID and shows its data. -/
def Sys2Proof.Claims.SafeFramesClaim : Prop :=
  ∀ (s : State) (b : Bytes) (p ingress t c : Nat) (x : Conn),
    let pay := lstPayload b
    let n := beAt pay 2 2
    let pdu := pay.take (24 + n)
    s.m.ready 11 = true → s.m.mode = .active → s.m.acq.sessions = [] → c < 1024 → s.wf = true →
    s.m.lstMatches (ethOf b).dst (s.m.vidPcp p (ethOf b)).1 = [c] → s.m.connId c = beAt pay 4 8 → s.m.lst.conns.get? c = some x →
    s.m.connState c = 0 → s.m.gone 7 c = false → ingress < x.wdogFrom + x.wdogNs → trailerAt pay (24 + n) = none → x.seq = none →
    24 + n ≤ pdu.length → beAt pdu 0 1 = 1 → beAt pdu 2 2 = s.m.lstDlen c → beAt pdu 2 2 = n → beAt pdu 1 1 < 8 →
    bitOf (beAt pdu 1 1) 0 = false → rind (pdu.take (20 + n)) = beAt pdu (20 + n) 4 → s.m.rd (R.LST_CONN5_SEQ_WIN c) ≠ 0 →
    -(s.m.rd (R.LST_CONN6_AGE_LEAD_NS c) : Int) ≤ tsDiff (ingress % 2 ^ 32) (beAt pdu 16 4) →
    tsDiff (ingress % 2 ^ 32) (beAt pdu 16 4) < ((s.m.rd (R.LST_CONN3_MAX_AGE_US c) * 1000 : Nat) : Int) →
    completes (.lstFrame b p ingress t) s fun m =>
      m.connState c = 1 ∧ m.lstShown c = (pdu.drop 20).take n ∧ (m.lst.conns.get? c).bind (·.seq) = some (beAt pdu 12 4)

/-- R312, R314: a frame of the one subscription of its key, that is waiting and without LST, becomes its data; the window of a VALID
subscription closes; a publication repeats its state with the next sqNum at twice the interval. -/
def Obligations.Goose : Prop :=
  (∀ (s : State) (x : GooseFrame) (t j : Nat) (r : GSubRec), s.m.gooseOn = true → s.m.acq.sessions = [] → j < 1024 → s.wf = true →
    s.m.gooseSubs x = [(j, r)] → r.lst = false → s.m.gone 4 j = false → s.m.gooseCheck x j r = none → x.trailer = none →
    s.m.gsubValid j = false → completes (.gooseFrame x t) s fun m =>
      m.gsubs.get? j = some ⟨b2n x.test + 2 * b2n x.sim, x.allData, x.ingress + x.ttlMs * 1000000⟩ ∧
      m.rd (R.SCH_GSUB0_STATE j) = 1 ∧ m.rd (R.SCH_GSUB1_ST_NUM j) = x.stNum % 2 ^ 32 ∧ m.rd (R.SCH_GSUB2_SQ_NUM j) = x.sqNum % 2 ^ 32 ∧
      m.ladle.arrivals = s.m.ladle.arrivals ++ (s.m.slotsFor 2 j).map fun y => (y.1, y.2, x.ingress % 2 ^ 32)) ∧
  (∀ (s : State) (j : Nat) (r : GSubRec), s.m.cul.gsubs.get? j = some r → s.m.gsubValid j = true → r.lst = false → j < 1024 →
    s.wf = true → completes (.gooseTalExpiry j) s fun m =>
      m.rd (R.SCH_GSUB0_STATE j) = 2 ∧
      m.ladle.arrivals = s.m.ladle.arrivals ++ (s.m.slotsFor 2 j).map fun y => (y.1, y.2, (s.m.gsubSt j).close % 2 ^ 32)) ∧
  (∀ (s : State) (p : Nat) (r : PubRec) (st : PubSt), s.m.cul.pubs.get? p = some r → s.m.pubs.get? p = some st → r.en = true →
    s.m.lstPub p = false → s.m.ready 7 = true → s.m.mode ≠ .flush → completes (.gooseRepeat p) s fun m =>
      m.pubs.get? p = some { st with intervalMs := min (2 * st.intervalMs) r.maxMs,
                                     nextAt := st.nextAt + min (2 * st.intervalMs) r.maxMs * 1000000 * nsUnit })

/-! ### Registers -/

/-- R15, R17, R18: a PF write of a register word without a behaviour of its own, none of whose fields a Seal Bank switch denies, sets
its RW fields and no RO field. -/
def Sys2Proof.Claims.PlainWriteClaim : Prop :=
  ∀ (s : State) (a v : Nat) (d : RDesc), s.m.mode ≠ .reset → s.wf = true → 0xa00000 ≤ a → a < 0xd10000 → a % 4 = 0 →
    findReg a = some d → isLowWord a = false → isLowWord (a - 4) = false → s.m.rwsDenied d = false →
    completes (.regWrite 0 a v) s fun m => ∀ f ∈ d.fields,
      (f.acc = .rw → m.rd (f.at a) = bitsOf v f.lsb f.width) ∧ (f.acc = .ro → m.rd (f.at a) = s.m.rd (f.at a))

/-- R19, R21: a read answers the register's word; RC fields read 0 after it, and the read of a low word holds the high word for the
reader. -/
def Sys2Proof.Claims.PlainReadClaim : Prop :=
  ∀ (s : State) (a : Nat) (d : RDesc), s.m.mode ≠ .reset → s.wf = true → 0x300000 ≤ a → a < 0xb00000 → a % 4 = 0 →
    findReg a = some d → s.m.latch.get? a = none →
    (isLowWord a = false → completes (.rcRead 0 a) s fun m => m.rdata = BitVec.ofNat 32 (s.m.word a) ∧
      ∀ f ∈ d.fields, f.acc = .rc → m.rd (f.at a) = 0) ∧
    (isLowWord a = true → completes (.lowWordRead 0 a) s fun m => m.rdata = BitVec.ofNat 32 (s.m.word a) ∧
      m.latch.get? (a + 4) = some (s.m.word (a + 4) % 2 ^ 32))

/-- R308, R310: a direct write of an online-change window is only counted; a change of EN of a force entry is applied in an epoch of
its own. -/
def Sys2Proof.Claims.ForceAndWindowClaim : Prop :=
  (∀ (s : State) (w x v : Nat), s.m.mode ≠ .reset → s.m.sealOn 3 = true → w < 8 → x < 0x4000 →
    becomes (.olcWindowWrite w x v) s (s.m.bump (R.SCH_CNT_CNT 11))) ∧
  (∀ (s : State) (f v : Nat), s.m.mode ≠ .reset → s.m.sealOn 2 = true → s.m.pressOn = true → f < 256 → s.wf = true →
    (bitOf v 0 = true → s.m.rd (R.SCH_FORCE0_EN f) = 0 → completes (.forceEnable f v) s fun m =>
      m.rd (R.SCH_FORCE0_EN f) = 1 ∧ m.press.admitted = s.m.press.admitted + 1 ∧
      m.press.applying = s.m.press.applying ++ [⟨s.m.press.admitted + 1, [], none, [⟨f, true⟩], s.m.mono + fabric 2⟩]) ∧
    (bitOf v 0 = false → s.m.rd (R.SCH_FORCE0_EN f) = 1 → completes (.forceDisable f v) s fun m =>
      m.rd (R.SCH_FORCE0_EN f) = 0 ∧ m.press.admitted = s.m.press.admitted + 1 ∧
      m.press.applying = s.m.press.applying ++ [⟨s.m.press.admitted + 1, [], none, [⟨f, false⟩], s.m.mono + fabric 2⟩]))

/-! ### Start-up -/

/-- R101, R113 to R116, R118: LOAD ends in RIPEN, or in SAFE-HOLD on the minimal culture and with an unusable configuration; a function
whose conditions hold becomes ready; the wait for time ends; RIPEN ends in SAFE-HOLD. -/
def Obligations.StartUp : Prop :=
  (∀ s : State, s.m.mode = .load → completes .loadComplete s fun m =>
    if m.rd R.CFG_STATUS_LOADED_COPY = 2 ∨ m.rd R.CFG_STATUS_UNUSABLE = 1 then m.mode = .safeHold else m.mode = .ripen) ∧
  (∀ (s : State) (bit : Nat), bit ∈ [0, 1, 2, 4, 5, 6, 13, 14, 15] → s.m.ready bit = false → s.m.comingUp = true →
    s.m.allReady (readyAfter bit) = true → s.m.ownReady bit = true → s.wf = true → completes (.readinessSet bit) s fun m =>
      m.ready bit = true ∧ ∀ b < 16, b ≠ bit → m.ready b = s.m.ready b) ∧
  (∀ s : State, s.m.mode = .ripen → s.m.sys.waitEnded = false → s.m.sys.still = false → completes .timeWaitEnd s fun m =>
    m.sys.waitEnded = true ∧ m.mono = max s.m.mono (s.m.sys.upAt + s.m.sys.timeWaitMs * 1000000 * nsUnit)) ∧
  (∀ s : State, s.m.mode = .ripen → s.m.allReady 0xFFFF = false → completes .ripenTimeout s fun m => m.mode = .safeHold)

/-- R120 to R124: test mode and back; staging starts with its target and instance, and ends with the image in its copy. -/
def Obligations.TestAndStaging : Prop :=
  (∀ s : State, s.m.mode = .active ∨ s.m.mode = .standby → s.m.sealOn 1 = true → s.wf = true → completes .enterTest s fun m =>
    m.mode = .test ∧ m.testFrom = s.m.mode ∧ m.rd R.CFG_MODE_STAT_RESULT = 1) ∧
  (∀ s : State, s.m.mode = .test → s.wf = true → completes .leaveTest s fun m =>
    m.mode = s.m.testFrom ∧ m.rd R.CFG_MODE_STAT_RESULT = 1) ∧
  (∀ (s : State) (target i : Nat), s.m.sealOn 0 = true → s.m.mayStage = true → s.m.sys.staging = none → i < 4096 →
    s.m.instAdmitted i = true → s.m.owner i = 0x100 → s.wf = true → completes (.stageGo target i) s fun m =>
      m.sys.staging = some ⟨target % 2, i, s.m.gen i⟩ ∧ m.rd R.CFG_STAGE_STAT_STATE = 1 ∧ m.rd R.CFG_STAGE_CMD_GO = 1) ∧
  (∀ (s : State) (g : Staging) (b left : Bytes), s.m.sys.staging = some g → g.target < 2 →
    s.m.reachable g.inst (s.m.rd64 R.CFG_STAGE_ADDR_LO_ADDR R.CFG_STAGE_ADDR_HI_ADDR) (s.m.rd R.CFG_STAGE_LEN_LEN) false = true →
    s.m.headerCheck b = 0 → s.m.rd R.CFG_STAGE_LEN_LEN = leAt b 8 4 → s.m.copyCheck (s.m.flash (1 - g.target)) = none →
    s.m.copyCheck (b.take (leAt b 8 4)) = none → s.wf = true → completes (.stageDone (some b) true left) s fun m =>
      m.sys.staging = none ∧ m.flash g.target = b.take (leAt b 8 4) ∧ m.flash (1 - g.target) = s.m.flash (1 - g.target) ∧
      m.rd R.CFG_STAGE_STAT_STATE = 5 ∧ m.rd R.CFG_STAGE_STAT_DONE_FLG = 1 ∧ m.rd R.CFG_STAGE_CMD_GO = 0)

/-! ### The Ladle -/

/-- R290 to R292, Table 12.1: the oldest arrival reaches its task: a LATEST slot notes it, another opens a cycle for an instant that
is not open; a tick operand arrives at its next instant. -/
def Sys2Proof.Claims.OperandsClaim : Prop :=
  (∀ (s : State) (t k ct : Nat) (rest : List (Nat × Nat × Nat)) (r : TaskRec) (p : Operand),
    s.m.ladle.arrivals = (t, k, ct) :: rest → s.m.gone 6 t = false → s.m.taskRec t = some r → r.ops[k]? = some p → s.m.red.xfers = [] →
    (p.mode = 2 → completes .operandArrival s fun m =>
      m.ladle.arrivals = rest ∧ m.task t = { s.m.task t with latest := (s.m.task t).latest ||| 2 ^ k }) ∧
    (p.mode ≠ 2 → (s.m.task t).state = .enabled → s.m.tasksRun = true → s.m.ready 5 = true →
      ((s.m.task t).opens.all fun o => o.ct != ct) = true → (∀ l, (s.m.task t).lastDispatched = some l → tsLater ct l = true) →
      (s.m.task t).opens.length < r.maxOpen → completes .operandArrival s fun m =>
        m.ladle.arrivals = rest ∧ (m.task t).opens.length = (s.m.task t).opens.length + 1 ∧
        ∃ o ∈ (m.task t).opens, o.ct = ct ∧ o.bits = 2 ^ k ∧ o.ready = (2 ^ k &&& r.waitMask == r.waitMask))) ∧
  (∀ (s : State) (t k : Nat) (r : TaskRec) (p : Operand), s.m.taskRec t = some r → r.ops[k]? = some p → p.kind = 4 →
    s.m.tasksRun = true → s.m.ready 5 = true → s.m.sys.still = false → completes (.tick t k) s fun m =>
      let at_ := nextTick p (s.m.ladle.lastTick.getD (t * 8 + k) s.m.tns)
      m.ladle.arrivals = s.m.ladle.arrivals ++ [(t, k, at_ % 2 ^ 32)] ∧ m.tns = max s.m.tns at_)

/-- R292, R295, R296: the one ready cycle goes to the engine that the Ladle chooses, into its first free context, at the task's entry
point with its level, waiting for its capture. -/
def Sys2Proof.Claims.DispatchingClaim : Prop :=
  ∀ (s : State) (rc : ReadyCycle) (r : TaskRec) (e c : Nat) (o : OpenCycle), s.m.tasksRun = true → s.m.ready 5 = true →
    s.m.readyCycles = [rc] → s.m.taskRec rc.task = some r → (s.m.task rc.task).running = none → s.m.gone 6 rc.task = false →
    s.m.chooseEngine (s.m.candidates rc.task rc.ct r []) = some e → (s.m.engine e).freeCtxs.head? = some c →
    (s.m.task rc.task).opens = [o] → o.ct = rc.ct → completes .dispatch s fun m =>
      (m.task rc.task).running = some (e, c) ∧ (m.task rc.task).opens = [] ∧ (m.task rc.task).lastDispatched = some rc.ct ∧
      ∃ x, m.ctx? e c = some x ∧ x.task = rc.task ∧ x.ct = rc.ct ∧ x.level = r.level ∧ x.phase = .capturing ∧ x.p = 1 ∧ x.stack = [] ∧
        x.pc = BitVec.ofNat 18 (s.m.cul.entries.getD r.entry 0) ∧ x.epoch = s.m.press.visible

/-- R298, R303: the watchdog, for a task outside every commit group whose cycle nothing waits on. A budget that closes aborts the
cycle; a deadline that closes before the operands are complete cancels it; a protection-class cycle that reaches its mark has
missed it. -/
def Sys2Proof.Claims.WatchdogClaim : Prop :=
  ∀ (s : State) (t : Nat) (r : TaskRec), s.m.taskRec t = some r → r.groupEn = false →
    (∀ e c x f, s.m.ctx? e c = some x → x.task = t → x.firstAt = some f → s.m.waiters t x.ct = [] → SMap.rising (s.m.engine e).ctxs = true →
      min 255 ((s.m.task t).consecOvr + 1) < r.ovrLimit → completes (.budgetOverrun e c) s fun m =>
        m.ctx? e c = none ∧ (m.task t).running = none ∧ (m.task t).consecOvr = min 255 ((s.m.task t).consecOvr + 1)) ∧
    (∀ ct o, (s.m.task t).running = none → ((s.m.task t).opens.find? fun o => o.ct == ct) = some o → o.ready = false →
      s.m.waiters t ct = [] → completes (.deadlineExpiry t ct) s fun m =>
        (m.task t).opens = (s.m.task t).opens.filter fun o => o.ct != ct) ∧
    (∀ e c x f, s.m.ctx? e c = some x → x.task = t → x.firstAt = some f → x.protectionClass = true → s.m.sys.still = false →
      completes (.progressMark e c) s fun m => m.ctx? e c = some { x with missed := true } ∧
        m.mono = max s.m.mono (f + r.budgetNs * nsUnit * s.m.rd R.SCH_CTRL_PROG_PCT / 100))

/-- R298, R306, R307, R315: SLOW_CLR, the trace's oldest record, and the task commands. -/
def Sys2Proof.Claims.TaskCommandsClaim : Prop :=
  (∀ (s : State) (mask : Nat), s.m.mode ≠ .reset → s.wf = true → completes (.slowClr mask) s fun m =>
    m.rd R.SCH_SLOW_SLOW = s.m.rd R.SCH_SLOW_SLOW &&& (2 ^ 32 - 1 - mask % 2 ^ 32)) ∧
  (∀ s : State, becomes .tracePop s { s.m with ladle := { s.m.ladle with trace := s.m.ladle.trace.drop 1 } }) ∧
  (∀ (s : State) (t : Nat) (r : TaskRec), s.m.mode ≠ .reset → s.m.taskRec t = some r → (s.m.task t).state ≠ .stopped → s.wf = true →
    completes (.taskEnable t) s (fun m =>
      if (s.m.task t).state = .disabling then m.task t = { s.m.task t with enablePending := true } ∧ m.rd R.SCH_TASK_CMD_STAT_RESULT = 2
      else m.task t = { s.m.task t with state := .enabled } ∧ m.rd R.SCH_TASK_CMD_STAT_RESULT = 1) ∧
    ((s.m.task t).opens = [] → completes (.taskDisable t) s fun m =>
      m.rd R.SCH_TASK_CMD_STAT_RESULT = 1 ∧ m.task t = { s.m.task t with
        state := if (s.m.task t).state ≠ .disabled ∧ (s.m.task t).running.isSome = true then .disabling else .disabled
        enablePending := false }) ∧
    (∀ o, (s.m.task t).opens = [o] → (s.m.task t).running = none → r.groupEn = false → s.m.waiters t o.ct = [] →
      completes (.taskCancel t) s fun m => (m.task t).opens = [] ∧ m.rd R.SCH_TASK_CMD_STAT_RESULT = 1))

/-! ### Engines -/

/-- R258 to R263: self-test, lockstep mismatch, the 24 h window, and the fence commands. -/
def Obligations.EngineStates : Prop :=
  ∀ (s : State) (e : Nat), e < 32 → s.m.mode = .active ∨ s.m.mode = .ripen → s.wf = true →
    ((s.m.engine e).state = .selfTest → (s.m.engine e).retest = true ∨ s.m.mismatches e < s.m.rd R.BEN_CTRL_MISMATCH_LIMIT →
      completes (.selfTestEnd e true) s fun m => (m.engine e).state = .inService) ∧
    ((s.m.engine e).state = .inService ∨ (s.m.engine e).state = .draining ∨ (s.m.engine e).state = .hostFenced →
      completes (.lockstepMismatch e) s fun m => (m.engine e).state = .selfTest) ∧
    (∀ t r, (s.m.engine e).mism = t :: r → s.m.sys.still = false → completes (.mismatchAgeOut e) s fun m =>
      (m.engine e).mism = r ∧ m.mono = max s.m.mono (t + dayUnits)) ∧
    ((s.m.engine e).state = .inService → (∃ n < 32, n ≠ e ∧ (s.m.engine n).state = .inService) → completes (.fence e) s fun m =>
      (m.engine e).state = (if (s.m.engine e).ctxs = [] then .hostFenced else .draining) ∧ m.rd R.BEN_FENCE_STAT_RESULT = 1) ∧
    ((s.m.engine e).state = .hostFenced → completes (.unfence e) s fun m =>
      (m.engine e).state = .inService ∧ m.rd R.BEN_FENCE_STAT_RESULT = 1) ∧
    ((s.m.engine e).state = .hostFenced ∨ (s.m.engine e).state = .failed → completes (.retest e) s fun m =>
      (m.engine e).state = .selfTest ∧ m.rd R.BEN_FENCE_STAT_RESULT = 1) ∧
    ((s.m.engine e).state = .draining → (s.m.engine e).ctxs = [] → completes (.drainDone e) s fun m =>
      (m.engine e).state = .hostFenced)

/-! ### The Press -/

/-- R285, R51, R52: a record of a task outside every group that is handed off in time waits for admission, and its cycle ends; a group
whose window ends with one record fails. -/
def Sys2Proof.Claims.HandOffsClaim : Prop :=
  (∀ (s : State) (e c : Nat) (x : Ctx) (r : CRec) (t : TaskRec), s.m.ctx? e c = some x → x.phase = .handing r → s.m.taskRec x.task = some t →
    r.group = none → s.m.pressOn = true → (s.m.press.pending.any fun y => y.engine == e) = false →
    s.m.mono < x.firstAt.getD s.m.mono + t.budgetNs * nsUnit → s.m.tns < s.m.nsOfTs x.ct + t.deadlineNs →
    SMap.rising (s.m.engine e).ctxs = true → completes (.handOff e c) s fun m =>
      m.press.pending = insRec { r with handed := s.m.mono } s.m.press.pending ∧ m.ctx? e c = none ∧
      (m.task x.task).running = none ∧ (m.task x.task).handed = some x.ct ∧ (m.task x.task).consecOvr = 0) ∧
  (∀ (s : State) (g : Nat) (y : GroupColl) (r : CRec), s.m.press.groups.get? g = some y → y.recs = [r] → r.ct = y.ct →
    s.m.taskGroup r.task = some g → s.m.waiters r.task r.ct = [] → SMap.rising s.m.press.groups = true →
    completes (.groupWindowEnd g) s fun m =>
      m.press.groups = s.m.press.groups.erase g ∧ m.press.lastFailed.get? g = some y.ct ∧ (m.task r.task).handed ≠ some r.ct)

/-- R42, R43: one admission takes up to eight sound records that wait into one epoch, which ends after the longest apply time. -/
def Sys2Proof.Claims.AdmissionClaim : Prop :=
  ∀ s : State, s.m.pressOn = true → s.m.press.complete = [] → s.m.press.pending ≠ [] → s.m.press.pending.length ≤ 8 →
    (∀ r ∈ s.m.press.pending, s.m.recCause r .clean = none) → s.m.dueTxn = none → completes (.admission []) s fun m =>
      m.press.pending = [] ∧ m.press.admitted = s.m.press.admitted + 1 ∧
      m.press.applying = s.m.press.applying ++ [⟨s.m.press.admitted + 1, s.m.press.pending, none, [],
        s.m.mono + fabric (s.m.press.pending.foldl (fun a r => max a (recCycles r)) 2)⟩]

/-- R36, R43: at its visibility point the lowest epoch becomes visible, and the bytes that its record writes stand in the output
image of its task. -/
def Sys2Proof.Claims.VisibilityClaim : Prop :=
  ∀ (s : State) (ep : Epoch) (rest : List Epoch) (r : CRec) (off : Nat) (d : Bytes), s.m.press.applying = ep :: rest →
    s.m.sys.held = false → s.m.mode ≠ .reset → ep.recs = [r] → r.entries = [.outWrite off d] → r.kind = .cycle → ep.txn = none →
    ep.forces = [] → s.m.press.forces = [] → s.wf = true → completes (.visibilityPoint .clean) s fun m =>
      m.press.visible = ep.num ∧ m.press.applying = rest ∧ ∀ i < d.length, (m.outImg.getD r.task []).getD (off + i) 0 = d.getD i 0

/-- R56 to R62: a transaction slot from BEGIN over staged writes to COMMIT, its time, ABORT and the timeout. -/
def Obligations.Transactions : Prop :=
  ∀ (s : State) (n : Nat), n < 8 → s.m.mode ≠ .reset → s.wf = true →
    (s.m.rd (R.PRS_TXN_STAT_STATE n) ≠ 1 → s.m.rd (R.PRS_TXN_STAT_STATE n) ≠ 2 → completes (.txnBegin n) s fun m =>
      m.rd (R.PRS_TXN_STAT_STATE n) = 1 ∧ m.rd (R.PRS_TXN_STAT_COUNT n) = 0 ∧
      m.press.txns.get? n = some ⟨[], none, s.m.mono, false, false⟩) ∧
    (∀ t, s.m.press.txns.get? n = some t → s.m.rd (R.PRS_TXN_STAT_STATE n) = 1 →
      (∀ v, t.staged.length < 1024 → completes (.txnDataWrite n v) s fun m =>
        m.rd (R.PRS_TXN_STAT_COUNT n) = t.staged.length + 1 ∧
        m.rd (R.PRS_TXN_ADDR_ADDR n) = (s.m.rd (R.PRS_TXN_ADDR_ADDR n) + 4) % 2 ^ (R.PRS_TXN_ADDR_ADDR n).width ∧
        m.press.txns.get? n = some { t with staged := t.staged ++ [(s.m.rd (R.PRS_TXN_ADDR_ADDR n) / 4 * 4, v % 2 ^ 32)],
                                            lastAccess := s.m.mono }) ∧
      (s.m.txnCheck 0 [] t.staged = none → completes (.txnCommit n) s fun m =>
        m.rd (R.PRS_TXN_STAT_STATE n) = 2 ∧ m.press.txns.get? n = some { t with commitAt := none, lastAccess := s.m.mono }) ∧
      (s.m.txnCheck 0 [] t.staged = none → tsLater (s.m.rd (R.PRS_TXN_AT_AT n)) s.m.ts32 = true → completes (.txnCommitAt n) s fun m =>
        m.rd (R.PRS_TXN_STAT_STATE n) = 2 ∧ m.press.txns.get? n =
          some { t with commitAt := some (s.m.nsOfTs (s.m.rd (R.PRS_TXN_AT_AT n))), lastAccess := s.m.mono }) ∧
      (completes (.txnAbort n) s fun m => m.rd (R.PRS_TXN_STAT_STATE n) = 4 ∧ m.rd (R.PRS_TXN_STAT_CAUSE n) = 8) ∧
      (s.m.sys.still = false → completes (.txnTimeout n) s fun m =>
        m.rd (R.PRS_TXN_STAT_STATE n) = 4 ∧ m.rd (R.PRS_TXN_STAT_CAUSE n) = 5 ∧
        m.mono = max s.m.mono (t.lastAccess + s.m.rd R.PRS_TXN_TMO_TMO_MS * 1000000 * nsUnit))) ∧
    (∀ t a, s.m.press.txns.get? n = some t → t.commitAt = some a → s.m.sys.still = false → completes (.txnAtReached n) s fun m =>
      m.tns = max s.m.tns a ∧ m.press.txns.get? n = some { t with commitAt := none })

/-- R249, R299: the capture of an engine that issues nothing completes: the context runs on the image that the maps give. -/
def Sys2Proof.Claims.CaptureClaim : Prop :=
  ∀ (s : State) (e c : Nat) (x : Ctx) (r : TaskRec), (s.m.engine e).capturer = some (c, x) → s.m.taskRec x.task = some r →
    s.m.frameGone r x.ct ((s.m.cul.maps.drop r.mapFirst).take r.mapCount) = false → (s.m.engine e).issuer = none →
    completes (.captureDone e c .clean .clean []) s fun m =>
      m.ctx? e c = some { x with inImg := s.m.captureImage x r [], phase := .running }

/-! ### The event recorder -/

/-- R378 to R380, R386, R388: a record is written at TAIL, or in the ZT2200 layout into the buffer, which moves when it holds 768;
freeze, thaw and flush by command, the automatic thaw, the Cave's words. -/
def Obligations.Recorder : Prop :=
  ∀ s : State, s.m.mode ≠ .reset → s.wf = true →
    (∀ (r : EvRec) (q : List EvRec), s.m.evr.frozen = false → s.m.ready 9 = true → s.m.evr.queue = r :: q → s.m.evr.lost = 0 →
      (s.m.evr.layout ≠ 1 → logStart ≤ s.m.evr.tail → s.m.evr.tail + r.native.length ≤ logEnd → completes .recordWrite s fun m =>
        m.evr.queue = q ∧ (∀ k < r.native.length, m.evr.cave.getD (s.m.evr.tail + k) 0 = r.native.getD k 0) ∧
        m.evr.tail = if s.m.evr.tail + r.native.length = logEnd then logStart else s.m.evr.tail + r.native.length) ∧
      (s.m.evr.layout = 1 → s.m.evr.buf.length < 1024 → completes .recordWrite s fun m =>
        m.evr.queue = q ∧ m.evr.buf = s.m.evr.buf ++ [r.zt] ∧ m.evr.cave = s.m.evr.cave)) ∧
    (s.m.evr.layout = 1 → s.m.evr.frozen = false → 768 ≤ s.m.evr.buf.length → completes .bufferMove s fun m => m.evr.buf = []) ∧
    (s.m.ready 9 = true → s.m.evr.frozen = false → s.m.mode ≠ .flush → completes .freeze s fun m =>
      m.evr.frozen = true ∧ m.evr.thawAt = s.m.mono + s.m.rd R.EVR_CTRL_FREEZE_MAX_MS * 1000000 * nsUnit ∧
      m.rd R.EVR_CMD_STAT_RESULT = 1 ∧ m.rd R.EVR_CMD_STAT_DONE_FLG = 1) ∧
    (s.m.ready 9 = true → completes .thaw s fun m => m.evr.frozen = false ∧ m.rd R.EVR_CMD_STAT_RESULT = 1) ∧
    (s.m.ready 9 = true → completes .evrFlush s fun m =>
      m.rd R.EVR_CMD_STAT_RESULT = 1 ∧ (s.m.evr.layout = 1 → s.m.evr.frozen = false → m.evr.buf = [])) ∧
    (s.m.ready 9 = false → ∀ c ∈ [Instr.freeze, Instr.thaw, Instr.evrFlush], completes c s fun m =>
      m.rd R.EVR_CMD_STAT_RESULT = 3 ∧ m.evr = s.m.evr) ∧
    (s.m.evr.frozen = true → s.m.sys.still = false → completes .automaticThaw s fun m =>
      m.evr.frozen = false ∧ m.mono = max s.m.mono s.m.evr.thawAt) ∧
    completes .caveDataRead s fun m =>
      m.rdata = BitVec.ofNat 32 (ofLe (memBytes s.m.evr.cave (s.m.rd R.EVR_CAVE_ADDR_ADDR / 4 * 4) 4)) ∧
      m.rd R.EVR_CAVE_ADDR_ADDR = (s.m.rd R.EVR_CAVE_ADDR_ADDR + 4) % 2 ^ 24 ∧ m.evr = s.m.evr

/-! ### The host interface -/

/-- R18, R341, R342: a narrow write is a violation charged to its function, which isolates the instances of a VF at VIOL_LIMIT; the
oldest violation leaves the window at its end. -/
def Sys2Proof.Claims.ViolationsClaim : Prop :=
  (∀ (s : State) (fn : Nat), fn < 256 → s.wf = true → completes (.narrowWrite fn) s fun m =>
    m.host.viol.getD (0x1000 + fn) [] = s.m.violIn (0x1000 + fn) ++ [s.m.mono] ∧
    m.rd (R.INS_FN_VIOL_WIN_CNT fn) = min 65535 ((s.m.violIn (0x1000 + fn)).length + 1) ∧
    (fn ≠ 0 → s.m.rd R.INS_CTRL_VIOL_LIMIT ≠ 0 → s.m.rd R.INS_CTRL_VIOL_LIMIT ≤ (s.m.violIn (0x1000 + fn)).length + 1 →
      m.rd (R.INS_FN_VIOL_ISOLATED fn) = 1 ∧ ∀ i ∈ s.m.instances, s.m.owns fn i = true → m.isolated i = true)) ∧
  (∀ (s : State) (fn t : Nat) (r : List Nat), fn < 256 → s.m.host.viol.getD (0x1000 + fn) [] = t :: r → s.m.sys.still = false →
    SMap.rising s.m.host.viol = true → s.wf = true → completes (.violationWindowExpiry (0x1000 + fn)) s fun m =>
      m.host.viol.getD (0x1000 + fn) [] = r ∧ m.rd (R.INS_FN_VIOL_WIN_CNT fn) = min 65535 r.length ∧
      m.mono = max s.m.mono (t + s.m.rd R.INS_CTRL_VIOL_WIN_MS * 1000000 * nsUnit + 1))

/-- A completion entry (Table 13.4) of queue q. -/
def Sys2Proof.Claims.cqEntry (q : HQueue) (cid status : Nat) (rx : Bool) (ts info : Nat) : Bytes :=
  leBytes 2 cid ++ leBytes 1 status ++ leBytes 1 (1 - q.head / 2 ^ q.log2 % 2 + 2 * b2n rx) ++ leBytes 4 ts ++ leBytes 8 info

/-- Where the next completion entry of instance i goes. -/
def Sys2Proof.Claims.cqAddr (q : HQueue) : Nat := q.base + q.head % 2 ^ q.log2 * 16

/-- The completion queue after one more entry. -/
def Sys2Proof.Claims.cqNext (q : HQueue) (irq : Bool) : HQueue := { q with head := (q.head + 1) % 2 ^ 16, irqDue := q.irqDue || irq }

/-- R326, R327: NOP and TIME complete with an entry in host memory; SEND starts the read of its frame; a due interrupt leaves as a
message at the end of its moderation window. -/
def Sys2Proof.Claims.HostCommandsClaim : Prop :=
  (∀ (s : State) (i : Nat) (c : CmdEntry), s.m.insOn = true → s.m.cmdsOf i = [c] → c.bad = none → s.m.cqRoom i = true →
    s.m.isolated i = false → s.m.sending i = 0 →
    (∀ x ∈ [(Instr.cmdNop i, 1, 0), (Instr.cmdTime i, 3, s.m.tns)], c.opcode = x.2.1 → (s.m.hq i 0).head = (s.m.hq i 0).tail →
      s.m.reachable i (cqAddr (s.m.hq i 1)) 16 true = true → SMap.rising s.m.host.cmds = true → completes x.1 s fun m =>
        m.cmdsOf i = [] ∧ m.hq i 1 = cqNext (s.m.hq i 1) (bitOf c.flags 1) ∧
        m.out = (s.m.hostPut i (cqAddr (s.m.hq i 1)) (cqEntry (s.m.hq i 1) c.cid 0 false s.m.ts32 x.2.2)).out) ∧
    (c.opcode = 2 → s.m.reachable i c.addr c.len false = true → completes (.cmdSend i) s fun m =>
      m.host.reads = s.m.host.reads ++ [⟨i, s.m.gen i, s.m.pagesOf i c.addr c.len, false, .frame c⟩] ∧ m.cmdsOf i = [c])) ∧
  (∀ (s : State) (i : Nat), (s.m.hq i 1).en = true → (s.m.hq i 1).irqDue = true → s.m.sys.still = false →
    completes (.completionInterrupt i) s fun m =>
      m.out = s.m.out ++ [.msix (s.m.owner i - 0x100) (s.m.hq i 1).vector] ∧
      m.hq i 1 = { s.m.hq i 1 with irqDue := false, lastIrq := some m.mono } ∧
      m.mono = match (s.m.hq i 1).lastIrq with
        | none => s.m.mono
        | some t => max s.m.mono (t + (s.m.hq i 1).modUs * 1000 * nsUnit))

/-- R324: doorbells of the owner within the range of an enabled queue take the index; a new command or buffer is fetched. A doorbell of
another function leaves the queue. -/
def Sys2Proof.Claims.DoorbellsClaim : Prop :=
  (∀ (s : State) (fn i idx : Nat), s.m.insOn = true → s.m.owns fn i = true → s.m.isolated i = false →
    ((s.m.hq i 0).en = true → ringDist idx (s.m.hq i 0).head ≤ 2 ^ (s.m.hq i 0).log2 → s.m.cmdsOf i = [] → s.m.host.reads = [] →
      idx % 2 ^ 16 ≠ (s.m.hq i 0).head → s.m.reachable i ((s.m.hq i 0).base + (s.m.hq i 0).head % 2 ^ (s.m.hq i 0).log2 * 64) 64 false = true →
      completes (.dbCommandTail fn i idx) s fun m =>
        m.hq i 0 = { s.m.hq i 0 with tail := idx % 2 ^ 16 } ∧ m.host.reads =
          [⟨i, s.m.gen i, s.m.pagesOf i ((s.m.hq i 0).base + (s.m.hq i 0).head % 2 ^ (s.m.hq i 0).log2 * 64) 64, false, .command⟩]) ∧
    ((s.m.hq i 1).en = true → ringDist idx (s.m.hq i 1).tail ≤ ringDist (s.m.hq i 1).head (s.m.hq i 1).tail → s.m.cmdsOf i = [] →
      (s.m.hq i 0).head = (s.m.hq i 0).tail → completes (.dbCompletionHead fn i idx) s fun m =>
        m.hq i 1 = { s.m.hq i 1 with tail := idx % 2 ^ 16 }) ∧
    ((s.m.hq i 2).en = true → ringDist idx (s.m.hq i 2).head ≤ 2 ^ (s.m.hq i 2).log2 →
      ringDist (s.m.hq i 2).tail (s.m.hq i 2).head ≤ ringDist idx (s.m.hq i 2).head → ringDist idx (s.m.hq i 2).tail = 1 →
      s.m.reachable i ((s.m.hq i 2).base + (s.m.hq i 2).tail % 2 ^ (s.m.hq i 2).log2 * 16) 16 false = true →
      completes (.dbReceiveTail fn i idx) s fun m =>
        m.hq i 2 = { s.m.hq i 2 with tail := idx % 2 ^ 16 } ∧ m.host.reads = s.m.host.reads ++
          [⟨i, s.m.gen i, s.m.pagesOf i ((s.m.hq i 2).base + (s.m.hq i 2).tail % 2 ^ (s.m.hq i 2).log2 * 16) 16, false,
            .descriptor ((s.m.hq i 2).tail % 2 ^ (s.m.hq i 2).log2)⟩]) ∧
    (∀ v, (s.m.hq i (4 + v)).en = true →
      ringDist idx (s.m.hq i (4 + v)).tail ≤ ringDist (s.m.hq i (4 + v)).head (s.m.hq i (4 + v)).tail →
      completes (.dbExportConsumer fn i v idx) s fun m => m.hq i (4 + v) = { s.m.hq i (4 + v) with tail := idx % 2 ^ 16 })) ∧
  (∀ (s : State) (fn i idx : Nat), s.m.insOn = true → s.m.owns fn i = false → s.m.rd R.INS_CTRL_VIOL_LIMIT = 0 →
    ∀ c ∈ [Instr.dbCommandTail fn i idx, .dbCompletionHead fn i idx, .dbReceiveTail fn i idx, .dbExportConsumer fn i 0 idx],
      completes c s fun m => m.host = { s.m.host with
        viol := s.m.host.viol.set (0x1000 + fn) (s.m.violIn (0x1000 + fn) ++ [s.m.mono]), queues := SMap.tidy s.m.host.queues
        xlt := SMap.tidy s.m.host.xlt })

/-- R327, R328, R338: what a host read brings; a read of an old generation is only counted; a frame goes to the next posted buffer, an
export frame to its ring. -/
def Sys2Proof.Claims.HostTransfersClaim : Prop :=
  (∀ (s : State) (k : Nat) (d : Bytes) (r : HRead), s.m.host.reads[k]? = some r →
    (r.gen ≠ s.m.gen r.inst → completes (.hostReadCompletion k d) s fun m =>
      m.host.reads = s.m.host.reads.eraseIdx k ∧ m.host.bufs = s.m.host.bufs ∧ m.host.cmds = s.m.host.cmds) ∧
    (r.gen = s.m.gen r.inst → s.m.isolated r.inst = false → ∀ n, r.use_ = .descriptor n →
      ((s.m.hq r.inst 2).en = true → completes (.hostReadCompletion k d) s fun m =>
        m.host.reads = s.m.host.reads.eraseIdx k ∧
        m.host.bufs.getD r.inst [] = s.m.host.bufs.getD r.inst [] ++ [(n, leAt d 0 8)]) ∧
      completes (.hostAccessTimeout k) s fun m =>
        m.host.reads = s.m.host.reads.eraseIdx k ∧ m.host.bufs.getD r.inst [] = s.m.host.bufs.getD r.inst [] ++ [(n, 2 ^ 64)]) ∧
    (r.gen = s.m.gen r.inst → s.m.isolated r.inst = false → r.use_ = .command → (s.m.hq r.inst 0).en = true →
      s.m.cmdsOf r.inst = [] → (cmdOf d).bad = none → ((s.m.hq r.inst 0).head + 1) % 2 ^ 16 = (s.m.hq r.inst 0).tail →
      completes (.hostReadCompletion k d) s fun m =>
        m.cmdsOf r.inst = [cmdOf d] ∧ (m.hq r.inst 0).head = (s.m.hq r.inst 0).tail)) ∧
  (∀ (s : State) (i d a : Nat) (c : Copy) (rest : List Copy) (more : List (Nat × Nat)), s.m.queue (.hp i) = c :: rest →
    s.m.host.bufs.getD i [] = (d, a) :: more → s.m.insOn = true → (s.m.hq i 2).en = true → s.m.cqRoom i = true →
    s.m.isolated i = false → c.bytes.length ≤ (s.m.hq i 2).aux % 2 ^ 15 → s.m.reachable i a c.bytes.length true = true →
    s.m.reachable i (cqAddr (s.m.hq i 1)) 16 true = true → SMap.rising s.m.sw.hpq = true → completes (.receiveDelivery i) s fun m =>
      m.queue (.hp i) = rest ∧ m.host.bufs.getD i [] = more ∧ (m.hq i 2).head = ((s.m.hq i 2).head + 1) % 2 ^ 16 ∧
      m.hq i 1 = cqNext (s.m.hq i 1) true ∧
      m.out = ((s.m.hostPut i a c.bytes).hostPut i (cqAddr (s.m.hq i 1)) (cqEntry (s.m.hq i 1) d 0 true (c.ts % 2 ^ 32)
        (c.bytes.length % 2 ^ 14 + c.inp * 2 ^ 14 + c.vid * 2 ^ 18 + b2n c.tagged * 2 ^ 30))).out) ∧
  (∀ (s : State) (i v sq : Nat) (rest poison : List Nat) (r : VRate) (cd : Curd), (s.m.hq i (4 + v)).pend = sq :: rest →
    s.m.vat.rates.get? v = some r → s.m.insOn = true → (s.m.hq i (4 + v)).en = true → s.m.isolated i = false →
    ringDist (s.m.hq i (4 + v)).head (s.m.hq i (4 + v)).tail < 2 ^ (s.m.hq i (4 + v)).log2 → (r.held fun cd => cd.seq == sq) = some cd →
    let q := s.m.hq i (4 + v)
    let n := 32 + 8 * r.chans.length
    let a := q.base + q.head % 2 ^ q.log2 * (ceilDiv n 64 * 64)
    s.m.reachable i a n true = true → s.m.reachable i q.aux 8 true = true → completes (.exportFrameWrite i v .clean poison) s fun m =>
      m.hq i (4 + v) = { q with pend := rest, head := (q.head + 1) % 2 ^ 16, written := q.written + 1 } ∧
      m.out = ((s.m.hostPut i a (s.m.curdHeader v cd ++ s.m.curdChans v cd 0 r.chans.length [])).hostPut i q.aux
        (leBytes 8 (q.written + 1))).out)

/-- R325, R333 to R335: the configuration of a queue, a share that fits or is refused, the translation commands and their end. -/
def Sys2Proof.Claims.HostSetupClaim : Prop :=
  (∀ (s : State) (fn v : Nat),
    let i := s.m.qselInst fn
    let q := s.m.qselQueue fn
    let x := s.m.hq i q
    let x1 := { x with log2 := if x.en then x.log2 else bitsOf v 1 4, vector := bitsOf v 5 9, modUs := bitsOf v 14 18 }
    s.m.insOn = true → (fn = 0 ∨ s.m.owns fn i = true) → s.m.hostOwned i = true → q ≠ 3 →
    (q < 3 → bitOf v 0 = true → x.en = false → s.m.isolated i = false → completes (.qcfgWrite fn 2 v) s fun m => m.hq i q = x1.start) ∧
    (bitOf v 0 = false → completes (.qcfgWrite fn 2 v) s fun m =>
      m.hq i q = { x1 with en := false, pend := [], irqDue := false }) ∧
    (x.en = false → ∀ lo, s.m.wlatch.get? (fn * 2 ^ 33 + (if fn = 0 then 0x1000084 else vfBase + fn * 0x10000 + 0x44)) = some lo →
      completes (.qcfgWrite fn 1 v) s fun m => m.hq i q = { x with base := (lo + v % 2 ^ 32 * 2 ^ 32) / 64 * 64 })) ∧
  (∀ (s : State) (i v : Nat), s.m.mode ≠ .reset → s.m.instAdmitted i = true → i < 4096 → s.wf = true →
    let sum (f : Nat → Fld) : Nat := s.m.instances.foldl (fun a j => if j = i then a else a + s.m.rd (f j)) 0
    (s.m.minSum - s.m.guar (.hp i) + bitsOf v 0 16 ≤ 60576 → completes (.shareWrite i 0 v) s fun m =>
      m.rd (R.INS_INST_SHARE_HP_HP_MIN i) = bitsOf v 0 16 ∧ m.rd (R.INS_INST_SHARE_HP_HP_WEIGHT i) = bitsOf v 16 8) ∧
    (sum R.INS_INST_SHARE_DMA_MIN + bitsOf v 0 16 ≤ 48000 → s.m.exportOf i ≤ bitsOf v 0 16 → completes (.shareWrite i 1 v) s fun m =>
      m.rd (R.INS_INST_SHARE_DMA_MIN i) = bitsOf v 0 16 ∧ m.rd (R.INS_INST_SHARE_DMA_WEIGHT i) = bitsOf v 16 8) ∧
    (sum R.INS_INST_SHARE_REC_MIN + bitsOf v 0 16 ≤ 4000 → completes (.shareWrite i 2 v) s fun m =>
      m.rd (R.INS_INST_SHARE_REC_MIN i) = bitsOf v 0 16 ∧ m.rd (R.INS_INST_SHARE_REC_WEIGHT i) = bitsOf v 16 8) ∧
    (60576 < s.m.minSum - s.m.guar (.hp i) + bitsOf v 0 16 → completes (.shareWrite i 0 v) s fun m =>
      m.rd R.INS_STATUS_SHARE_REFUSED_STK = 1 ∧ m.rd (R.INS_INST_SHARE_HP_HP_MIN i) = s.m.rd (R.INS_INST_SHARE_HP_HP_MIN i))) ∧
  (∀ s : State, s.m.mode ≠ .reset → s.wf = true →
    (s.m.rd R.INS_XLT_STAT_BUSY = 0 → s.m.hostOwned (s.m.rd R.INS_XLT_INST_VALUE % 4096) = true →
      let i := s.m.rd R.INS_XLT_INST_VALUE % 4096
      let page := s.m.rd R.INS_XLT_PAGE_VALUE
      let e := s.m.rd64 R.INS_XLT_DATA_LO_ENTRY R.INS_XLT_DATA_HI_ENTRY
      (page < s.m.rd (R.INS_INST_XLT_XLT_PAGES i) → bitsOf e 3 9 = 0 → (s.m.rd (R.INS_INST_XLT_PAGE i) = 1 → bitsOf e 12 9 = 0) →
        completes .xltWrite s fun m => m.host.xlt.getD (xltKey i page) 0 = e ∧ m.rd R.INS_XLT_STAT_BUSY = 1 ∧
          ∀ k, k ≠ xltKey i page → m.host.xlt.getD k 0 = s.m.host.xlt.getD k 0) ∧
      completes .invalAll s fun m => m.rd R.INS_XLT_STAT_BUSY = 1 ∧
        ∀ k, m.host.xlt.getD k 0 = if k / 2 ^ 20 = i then s.m.host.xlt.getD k 0 / 2 * 2 else s.m.host.xlt.getD k 0) ∧
    (s.m.rd R.INS_XLT_STAT_BUSY = 1 → (∀ r ∈ s.m.host.reads, r.old = false) → completes .xltDrainDone s fun m =>
      m.rd R.INS_XLT_STAT_BUSY = 0 ∧ m.rd R.INS_XLT_STAT_DONE_FLG = 1))

/-! ### Instances -/

/-- R322, R337 to R339, R342: an instance command on an instance that nothing of the module works for: a drained one takes its next
generation at once, its queues disabled with cause 3; one that has not drained latches the command; UNISOLATE; the end of draining. -/
def Obligations.InstanceCommands : Prop :=
  ∀ (s : State) (i : Nat), s.m.insOn = true → s.m.instAdmitted i = true → i < 4096 → s.wf = true → s.m.owner i ≠ 0 →
    (∀ x ∈ s.m.cul.tasks, x.2.inst ≠ i) → s.m.engines = [] → s.m.press.pending = [] → s.m.press.complete = [] → s.m.press.groups = [] →
    s.m.keys.cmd = none → s.m.sys.staging = none → s.m.acq.read = none →
    (s.m.rd (R.INS_INST_STAT_DRAINED i) = 1 → ∀ o, 0x100 ≤ o → o ≤ 0x1FF →
      ∀ x ∈ [(Instr.instanceReset i, s.m.owner i), (Instr.assign i o, o), (Instr.remove i, 0x200)], completes x.1 s fun m =>
      m.gen i = (s.m.gen i + 1) % 256 ∧ m.owner i = x.2 ∧ m.isolated i = false ∧ m.rd (fnReg 0 0x1000104 0x88 0 3) = 1 ∧
      ∀ q ∈ [0, 1, 2, 4, 5, 6, 7], (m.hq i q).en = false ∧ (m.hq i q).cause = 3) ∧
    (s.m.rd (R.INS_INST_STAT_DRAINED i) = 0 → s.m.rd (R.INS_INST_STAT_RESET_PENDING i) = 0 →
      ∀ o, 0x100 ≤ o → o ≤ 0x1FF → ∀ x ∈ [(Instr.instanceReset i, 1, 0), (Instr.assign i o, 2, o), (Instr.remove i, 3, 0)],
      completes x.1 s fun m =>
        m.host.pendOp.get? i = some (x.2.1, x.2.2) ∧ m.rd (R.INS_INST_STAT_RESET_PENDING i) = 1 ∧ m.gen i = s.m.gen i ∧
        m.rd (fnReg 0 0x1000104 0x88 0 3) = 2) ∧
    (completes (.unisolate i) s fun m => m.isolated i = false ∧ m.rd (fnReg 0 0x1000104 0x88 0 3) = 1) ∧
    (∀ fn, 0 < fn → fn < 256 → s.m.owns fn i = true → s.m.rd (R.INS_INST_STAT_DRAINED i) = 1 → completes (.icmdReset fn i) s fun m =>
      m.gen i = (s.m.gen i + 1) % 256 ∧ m.owner i = s.m.owner i ∧ m.rd (fnReg fn 0x1000104 0x88 0 3) = 1) ∧
    ((∀ r ∈ s.m.host.reads, r.inst = i → r.gen = s.m.gen i) → completes (.drained i) s fun m =>
      match s.m.host.pendOp.get? i with
      | none => m.rd (R.INS_INST_STAT_DRAINED i) = 1 ∧ m.gen i = s.m.gen i
      | some _ => m.gen i = (s.m.gen i + 1) % 256 ∧ m.rd (R.INS_INST_STAT_RESET_PENDING i) = 0)

/-- R86, R320, R340: the PCIe resets disable the queues of the instances concerned with cause 4 and clear their configuration; the
PF's ends every access and NumVFs; link training shows the link and its capacity. -/
def Obligations.PcieResets : Prop :=
  (∀ s : State, s.wf = true → ∀ c ∈ [Instr.pcieReset, .pfFunctionLevelReset], completes c s fun m =>
    m.host.reads = [] ∧ m.rd R.INS_STATUS_NUM_VFS = 0 ∧ m.press.snaps = [] ∧ (c = .pcieReset → m.rd R.INS_STATUS_LINK_W = 0) ∧
    ∀ i ∈ s.m.instances, s.m.hostOwned i = true → ∀ q ∈ [0, 1, 2, 4, 5, 6, 7], m.hq i q = { HQueue.init with cause := 4 }) ∧
  (∀ (s : State) (fn : Nat), completes (.vfFunctionLevelReset fn) s fun m =>
    m.press.snaps = s.m.press.snaps.filter (fun x => x.1 != fn) ∧
    ∀ i ∈ s.m.instances, s.m.owns fn i = true → ∀ q ∈ [0, 1, 2, 4, 5, 6, 7], m.hq i q = { HQueue.init with cause := 4 }) ∧
  (∀ (s : State) (w rate mps vfs : Nat), s.wf = true → completes (.pcieLinkTrained w rate mps vfs) s fun m =>
    m.host.mps = mps ∧ m.rd R.INS_STATUS_LINK_W = w % 2 ^ R.INS_STATUS_LINK_W.width ∧
    m.rd R.INS_STATUS_NUM_VFS = vfs % 2 ^ R.INS_STATUS_NUM_VFS.width ∧
    m.rd R.INS_DMA_CAP_MBPS = dmaCap w rate mps % 2 ^ R.INS_DMA_CAP_MBPS.width)

/-- R64 to R66, R368: a snapshot request waits; a sound one of one item is served with its result in host memory. A record read
waits, and its bytes go to host memory. -/
def Obligations.SnapshotsAndReads : Prop :=
  (∀ (s : State) (fn : Nat), fn < 256 → s.m.ready 7 = true → s.m.mode ≠ .reset → s.m.mode ≠ .load → s.m.mode ≠ .flush →
    s.m.rd (fnReg fn 0x900314 0x24 0 1) = 0 → completes (.snapshotGo fn) s fun m =>
      m.rd (fnReg fn 0x900314 0x24 0 1) = 1 ∧ m.press.snaps = s.m.press.snaps ++ [(fn,
        s.m.rd64 (fnReg fn 0x900300 0x10 0 32) (fnReg fn 0x900304 0x14 0 32), s.m.rd64 (fnReg fn 0x900308 0x18 0 32) (fnReg fn 0x90030c 0x1c 0 32))]) ∧
  (∀ (s : State) (d res : Nat) (b : Bytes) (rest : List (Nat × Nat × Nat)), s.m.press.snaps = (0, d, res) :: rest → s.m.pressOn = true →
    s.m.press.pending = [] → s.m.press.complete = [] → s.wf = true →
    let i := leAt b 2 2 % 4096
    s.m.hostOwned i = true → s.m.isolated i = false → s.m.reachable i d 32 false = true → leAt b 0 2 = 1 → leAt b 2 2 = i → leAt b 4 12 = 0 →
    d % 16 = 0 → res % 32 = 0 → s.m.snapStatus 0 b 0 = 0 → (snapItem b 0).len ≤ 4096 →
    let items := s.m.snapBytes 0 (snapItem b 0)
    s.m.reachable i res (32 + items.length) true = true → completes (.snapshotServe (some b)) s fun m =>
      m.press.snaps = rest ∧ m.rd (fnReg 0 0x900314 0x24 0 1) = 0 ∧ m.rd (fnReg 0 0x900314 0x24 1 1) = 1 ∧
      m.out = (s.m.hostPut i res (leBytes 8 s.m.press.visible ++ leBytes 4 s.m.press.visibleTs ++ [0, 0, 0, 0] ++ List.replicate 16 0 ++ items)).out) ∧
  (∀ (s : State) (k e region inst : Nat), s.m.ready 8 = true → s.m.mode ≠ .reset → s.m.mode ≠ .load → s.m.mode ≠ .flush →
    s.m.acq.read = none → region < 3 → completes (.recordRead k e region inst) s fun m =>
      m.rd R.ACQ_RD_STAT_BUSY = 1 ∧ m.acq.read = some ⟨k % 16, e % 64, region, inst % 4096, s.m.gen (inst % 4096),
        s.m.rd64 R.ACQ_RD_ADDR_LO_ADDR R.ACQ_RD_ADDR_HI_ADDR, s.m.rd R.ACQ_RD_OFF_VALUE, s.m.rd R.ACQ_RD_LEN_VALUE⟩) ∧
  (∀ (s : State) (q : AcqRead) (x : Session) (r : AcqRec) (poison : List (Nat × Nat)), s.m.acq.read = some q → s.wf = true →
    s.m.hostOwned q.inst = true → s.m.isolated q.inst = false → s.m.gen q.inst = q.gen → s.m.acq.sessions.get? q.session = some x →
    x.recs.get? q.entry = some r → bitOf r.flags 0 = true → bitOf r.flags 1 = false →
    let b := x.region q.session s.m.freeIdx q.region r []
    0 < q.len → q.len ≤ 16777216 → q.off + q.len ≤ b.length → s.m.reachable q.inst q.addr q.len true = true →
    completes (.readDone .clean poison) s fun m =>
      m.acq.read = none ∧ m.rd R.ACQ_RD_STAT_BUSY = 0 ∧ m.rd R.ACQ_RD_STAT_STATUS = 0 ∧ m.rd R.ACQ_RD_STAT_DONE_FLG = 1 ∧
      m.out = (s.m.hostPut q.inst q.addr (slice b q.off q.len)).out)

/-! ### Key store -/

/-- R446, R448, R449, R452, R456 to R458: the key commands start with their block and hold their slot BUSY; a derivation, a clear, a
switch of halves and the first owner slot at their completion; the switch at its instant; the failure of the random source. -/
def Obligations.KeyCommands : Prop :=
  (∀ (s : State) (sl inst : Nat) (b : Option Bytes) (dev : Bool), s.m.mode ≠ .reset → s.m.ready 12 = true → s.m.rd R.KEY_CMD_STAT_BUSY = 0 →
    let i := inst % 4096
    s.m.hostOwned i = true → s.m.isolated i = false →
    s.m.reachable i (s.m.rd64 R.KEY_CMD_ADDR_LO_ADDR R.KEY_CMD_ADDR_HI_ADDR) 256 false = true →
    (∀ x ∈ [(Instr.derive sl inst b, 1), (.importKey sl inst b, 2), (.clear sl inst b, 3), (.keySwitch sl inst b, 4)],
      completes x.1 s fun m => m.slot (sl % 1024) = { s.m.slot (sl % 1024) with state := .busy } ∧ m.rd R.KEY_CMD_STAT_BUSY = 1 ∧
        m.keys.cmd = some ⟨x.2, sl % 1024, false, i, s.m.gen i, b, (s.m.slot (sl % 1024)).state⟩) ∧
    (∀ x ∈ [(Instr.attest sl dev inst b, 5, sl % 1024, dev), (.program inst b, 6, 0, false), (.revoke inst b, 7, 0, false)],
      completes x.1 s fun m => m.rd R.KEY_CMD_STAT_BUSY = 1 ∧ (∀ k, m.slot k = s.m.slot k) ∧
        m.keys.cmd = some ⟨x.2.1, x.2.2.1, x.2.2.2, i, s.m.gen i, b, (s.m.slot x.2.2.1).state⟩)) ∧
  (∀ (s : State) (t : Nat) (c : KeyCmd) (b : Bytes), s.m.keys.cmd = some c → c.block = some b → t * nsUnit ≤ s.m.clk →
    s.m.gen c.inst = c.gen → s.m.isolated c.inst = false → s.wf = true →
    let done (m : Module) : Prop := m.keys.cmd = none ∧ m.rd R.KEY_CMD_STAT_BUSY = 0 ∧ m.rd R.KEY_CMD_STAT_RESULT = 1 ∧
      m.rd R.KEY_CMD_STAT_DONE_FLG = 1
    (c.op = 1 → leAt b 74 182 = 0 →
      let parent := leAt b 0 2
      let attr := leAt b 2 1
      let label := slice b 8 (leAt b 3 1)
      let half := leAt b 73 1
      attr ≤ 6 → labelOk label = true → labelOwn label = false → half ≤ 1 → leAt b 72 1 ≤ 4 → (attr = 1 ∨ leAt b 72 1 = 0) →
      (s.m.slot c.slot).section_ = false → c.before = .empty → s.m.halfOk c.slot attr half = true → s.m.deriveCause parent = none →
      completes (.keyCommandDone t) s fun m => done m ∧ m.slot c.slot = { KeySlot.init with
        state := .ready, attr := attr, parent := parent, label := label, alg := leAt b 72 1, keyIds := [(half, leAt b 4 4)]
        keys := [(half, keyOf (if parent = 0xFFFF then s.m.root.getD [] else (s.m.slot parent).keys.getD 0 []) label attr)]
        depth := (if parent = 0xFFFF then 0 else (s.m.slot parent).depth) + 1 }) ∧
    (c.op = 3 → leAt b 0 256 = 0 → s.m.slotInUse c.slot = false → (s.m.slot c.slot).section_ = false →
      completes (.keyCommandDone t) s fun m => done m ∧ m.slot c.slot = KeySlot.init) ∧
    (c.op = 4 → leAt b 4 252 = 0 → c.before = .ready → (s.m.slot c.slot).attr = 1 →
      ((s.m.slot c.slot).keys.get? (1 - s.m.sendHalf c.slot)).isSome = true → completes (.keyCommandDone t) s fun m =>
        done m ∧ (m.slot c.slot).keys = (s.m.slot c.slot).keys ∧
        if tsLater (leAt b 0 4) s.m.ts32 = true then
          (m.slot c.slot).pending = some (leAt b 0 4, 1 - s.m.sendHalf c.slot) ∧ (m.slot c.slot).sendHalf = 1 - (1 - s.m.sendHalf c.slot)
        else (m.slot c.slot).pending = none ∧ (m.slot c.slot).sendHalf = 1 - s.m.sendHalf c.slot) ∧
    (c.op = 6 → leAt b 2 6 = 0 → leAt b 104 152 = 0 → s.m.rd R.KEY_STATUS_RNG_FAIL = 0 → leAt b 0 1 ≤ 3 →
      leAt b 1 1 ≤ 3 ∨ leAt b 1 1 = 0xFF → (∀ k < 4, (s.m.ownerSlot k).programmed = false) → (s.m.ownerSlot (leAt b 0 1)).code = 0 →
      completes (.keyCommandDone t) s fun m => done m ∧
        m.persist = { s.m.persist with owners := s.m.persist.owners.set (leAt b 0 1) ⟨slice b 8 32, true, false⟩ })) ∧
  (∀ (s : State) (sl t h : Nat), (s.m.slot sl).pending = some (t, h) → completes (.sendHalfSwitch sl) s fun m =>
    (m.slot sl).sendHalf = h ∧ (m.slot sl).pending = none ∧ (m.slot sl).keys = (s.m.slot sl).keys) ∧
  (∀ s : State, s.m.rd R.KEY_STATUS_RNG_FAIL = 0 → completes .rngFail s fun m =>
    m.rd R.KEY_STATUS_RNG_FAIL = 1 ∧ m.keys = { s.m.keys with slots := SMap.tidy s.m.keys.slots })

/-! ### The pair -/

/-- R395 to R401, R404: the heartbeat on PL and its bytes; a heartbeat that an active keeps its role under and one that it yields to; a
path's silence; HEALTH. -/
def Sys2Proof.Claims.HeartbeatsClaim : Prop :=
  (∀ s : State, s.m.red.cfg.pairMode = true → s.m.rd R.SYS_READY_READY ||| 2 ^ 10 = 0xFFFF → s.m.mode ≠ .reset → s.m.mode ≠ .flush →
    s.m.linkUp 10 = true → completes (.heartbeatSend 0) s fun m =>
      m.red.sendSeq.getD 0 0 = (s.m.red.sendSeq.getD 0 0 + 1) % 2 ^ 32 ∧ ∃ b, m.out = s.m.out ++ [.pair (.heartbeat b)] ∧ b.length = 48 ∧
        beAt b 0 2 = 0x0101 ∧ beAt b 2 2 = s.m.red.cfg.pairId % 2 ^ 16 ∧ beAt b 8 4 = s.m.claim % 2 ^ 32 ∧
        beAt b 12 4 = s.m.red.sendSeq.getD 0 0 % 2 ^ 32 ∧ beAt b 16 4 = s.m.ts32 ∧ beAt b 20 8 = s.m.red.bootId % 2 ^ 64) ∧
  (∀ (s : State) (b : Bytes) (t : Nat), t * nsUnit ≤ s.m.clk → s.m.red.cfg.pairMode = true → s.m.mode = .active → s.m.red.role = .active →
    s.m.hbValid 0 b = true → s.m.red.peer.map (fun p => (p.flags % 2, p.bootId)) = some (beAt b 4 1 % 2, beAt b 20 8) → s.wf = true →
    completes (.heartbeat 0 b t) s fun m =>
      m.red.peer = some ⟨beAt b 4 1, beAt b 5 1, beAt b 8 4, beAt b 20 8, s.m.mono⟩ ∧ m.rd R.RED_STATUS_PEER_LOST = 0 ∧
      m.red.tLast.get? 0 = some t ∧
      if claimWins (beAt b 8 4) s.m.claim = true then m.red.role = .standby ∧ m.mode = .standby ∧ m.red.epoch = beAt b 8 4 % 2 ^ 16
      else m.red.role = .active ∧ m.mode = .active ∧ m.red.epoch = s.m.red.epoch) ∧
  (∀ (s : State) (path t : Nat), s.m.red.tLast.get? path = some t → s.m.red.pathUp.get? path = some true →
    completes (.heartbeatPathLost path) s fun m => m.red.pathUp.get? path = some false ∧ m.red.role = s.m.red.role) ∧
  (∀ s : State, s.m.red.serv = true → s.wf = true → completes .healthUpdate s fun m =>
    m.rd R.RED_PENALTY_P = s.m.penalty % 2 ^ 12 ∧
    m.rd R.RED_PENALTY_HEALTH = if s.m.mode = .safeHold then 0 else max 1 (255 - s.m.penalty))

/-- R398 to R400: the decision of the role on a heartbeat, and without one; the takeover of a standby whose peer is silent, or whose
health margin has lasted. -/
def Sys2Proof.Claims.RolesClaim : Prop :=
  (∀ (s : State) (p : Peer) (f : Nat), s.m.red.peer = some p → s.m.red.decideFrom = some f → f ≤ p.at_ → s.m.mode = .ripen →
    s.m.red.cfg.pairMode = true → s.m.red.role = .undecided → completes .roleDecision s fun m =>
      if bitOf p.claim 31 = true ∧ ¬ (bitOf p.claim 30 = false ∧ s.m.preferred = true) then
        m.red.role = .standby ∧ m.mode = .standby ∧ m.red.epoch = p.claim % 2 ^ 16
      else if s.m.preferred = true then
        m.red.role = .active ∧ m.mode = .active ∧
          m.red.epoch = if bitOf p.claim 31 = true then (p.claim % 2 ^ 16 + 1) % 2 ^ 16 else s.m.tns / 1000000000 % 2 ^ 16
      else m.red.role = .standby ∧ m.mode = .standby) ∧
  (∀ (s : State) (f : Nat), s.m.red.peer = none → s.m.red.decideFrom = some f → s.m.mode = .ripen → s.m.red.cfg.pairMode = true →
    s.m.red.role = .undecided → s.m.sys.still = false → completes .peerWaitEnd s fun m =>
      m.red.role = .active ∧ m.mode = .active ∧ m.rd R.RED_STATUS_PEER_LOST = 1 ∧
      m.mono = max s.m.mono (f + s.m.red.cfg.peerWaitMs * 1000000 * nsUnit)) ∧
  (∀ (s : State) (e : Nat), s.m.silenceEnd = some e → s.m.red.role = .standby → s.m.mode = .standby →
    s.m.rd R.RED_STATUS_PEER_LOST = 0 → s.m.pubs = [] → s.m.lst.conns = [] → s.m.sys.still = false → completes .peerLost s fun m =>
      m.red.role = .active ∧ m.mode = .active ∧ m.rd R.RED_STATUS_PEER_LOST = 1 ∧ m.tns = max s.m.tns e ∧
      m.red.epoch = (((s.m.red.peer.map (·.claim)).getD s.m.red.epoch) % 2 ^ 16 + 1) % 2 ^ 16) ∧
  (∀ (s : State) (t : Nat), s.m.red.healthFrom = some t → s.m.mode = .standby → s.m.healthCause 3 = true → s.m.pubs = [] →
    s.m.lst.conns = [] → s.m.sys.still = false → completes (.healthWindowEnd 3) s fun m =>
      m.red.role = .active ∧ m.mode = .active ∧ m.mono = max s.m.mono (t + s.m.red.cfg.yieldMs * 1000000 * nsUnit))

/-- R406, R407: digests leave in frames of up to 90; an entry of the peer meets the own one of its key, and a difference, or a window
that ends without a match, puts the instance of a standby out of sync. -/
def Sys2Proof.Claims.DigestsClaim : Prop :=
  (∀ (s : State) (t : Nat), s.m.red.digFrom = some t → s.m.linkUp 10 = true → s.m.mode ≠ .flush → completes .digestSend s fun m =>
    m.out = s.m.out ++ [.pair (.digests (s.m.red.digQ.take 90))] ∧ m.red.digQ = s.m.red.digQ.drop 90) ∧
  (∀ (s : State) (d : DigEntry), s.m.paired = true →
    ((s.m.red.own.find? fun x => x.1.sameKey d) = none → s.m.red.theirs.length < 32768 → completes (.digestMessage [d]) s fun m =>
      m.red.theirs = s.m.red.theirs ++ [d] ∧ m.red.own = s.m.red.own) ∧
    (∀ x, (s.m.red.own.find? fun x => x.1.sameKey d) = some x → completes (.digestMessage [d]) s fun m =>
      m.red.own = (s.m.red.own.filter fun y => !y.1.sameKey d) ∧ m.red.theirs = s.m.red.theirs ∧
      (x.1.digest = d.digest → m.regs = SMap.tidy s.m.regs) ∧
      (x.1.digest ≠ d.digest → s.m.red.role = .standby → s.m.instAdmitted x.1.inst = true →
        m.rd (R.RED_INST_SYNC_STATE x.1.inst) = 1))) ∧
  (∀ (s : State) (d : DigEntry) (e : Nat), s.m.red.own = [(d, e)] → s.m.red.role = .standby → s.m.instAdmitted d.inst = true →
    completes .digestUnmatched s fun m => m.red.own = [] ∧ m.rd (R.RED_INST_SYNC_STATE d.inst) = 1)

/-- R408, R410: a transfer from its request over the pieces of state, the forwarded records and the markers to its time-out; RED_SWITCH
and RESYNC. -/
def Sys2Proof.Claims.TransfersClaim : Prop :=
  (∀ (s : State) (i : Nat), s.m.standingBy = true → s.m.linkUp 10 = true → s.m.red.xfers.length < s.m.red.cfg.xferMax →
    (s.m.instances.find? fun i => s.m.instSync i == 1) = some i → completes .xferStart s fun m =>
      m.red.xfers.get? i = some ⟨s.m.mono, none, [], false, []⟩ ∧ m.instSync i = 2 ∧ m.out = s.m.out ++ [.pair (.request i)]) ∧
  (∀ (s : State) (i : Nat), s.m.workingActive = true → s.m.instAdmitted i = true → s.m.linkUp 10 = true →
    completes (.requestMessage i) s fun m =>
      let j := s.m.tns + s.m.red.cfg.joinLeadUs * 1000
      m.red.forward.get? i = some j ∧
      m.out = s.m.out ++ ((s.m.stateParts i).map fun p => .pair (.state i (j % 2 ^ 32) (some p))) ++ [.pair (.state i (j % 2 ^ 32) none)]) ∧
  (∀ (s : State) (i tj : Nat) (x : Xfer) (p : XPart), s.m.red.xfers.get? i = some x → s.m.standingBy = true → x.applied = false →
    completes (.stateMessage i tj (some p)) s fun m =>
      m.red.xfers.get? i = some { x with tJoin := some (x.tJoin.getD (s.m.nsOfTs (tj % 2 ^ 32))), parts := x.parts ++ [p] }) ∧
  (∀ (s : State) (i : Nat) (r : CRec), s.m.standingBy = true → s.m.instSync i = 3 → completes (.recordMessage i r) s fun m =>
    m.press.admitted = s.m.press.admitted + 1 ∧
    m.press.applying = s.m.press.applying ++ [⟨s.m.press.admitted + 1, [{ r with
      inst := i, gen := s.m.gen i, group := none, engine := 32, handed := s.m.mono, kind := .forwarded }], none, [],
      s.m.mono + fabric (2 + ceilDiv r.length 32)⟩]) ∧
  (∀ (s : State) (i ct t : Nat), s.m.standingBy = true → s.m.instSync i = 3 → s.m.taskInst t = i →
    (s.m.task t).lastDispatched = none → completes (.markerMessage i ct t) s fun m => (m.task t).lastDispatched = some ct) ∧
  (∀ (s : State) (i : Nat) (x : Xfer), s.m.red.xfers.get? i = some x → SMap.rising s.m.red.xfers = true → s.m.sys.still = false →
    completes (.xferTimeout i) s fun m => m.red.xfers.get? i = none ∧ m.instSync i = 1 ∧
      m.mono = max s.m.mono (x.start + s.m.red.cfg.xferTmoMs * 1000000 * nsUnit)) ∧
  (∀ s : State, s.m.mode ≠ .reset → s.m.red.cfg.pairMode = true →
    (s.m.workingActive = true → s.m.red.peer.any (fun p => bitOf p.flags 2) = true → completes .redSwitch s fun m =>
      m.red.switchReq = true ∧ m.rd R.RED_CMD_STAT_RESULT = 1) ∧
    completes .resync s fun m => m.rd R.RED_CMD_STAT_RESULT = 1 ∧ ∀ i ∈ s.m.instances, m.instSync i = 1)

/-! ### The check-value units -/

/-- The feed of a byte as R462 writes it. -/
def Sys2Proof.Claims.ruleFeed (w poly : Nat) (refin : Bool) (r : Nat) (b : Byte) : Nat :=
  let b' := if refin then (List.range 8).foldl (fun a i => a + (if b.getLsbD i then 2 ^ (7 - i) else 0)) 0 else b.toNat
  (List.range 8).foldl (fun r _ => if bitOf r (w - 1) then ((r * 2) ^^^ poly) % 2 ^ w else r * 2 % 2 ^ w) (r ^^^ (b' * 2 ^ (w - 8)))

/-- R462, R463: a unit's feed is the shift register of the rule; words and blocks feed byte by byte; the final value reflects and XORs;
a fold XORs the pieces of the tag. -/
def Sys2Proof.Claims.CheckValueRuleClaim : Prop :=
  ∀ (u : CrcSet) (r : Nat), u.w ∈ [8, 16, 32, 64] → u.poly < 2 ^ u.w → u.xorout < 2 ^ u.w → r < 2 ^ u.w →
    (∀ b, u.feed r b = ruleFeed u.w u.poly u.refin r b) ∧
    (∀ b l, u.feeds r (b :: l) = u.feeds (u.feed r b) l) ∧
    (∀ v, u.feeds r (leBytes 4 v) = u.feed (u.feed (u.feed (u.feed r (BitVec.ofNat 8 v)) (BitVec.ofNat 8 (v / 2 ^ 8)))
      (BitVec.ofNat 8 (v / 2 ^ 16))) (BitVec.ofNat 8 (v / 2 ^ 24))) ∧
    (∀ k < u.w, bitOf (u.final r) k = xor (bitOf r (if u.refout then u.w - 1 - k else k)) (bitOf u.xorout k)) ∧ u.final r < 2 ^ u.w ∧
    (∀ tag < 2 ^ 64, u.fold r tag = r ^^^ (List.range (64 / u.w)).foldl (fun a i => a ^^^ (tag / 2 ^ (u.w * i) % 2 ^ u.w)) 0)

/-- R463 to R468: the commands of a unit's owner on its running value, its result and its flags; the PF hands the unit over. -/
def Sys2Proof.Claims.UnitCommandsClaim : Prop :=
  (∀ (s : State) (fn u : Nat), s.m.mode ≠ .reset → s.m.ready 13 = true → s.m.crcOwns fn u = true → s.wf = true →
    s.m.rd (R.CRC_CFG_WIDTH u) < 4 →
    (completes (.start fn u) s fun m => m.crcR u = (s.m.crcSet u).init) ∧
    (∀ n v, completes (.crcFeed fn u n v) s fun m =>
      m.crcR u = (s.m.crcSet u).feeds (s.m.crcR u) (leBytes (min n 4) v) % 2 ^ (s.m.crcSet u).w ∧ m.crcSet u = s.m.crcSet u) ∧
    (∀ hi lo, s.m.wlatch.get? (fn * 2 ^ 33 + (R.CRC_TAG_LO_TAG u).addr) = some lo → completes (.crcTagHiWrite fn u hi) s fun m =>
      m.crcR u = (s.m.crcSet u).fold (s.m.crcR u) (lo + 2 ^ 32 * (hi % 2 ^ 32)) % 2 ^ (s.m.crcSet u).w) ∧
    (∀ hi lo, s.m.wlatch.get? (fn * 2 ^ 33 + (R.CRC_VALUE_LO_R u).addr) = some lo → completes (.crcValueHiWrite fn u hi) s fun m =>
      m.crcR u = (lo + 2 ^ 32 * (hi % 2 ^ 32)) % 2 ^ (s.m.crcSet u).w) ∧
    (completes (.compare fn u) s fun m =>
      let v := (s.m.crcSet u).final (s.m.crcR u)
      m.rd64 (R.CRC_RESULT_LO_RESULT u) (R.CRC_RESULT_HI_RESULT u) = v ∧ m.crcR u = s.m.crcR u ∧
      if v = s.m.rd64 (R.CRC_EXPECT_LO_EXPECT u) (R.CRC_EXPECT_HI_EXPECT u) % 2 ^ (s.m.crcSet u).w then
        m.rd (R.CRC_STAT_MATCH u) = 1 ∧ m.out = s.m.out
      else m.rd (R.CRC_STAT_MATCH u) = 0 ∧ m.rd (R.CRC_STAT_MISMATCH_FLG u) = 1 ∧
        (s.m.rd (R.CRC_CFG_IRQ_EN u) = 1 → m.out = s.m.out ++ [.msix fn (s.m.rd (R.CRC_CFG_VECTOR u))]))) ∧
  (∀ (s : State) (u v : Nat), s.m.mode ≠ .reset → u < 8 → s.wf = true → completes (.crcOwnerWrite u v) s fun m =>
    m.rd (R.CRC_OWNER_OWNER u) = v % 2 ^ 10 ∧ m.crcR u = s.m.crcR u ∧ m.crcSet u = s.m.crcSet u)

/-! ### Memory and the error tree -/

/-- R477, R481, R484, R486, R490: a scrub visit that finds a clean codeword, the repair of a table entry from its shadow, the error
interrupt, an injection taken, a debug read of a code partition. -/
def Obligations.ErrorTree : Prop :=
  (∀ (s : State) (mem k a b : Nat), mem ≤ 5 → s.m.ready 15 = true → s.m.mode ≠ .reset → s.m.mode ≠ .flush → s.m.err.injected = [] →
    s.m.err.scrub.getD mem 0 + 1 < codewords mem → s.m.sys.still = false → s.wf = true → completes (.scrubVisit mem .clean k a b) s fun m =>
      m.err.scrub.getD mem 0 = s.m.err.scrub.getD mem 0 + 1 ∧
      m.rd (R.MEM_SCRUB1_PROGRESS mem) = (s.m.err.scrub.getD mem 0 + 1) * 100 / codewords mem ∧
      m.mono = max s.m.mono (s.m.err.passStart.getD mem s.m.mono + (s.m.err.scrub.getD mem 0 + 1) * scrubPeriod mem)) ∧
  (∀ (s : State) (kind i word : Nat), s.m.gone kind i = true → s.m.mode ≠ .reset → s.m.err.badShadow.contains word = false →
    completes (.shadowRepair kind i word) s fun m => m.gone kind i = false ∧
      ∀ k j, (k, j) ≠ (kind, i) → m.gone k j = s.m.gone k j) ∧
  (∀ s : State, s.m.err.irqDue = true → s.m.sys.still = false → completes .errorInterrupt s fun m =>
    m.out = s.m.out ++ [.msix 0 (s.m.rd R.ERR_CTRL_IRQ_VECTOR)] ∧ m.err.irqDue = false ∧ m.err.lastIrq = some m.mono ∧
    m.mono = match s.m.err.lastIrq with
      | none => s.m.mono
      | some t => max s.m.mono (t + 100000 * nsUnit)) ∧
  (∀ (s : State) (addr : Nat), s.m.mode = .test → s.m.rd R.ERR_INJECT_ARM = 1 → s.m.rd R.ERR_INJECT_MEM ≤ 4 → s.wf = true →
    completes (.injectionTaken addr) s fun m =>
      m.err.injected = s.m.err.injected ++ [(s.m.rd R.ERR_INJECT_MEM, addr / 32 * 32, s.m.rd R.ERR_INJECT_SYM_A, s.m.isOn R.ERR_INJECT_TWO)] ∧
      m.rd R.ERR_INJECT_ARM = 0 ∧ m.rd R.ERR_INJECT_INJ_DONE_FLG = 1) ∧
  (∀ (s : State) (e x : Nat), s.m.mode = .test → e < 32 → x % 4 = 0 → x + 4 ≤ 1024 * s.m.cul.codeKib → x < 0x80000 →
    completes (.debugRead (0x2000000 + 0x80000 * e + x) .clean) s fun m =>
      m.rdata = BitVec.ofNat 32 (ofLe ((List.range 4).map fun k => s.m.cul.code.getD (x + k) 0)))

/-! ### Rules of the whole machine -/

/-- R14: TS32 values and their order. -/
def Obligations.TimeOrder : Prop :=
  (∀ m : Module, m.ts32 = m.tns % 2 ^ 32) ∧
  (∀ a b, a < 2 ^ 32 → b < 2 ^ 32 → (tsDiff b a - ((b : Int) - a)) % 2 ^ 32 = 0 ∧ -(2 ^ 31) ≤ tsDiff b a ∧ tsDiff b a < 2 ^ 31 ∧
    (tsLater b a = true ↔ 1 ≤ tsDiff b a ∧ tsDiff b a ≤ 2147483647)) ∧
  (∀ (m : Module) (t : Nat), (t : Int) - m.tns < 2 ^ 31 → -(2 ^ 31) < (t : Int) - m.tns → m.nsOfTs (t % 2 ^ 32) = t)

/-- R20: counters saturate at their all-ones value and never wrap. -/
def Obligations.CountersSaturate : Prop :=
  ∀ (m : Module) (f : Fld) (n : Nat), SMap.rising m.regs = true → m.rd f < 2 ^ f.width →
    (m.bumpBy f n).rd f = min (m.rd f + n) (2 ^ f.width - 1) ∧ m.rd f ≤ (m.bumpBy f n).rd f

/-- The command answers a next state that differs from the state before, in canonical form, at most in what `keep` copies over. -/
def Sys2Proof.Claims.framed (i : Instr) (s : State) (keep : Module → Module → Module) : Prop :=
  ∃ m, exec i s = .next { s with m := m } ∧ m = keep m s.m.settle

/-- The frames of commands that act on the registers and on one or two parts of the module: everything else stays. -/
def Obligations.CommandFrames : Prop :=
  (∀ (s : State) (a b c : Nat) (x : Instr), x ∈ [Instr.slowClr a, .windowWrite a b, .shareWrite a b c, .crcOwnerWrite a b, .xltDrainDone,
      .outLinkExpiry] → framed x s fun m n => { n with regs := m.regs, clk := m.clk, mono := m.mono }) ∧
  (∀ (s : State) (x : Instr), x ∈ [Instr.freeze, .thaw, .evrFlush, .recordWrite, .bufferMove, .rngFail] →
    framed x s fun m n => { n with regs := m.regs, evr := m.evr }) ∧
  (∀ (s : State) (a b : Nat) (x : Instr), x ∈ [Instr.nowRead a, .vcNowRead a b, .caveDataRead] →
    framed x s fun m n => { n with regs := m.regs, latch := m.latch, rdata := m.rdata }) ∧
  (∀ (s : State) (a : Nat) (x : Instr), x ∈ [Instr.haulatoEdge a, .echoRequest a] →
    framed x s fun m n => { n with tim := m.tim, out := m.out, clk := m.clk, mono := m.mono }) ∧
  (∀ (s : State) (x : Instr), x ∈ [Instr.xltWrite, .invalAll] → framed x s fun m n => { n with regs := m.regs, host := m.host }) ∧
  (∀ (s : State) (a b : Nat) (x : Instr), x ∈ [Instr.completionInterrupt a, .narrowWrite a, .violationWindowExpiry a,
      .pcieLinkTrained a b a b] →
    framed x s fun m n => { n with regs := m.regs, host := m.host, evr := m.evr, out := m.out, clk := m.clk, mono := m.mono }) ∧
  (∀ (s : State) (a b c d : Nat), framed (.recordRead a b c d) s fun m n => { n with regs := m.regs, acq := m.acq }) ∧
  (∀ (s : State) (a : Nat), framed (.snapshotGo a) s fun m n => { n with regs := m.regs, press := m.press }) ∧
  (∀ s : State, framed .tracePop s fun m n => { n with ladle := m.ladle }) ∧
  (∀ (s : State) (a : Nat) (x : Instr), x ∈ [Instr.errorInterrupt, .injectionTaken a] →
    framed x s fun m n => { n with regs := m.regs, err := m.err, out := m.out, clk := m.clk, mono := m.mono }) ∧
  (∀ (s : State) (a : Nat) (x : Instr), x ∈ [Instr.digestSend, .heartbeatSend 0, .redSwitch, .healthUpdate, .sendHalfSwitch a] →
    framed x s fun m n => { n with regs := m.regs, red := m.red, keys := m.keys, out := m.out, clk := m.clk, mono := m.mono })

/-! ### The parts together -/

/-- R270, R275, R282: the integer rows, the rows that move values within the context, and the registers they write. -/
def Obligations.IntegerRows : Prop := IntegerResultsClaim ∧ DivisionClaim ∧ PredicatesClaim ∧ MovesClaim ∧ RegisterWritesClaim

/-- R271 to R273: the scalar, lane and complex rows. -/
def Obligations.FloatRows : Prop := FloatResultsClaim ∧ LaneResultsClaim ∧ ComplexResultsClaim

/-- R267, R268: a row that is not qualified, and an encoding that is not defined. -/
def Obligations.Qualification : Prop := UnqualifiedClaim ∧ UndefinedEncodingClaim

/-- R276, R277, R286: the rows that ask and wait, and the answers. -/
def Obligations.GlobalReads : Prop := AsksClaim ∧ AnswersClaim

/-- R255, R282, R283: control flow, and the return that undoes a call. -/
def Obligations.Control : Prop := ControlFlowClaim ∧ CallReturnClaim

/-- R284, R287: the rows that stage an entry or leave a mark in the trace. -/
def Obligations.RecordEntries : Prop := StagedEntriesClaim ∧ RawFramesClaim ∧ TraceMarkClaim

/-- R286: the check-value rows. -/
def Obligations.CheckValueRows : Prop := CheckValueRequestsClaim ∧ CheckValueBlockClaim

/-- R129, R132, R149 to R158: a frame from its arrival to its start at a port. -/
def Obligations.FrameFlow : Prop := FrameStartClaim ∧ ForwardingClaim ∧ CutThroughClaim

/-- R153 to R155: learned entries and table writes. -/
def Obligations.SwitchState : Prop := LearningClaim ∧ SwitchTablesClaim

/-- R25, R208, R209, R220, R228: curd frames from opening to visibility. -/
def Obligations.CurdFlow : Prop := CurdFramesClaim ∧ CurdOutputsClaim

/-- R199, R203, R204, R225: samples and the second boundary. -/
def Obligations.StreamSamples : Prop := SampledValuesClaim ∧ SecondBoundaryClaim

/-- R417, R420 to R426: connections and the frames they take. -/
def Obligations.SafeConnections : Prop := SafeTransportClaim ∧ SafeFramesClaim

/-- R15, R17 to R21, R308, R310: register writes and reads. -/
def Obligations.RegisterAccess : Prop := PlainWriteClaim ∧ PlainReadClaim ∧ ForceAndWindowClaim

/-- R249, R290 to R299: operands, dispatch and capture. -/
def Obligations.LadleFlow : Prop := OperandsClaim ∧ DispatchingClaim ∧ CaptureClaim

/-- R298, R303, R306, R307, R315: the watchdog and the task commands. -/
def Obligations.TaskControl : Prop := WatchdogClaim ∧ TaskCommandsClaim

/-- R36, R42, R43, R51, R52, R285: hand-off, admission and visibility. -/
def Obligations.PressFlow : Prop := HandOffsClaim ∧ AdmissionClaim ∧ VisibilityClaim

/-- R324, R326 to R328, R338: commands, doorbells and transfers. -/
def Obligations.HostQueues : Prop := HostCommandsClaim ∧ DoorbellsClaim ∧ HostTransfersClaim

/-- R18, R325, R333 to R335, R341, R342: queues, shares and translation, violations. -/
def Obligations.HostControl : Prop := HostSetupClaim ∧ ViolationsClaim

/-- R395 to R401, R404: heartbeats and roles. -/
def Obligations.PairRoles : Prop := HeartbeatsClaim ∧ RolesClaim

/-- R406 to R408, R410: digests and transfers. -/
def Obligations.PairTransfers : Prop := DigestsClaim ∧ TransfersClaim

/-- R462 to R468: the rule of the units and the commands of their owner. -/
def Obligations.CheckUnits : Prop := CheckValueRuleClaim ∧ UnitCommandsClaim
end

