-- ==== Sys2Proof/Laws/Store.lean ====
section
/-!
SUPPORT. The sparse store: a read after a write, and the canonical form that every operation on it keeps.
-/

namespace Sys2Proof.SMap
open Sys2Proof.Machine.SMap
variable {α : Type}

/-! ### Read after write -/

@[simp] theorem get?_nil (x : Nat) : get? ([] : SMap α) x = none := rfl

theorem get?_set_same (l : SMap α) (k : Nat) (v : α) : get? (set l k v) k = some v := by
  induction l with
  | nil => simp [set, get?]
  | cons p r ih =>
    obtain ⟨j, w⟩ := p
    by_cases h : k < j
    · simp [set, h, get?]
    · by_cases e : k = j
      · simp [set, e, get?]
      · simp [set, h, e, get?, ih, Ne.symm e]

theorem get?_set_other (l : SMap α) {k x : Nat} (v : α) (n : x ≠ k) : get? (set l k v) x = get? l x := by
  induction l with
  | nil => simp [set, get?, Ne.symm n]
  | cons p r ih =>
    obtain ⟨j, w⟩ := p
    by_cases h : k < j
    · simp [set, h, get?, Ne.symm n]
    · by_cases e : k = j
      · subst e; simp [set, get?, Ne.symm n]
      · by_cases y : j = x
        · subst y; simp [set, h, e, get?]
        · simp [set, h, e, get?, y, ih]

/-- What a store holds at a key after one write. -/
theorem get?_set (l : SMap α) (k x : Nat) (v : α) : get? (set l k v) x = if x = k then some v else get? l x := by
  by_cases h : x = k
  · subst h; simp [get?_set_same]
  · simp [h, get?_set_other l v h]

theorem get?_erase_other (l : SMap α) {k x : Nat} (n : x ≠ k) : get? (erase l k) x = get? l x := by
  induction l with
  | nil => rfl
  | cons p r ih =>
    obtain ⟨j, w⟩ := p
    by_cases h : j = k
    · subst h; simp [erase, get?, Ne.symm n]
    · by_cases y : j = x
      · subst y; simp [erase, h, get?]
      · simp [erase, h, get?, y, ih]

/-! ### Strictly rising keys -/

/-- Every key of the store is above k. -/
def above (k : Nat) (l : SMap α) : Prop := ∀ p ∈ l, k < p.1

theorem rising_cons (p : Nat × α) (r : SMap α) : rising (p :: r) = true ↔ above p.1 r ∧ rising r = true := by
  induction r generalizing p with
  | nil => simp [rising, above]
  | cons q r ih =>
    simp only [rising, Bool.and_eq_true, decide_eq_true_eq, ih q]
    constructor
    · rintro ⟨h, a, b⟩
      refine ⟨?_, a, b⟩
      intro x hx
      rcases List.mem_cons.mp hx with rfl | hx
      · exact h
      · exact Nat.lt_trans h (a x hx)
    · rintro ⟨h, a, b⟩
      exact ⟨h q (by simp), a, b⟩

theorem get?_above {k x : Nat} {l : SMap α} (h : above k l) (n : x ≤ k) : get? l x = none := by
  induction l with
  | nil => rfl
  | cons p r ih =>
    have hp : k < p.1 := h p (by simp)
    have e : p.1 ≠ x := by omega
    simp only [get?, e, if_false]
    exact ih fun q hq => h q (by simp [hq])

theorem above_set {k : Nat} {l : SMap α} {x : Nat} {v : α} (h : above k l) (n : k < x) : above k (set l x v) := by
  induction l with
  | nil => intro p hp; simp [set] at hp; subst hp; exact n
  | cons q r ih =>
    obtain ⟨j, w⟩ := q
    have hr : above k r := fun p hp => h p (by simp [hp])
    have hj : k < j := h (j, w) (by simp)
    by_cases a : x < j
    · intro p hp
      simp [set, a] at hp
      rcases hp with rfl | rfl | hp
      · exact n
      · exact hj
      · exact hr p hp
    · by_cases e : x = j
      · subst e
        intro p hp
        simp [set] at hp
        rcases hp with rfl | hp
        · exact n
        · exact hr p hp
      · intro p hp
        simp [set, a, e] at hp
        rcases hp with rfl | hp
        · exact hj
        · exact ih hr p hp

/-- A write keeps the keys strictly rising. -/
theorem rising_set {l : SMap α} (h : rising l = true) (k : Nat) (v : α) : rising (set l k v) = true := by
  induction l with
  | nil => rfl
  | cons p r ih =>
    obtain ⟨j, w⟩ := p
    obtain ⟨a, b⟩ := (rising_cons (j, w) r).mp h
    by_cases c : k < j
    · simp [set, c, rising, h]
    · by_cases e : k = j
      · subst e
        simp only [set, Nat.lt_irrefl, if_false, if_true]
        exact (rising_cons _ _).mpr ⟨a, b⟩
      · simp only [set, c, e, if_false]
        exact (rising_cons _ _).mpr ⟨above_set a (by show j < k; omega), ih b⟩

theorem above_erase {k : Nat} {l : SMap α} {x : Nat} (h : above k l) : above k (erase l x) := by
  induction l with
  | nil => exact h
  | cons q r ih =>
    obtain ⟨j, w⟩ := q
    have hr : above k r := fun p hp => h p (by simp [hp])
    by_cases e : j = x
    · simpa [erase, e] using hr
    · intro p hp
      simp [erase, e] at hp
      rcases hp with rfl | hp
      · exact h (j, w) (by simp)
      · exact ih hr p hp

/-- Taking a key out keeps the keys strictly rising. -/
theorem rising_erase {l : SMap α} (h : rising l = true) (k : Nat) : rising (erase l k) = true := by
  induction l with
  | nil => rfl
  | cons p r ih =>
    obtain ⟨j, w⟩ := p
    obtain ⟨a, b⟩ := (rising_cons (j, w) r).mp h
    by_cases e : j = k
    · simpa [erase, e] using b
    · simp only [erase, e, if_false]
      exact (rising_cons _ _).mpr ⟨above_erase a, ih b⟩

/-- After a key is taken out, nothing is listed at it. -/
theorem get?_erase_same {l : SMap α} (h : rising l = true) (k : Nat) : get? (erase l k) k = none := by
  induction l with
  | nil => rfl
  | cons p r ih =>
    obtain ⟨j, w⟩ := p
    obtain ⟨a, b⟩ := (rising_cons (j, w) r).mp h
    by_cases e : j = k
    · subst e; simpa [erase] using get?_above a (Nat.le_refl _)
    · simp [erase, e, get?, ih b]

/-! ### The canonical form -/

theorem rising_rebuild (l : SMap α) : rising (rebuild l) = true := by
  induction l with
  | nil => rfl
  | cons p r ih => exact rising_set ih p.1 p.2

theorem get?_rebuild (l : SMap α) (x : Nat) : get? (rebuild l) x = get? l x := by
  induction l with
  | nil => rfl
  | cons p r ih =>
    show get? (set (rebuild r) p.1 p.2) x = get? (p :: r) x
    rw [get?_set, ih]
    by_cases h : x = p.1
    · subst h; simp [get?]
    · simp [get?, h, Ne.symm h]

/-- The canonical form has strictly rising keys. -/
theorem rising_tidy (l : SMap α) : rising (tidy l) = true := by
  unfold tidy
  split
  · assumption
  · exact rising_rebuild l

/-- A store in canonical form is left as it is. -/
theorem tidy_eq {l : SMap α} (h : rising l = true) : tidy l = l := by simp [tidy, h]

/-- The canonical form reads the same. -/
theorem get?_tidy (l : SMap α) (x : Nat) : get? (tidy l) x = get? l x := by
  unfold tidy
  split
  · rfl
  · exact get?_rebuild l x

@[simp] theorem getD_tidy (l : SMap α) (x : Nat) (d : α) : getD (tidy l) x d = getD l x d := by simp [getD, get?_tidy]

/-! ### Sparse memories -/

theorem above_filter {k : Nat} {l : SMap α} {p : Nat × α → Bool} (h : above k l) : above k (l.filter p) :=
  fun x hx => h x (List.mem_filter.mp hx).1

theorem rising_filter {l : SMap α} (h : rising l = true) (p : Nat × α → Bool) : rising (l.filter p) = true := by
  induction l with
  | nil => rfl
  | cons q r ih =>
    obtain ⟨a, b⟩ := (rising_cons q r).mp h
    by_cases e : p q = true
    · rw [List.filter_cons_of_pos e]
      exact (rising_cons _ _).mpr ⟨above_filter a, ih b⟩
    · rw [List.filter_cons_of_neg e]
      exact ih b

theorem getD_filter {l : SMap Byte} (h : rising l = true) (x : Nat) :
    getD (l.filter fun p => p.2 != 0) x 0 = getD l x 0 := by
  induction l with
  | nil => rfl
  | cons q r ih =>
    obtain ⟨j, w⟩ := q
    obtain ⟨a, b⟩ := (rising_cons (j, w) r).mp h
    have i := ih b
    by_cases z : w = 0
    · subst z
      have e : List.filter (fun p : Nat × Byte => p.2 != 0) ((j, 0) :: r) = r.filter fun p => p.2 != 0 := by simp
      rw [e, i]
      by_cases y : j = x
      · subst y; simp [getD, get?, get?_above a (Nat.le_refl _)]
      · simp [getD, get?, y]
    · have e : List.filter (fun p : Nat × Byte => p.2 != 0) ((j, w) :: r) = (j, w) :: r.filter fun p => p.2 != 0 :=
        List.filter_cons_of_pos (by simpa using z)
      rw [e]
      by_cases y : j = x
      · simp [getD, get?, y]
      · simpa [getD, get?, y] using i

/-- The canonical form of a memory is canonical. -/
theorem memWf_tidyMem (l : SMap Byte) : memWf (tidyMem l) = true := by
  unfold tidyMem
  split
  · assumption
  · have h := rising_filter (rising_rebuild l) fun p => p.2 != 0
    simp only [memWf, h, Bool.true_and, List.all_eq_true]
    intro p hp
    exact (List.mem_filter.mp hp).2

/-- A memory in canonical form is left as it is. -/
theorem tidyMem_eq {l : SMap Byte} (h : memWf l = true) : tidyMem l = l := by simp [tidyMem, h]

/-- Every byte of a memory reads the same in its canonical form. -/
@[simp] theorem getD_tidyMem (l : SMap Byte) (x : Nat) : getD (tidyMem l) x 0 = getD l x 0 := by
  unfold tidyMem
  split
  · rfl
  · rw [getD_filter (rising_rebuild l)]
    simp [getD, get?_rebuild]

theorem mem_set {l : SMap α} {k : Nat} {v : α} {p : Nat × α} (h : p ∈ set l k v) : p = (k, v) ∨ p ∈ l := by
  induction l with
  | nil => simpa [set] using h
  | cons q r ih =>
    obtain ⟨j, w⟩ := q
    by_cases a : k < j
    · simp [set, a] at h; rcases h with h | h | h <;> simp [h]
    · by_cases e : k = j
      · subst e; simp [set] at h; rcases h with h | h <;> simp [h]
      · simp [set, a, e] at h
        rcases h with h | h
        · simp [h]
        · rcases ih h with h | h <;> simp [h]

theorem mem_erase {l : SMap α} {k : Nat} {p : Nat × α} (h : p ∈ erase l k) : p ∈ l := by
  induction l with
  | nil => exact h
  | cons q r ih =>
    obtain ⟨j, w⟩ := q
    by_cases e : j = k
    · simp [erase, e] at h; simp [h]
    · simp [erase, e] at h
      rcases h with h | h
      · simp [h]
      · simp [ih h]

/-- Writing bytes keeps a memory canonical: a byte that becomes 0 leaves the list. -/
theorem memWf_memPut {l : SMap Byte} (h : memWf l = true) (off : Nat) (b : Bytes) : memWf (Machine.memPut l off b) = true := by
  induction b generalizing l off with
  | nil => exact h
  | cons x r ih =>
    apply ih
    obtain ⟨a, z⟩ := Bool.and_eq_true_iff.mp h
    rw [List.all_eq_true] at z
    by_cases e : x = 0
    · rw [if_pos e]
      refine Bool.and_eq_true_iff.mpr ⟨rising_erase a off, ?_⟩
      rw [List.all_eq_true]
      exact fun p hp => z p (mem_erase hp)
    · rw [if_neg e]
      refine Bool.and_eq_true_iff.mpr ⟨rising_set a off x, ?_⟩
      rw [List.all_eq_true]
      intro p hp
      rcases mem_set hp with rfl | hp
      · simpa using e
      · exact z p hp

/-- The canonical form of a family of memories is canonical. -/
theorem memsWf_tidyMems (l : SMap (SMap Byte)) : memsWf (tidyMems l) = true := by
  have keys : ∀ q : SMap (SMap Byte), rising (q.map fun x => (x.1, tidyMem x.2)) = rising q := by
    intro q
    induction q with
    | nil => rfl
    | cons p r ih =>
      cases r with
      | nil => rfl
      | cons p' r' => simp only [List.map_cons, rising] at ih ⊢; rw [ih]
  unfold memsWf tidyMems
  rw [keys, rising_tidy, Bool.true_and, List.all_eq_true]
  intro p hp
  obtain ⟨q, _, rfl⟩ := List.mem_map.mp hp
  exact memWf_tidyMem q.2

/-- A family of memories in canonical form is left as it is. -/
theorem tidyMems_eq {l : SMap (SMap Byte)} (h : memsWf l = true) : tidyMems l = l := by
  obtain ⟨a, z⟩ := Bool.and_eq_true_iff.mp h
  rw [List.all_eq_true] at z
  unfold tidyMems
  rw [tidy_eq a]
  conv => rhs; rw [← List.map_id l]
  apply List.map_congr_left
  intro p hp
  simp [tidyMem_eq (z p hp)]

end Sys2Proof.SMap
end

