-- ==== Sys2Proof/Laws/State.lean ====
section
/-!
SUPPORT. What the shared updates of the module leave alone, field by field, and what they write.
-/

namespace Sys2Proof.Machine

/-! ### A register field is written -/

@[simp] theorem Module.wr_clk (m : Module) (f : Fld) (v : Nat) : (m.wr f v).clk = m.clk := rfl
@[simp] theorem Module.wr_mono (m : Module) (f : Fld) (v : Nat) : (m.wr f v).mono = m.mono := rfl
@[simp] theorem Module.wr_mode (m : Module) (f : Fld) (v : Nat) : (m.wr f v).mode = m.mode := rfl
@[simp] theorem Module.wr_testFrom (m : Module) (f : Fld) (v : Nat) : (m.wr f v).testFrom = m.testFrom := rfl
@[simp] theorem Module.wr_rdata (m : Module) (f : Fld) (v : Nat) : (m.wr f v).rdata = m.rdata := rfl
@[simp] theorem Module.wr_freeIdx (m : Module) (f : Fld) (v : Nat) : (m.wr f v).freeIdx = m.freeIdx := rfl
@[simp] theorem Module.wr_out (m : Module) (f : Fld) (v : Nat) : (m.wr f v).out = m.out := rfl
@[simp] theorem Module.wr_cul (m : Module) (f : Fld) (v : Nat) : (m.wr f v).cul = m.cul := rfl
@[simp] theorem Module.wr_engines (m : Module) (f : Fld) (v : Nat) : (m.wr f v).engines = m.engines := rfl
@[simp] theorem Module.wr_ladle (m : Module) (f : Fld) (v : Nat) : (m.wr f v).ladle = m.ladle := rfl
@[simp] theorem Module.wr_press (m : Module) (f : Fld) (v : Nat) : (m.wr f v).press = m.press := rfl
@[simp] theorem Module.wr_evr (m : Module) (f : Fld) (v : Nat) : (m.wr f v).evr = m.evr := rfl
@[simp] theorem Module.wr_err (m : Module) (f : Fld) (v : Nat) : (m.wr f v).err = m.err := rfl
@[simp] theorem Module.wr_sw (m : Module) (f : Fld) (v : Nat) : (m.wr f v).sw = m.sw := rfl
@[simp] theorem Module.wr_tim (m : Module) (f : Fld) (v : Nat) : (m.wr f v).tim = m.tim := rfl
@[simp] theorem Module.wr_vat (m : Module) (f : Fld) (v : Nat) : (m.wr f v).vat = m.vat := rfl
@[simp] theorem Module.wr_acq (m : Module) (f : Fld) (v : Nat) : (m.wr f v).acq = m.acq := rfl
@[simp] theorem Module.wr_lst (m : Module) (f : Fld) (v : Nat) : (m.wr f v).lst = m.lst := rfl
@[simp] theorem Module.wr_red (m : Module) (f : Fld) (v : Nat) : (m.wr f v).red = m.red := rfl
@[simp] theorem Module.wr_host (m : Module) (f : Fld) (v : Nat) : (m.wr f v).host = m.host := rfl
@[simp] theorem Module.wr_keys (m : Module) (f : Fld) (v : Nat) : (m.wr f v).keys = m.keys := rfl
@[simp] theorem Module.wr_persist (m : Module) (f : Fld) (v : Nat) : (m.wr f v).persist = m.persist := rfl
@[simp] theorem Module.wr_sys (m : Module) (f : Fld) (v : Nat) : (m.wr f v).sys = m.sys := rfl
@[simp] theorem Module.wr_latch (m : Module) (f : Fld) (v : Nat) : (m.wr f v).latch = m.latch := rfl
@[simp] theorem Module.wr_wlatch (m : Module) (f : Fld) (v : Nat) : (m.wr f v).wlatch = m.wlatch := rfl
@[simp] theorem Module.wr_pubs (m : Module) (f : Fld) (v : Nat) : (m.wr f v).pubs = m.pubs := rfl
@[simp] theorem Module.wr_gsubs (m : Module) (f : Fld) (v : Nat) : (m.wr f v).gsubs = m.gsubs := rfl
@[simp] theorem Module.wr_idata (m : Module) (f : Fld) (v : Nat) : (m.wr f v).idata = m.idata := rfl
@[simp] theorem Module.wr_outImg (m : Module) (f : Fld) (v : Nat) : (m.wr f v).outImg = m.outImg := rfl
@[simp] theorem Module.wr_vars (m : Module) (f : Fld) (v : Nat) : (m.wr f v).vars = m.vars := rfl
@[simp] theorem Module.wr_instCycles (m : Module) (f : Fld) (v : Nat) : (m.wr f v).instCycles = m.instCycles := rfl

/-! ### A counter counts -/

@[simp] theorem Module.bumpBy_clk (m : Module) (f : Fld) (n : Nat) : (m.bumpBy f n).clk = m.clk := rfl
@[simp] theorem Module.bumpBy_mono (m : Module) (f : Fld) (n : Nat) : (m.bumpBy f n).mono = m.mono := rfl
@[simp] theorem Module.bumpBy_mode (m : Module) (f : Fld) (n : Nat) : (m.bumpBy f n).mode = m.mode := rfl
@[simp] theorem Module.bumpBy_testFrom (m : Module) (f : Fld) (n : Nat) : (m.bumpBy f n).testFrom = m.testFrom := rfl
@[simp] theorem Module.bumpBy_rdata (m : Module) (f : Fld) (n : Nat) : (m.bumpBy f n).rdata = m.rdata := rfl
@[simp] theorem Module.bumpBy_freeIdx (m : Module) (f : Fld) (n : Nat) : (m.bumpBy f n).freeIdx = m.freeIdx := rfl
@[simp] theorem Module.bumpBy_out (m : Module) (f : Fld) (n : Nat) : (m.bumpBy f n).out = m.out := rfl
@[simp] theorem Module.bumpBy_cul (m : Module) (f : Fld) (n : Nat) : (m.bumpBy f n).cul = m.cul := rfl
@[simp] theorem Module.bumpBy_engines (m : Module) (f : Fld) (n : Nat) : (m.bumpBy f n).engines = m.engines := rfl
@[simp] theorem Module.bumpBy_ladle (m : Module) (f : Fld) (n : Nat) : (m.bumpBy f n).ladle = m.ladle := rfl
@[simp] theorem Module.bumpBy_press (m : Module) (f : Fld) (n : Nat) : (m.bumpBy f n).press = m.press := rfl
@[simp] theorem Module.bumpBy_evr (m : Module) (f : Fld) (n : Nat) : (m.bumpBy f n).evr = m.evr := rfl
@[simp] theorem Module.bumpBy_err (m : Module) (f : Fld) (n : Nat) : (m.bumpBy f n).err = m.err := rfl
@[simp] theorem Module.bumpBy_sw (m : Module) (f : Fld) (n : Nat) : (m.bumpBy f n).sw = m.sw := rfl
@[simp] theorem Module.bumpBy_tim (m : Module) (f : Fld) (n : Nat) : (m.bumpBy f n).tim = m.tim := rfl
@[simp] theorem Module.bumpBy_vat (m : Module) (f : Fld) (n : Nat) : (m.bumpBy f n).vat = m.vat := rfl
@[simp] theorem Module.bumpBy_acq (m : Module) (f : Fld) (n : Nat) : (m.bumpBy f n).acq = m.acq := rfl
@[simp] theorem Module.bumpBy_lst (m : Module) (f : Fld) (n : Nat) : (m.bumpBy f n).lst = m.lst := rfl
@[simp] theorem Module.bumpBy_red (m : Module) (f : Fld) (n : Nat) : (m.bumpBy f n).red = m.red := rfl
@[simp] theorem Module.bumpBy_host (m : Module) (f : Fld) (n : Nat) : (m.bumpBy f n).host = m.host := rfl
@[simp] theorem Module.bumpBy_keys (m : Module) (f : Fld) (n : Nat) : (m.bumpBy f n).keys = m.keys := rfl
@[simp] theorem Module.bumpBy_persist (m : Module) (f : Fld) (n : Nat) : (m.bumpBy f n).persist = m.persist := rfl
@[simp] theorem Module.bumpBy_sys (m : Module) (f : Fld) (n : Nat) : (m.bumpBy f n).sys = m.sys := rfl
@[simp] theorem Module.bumpBy_latch (m : Module) (f : Fld) (n : Nat) : (m.bumpBy f n).latch = m.latch := rfl
@[simp] theorem Module.bumpBy_wlatch (m : Module) (f : Fld) (n : Nat) : (m.bumpBy f n).wlatch = m.wlatch := rfl
@[simp] theorem Module.bumpBy_pubs (m : Module) (f : Fld) (n : Nat) : (m.bumpBy f n).pubs = m.pubs := rfl
@[simp] theorem Module.bumpBy_gsubs (m : Module) (f : Fld) (n : Nat) : (m.bumpBy f n).gsubs = m.gsubs := rfl
@[simp] theorem Module.bumpBy_idata (m : Module) (f : Fld) (n : Nat) : (m.bumpBy f n).idata = m.idata := rfl
@[simp] theorem Module.bumpBy_outImg (m : Module) (f : Fld) (n : Nat) : (m.bumpBy f n).outImg = m.outImg := rfl
@[simp] theorem Module.bumpBy_vars (m : Module) (f : Fld) (n : Nat) : (m.bumpBy f n).vars = m.vars := rfl
@[simp] theorem Module.bumpBy_instCycles (m : Module) (f : Fld) (n : Nat) : (m.bumpBy f n).instCycles = m.instCycles := rfl

@[simp] theorem Module.bump_eq (m : Module) (f : Fld) : m.bump f = m.bumpBy f 1 := rfl
@[simp] theorem Module.flag_eq (m : Module) (f : Fld) : m.flag f = m.wr f 1 := rfl

/-! ### Something leaves the module -/

@[simp] theorem Module.emit_clk (m : Module) (e : Emission) : (m.emit e).clk = m.clk := rfl
@[simp] theorem Module.emit_mono (m : Module) (e : Emission) : (m.emit e).mono = m.mono := rfl
@[simp] theorem Module.emit_mode (m : Module) (e : Emission) : (m.emit e).mode = m.mode := rfl
@[simp] theorem Module.emit_testFrom (m : Module) (e : Emission) : (m.emit e).testFrom = m.testFrom := rfl
@[simp] theorem Module.emit_regs (m : Module) (e : Emission) : (m.emit e).regs = m.regs := rfl
@[simp] theorem Module.emit_rdata (m : Module) (e : Emission) : (m.emit e).rdata = m.rdata := rfl
@[simp] theorem Module.emit_freeIdx (m : Module) (e : Emission) : (m.emit e).freeIdx = m.freeIdx := rfl
@[simp] theorem Module.emit_cul (m : Module) (e : Emission) : (m.emit e).cul = m.cul := rfl
@[simp] theorem Module.emit_engines (m : Module) (e : Emission) : (m.emit e).engines = m.engines := rfl
@[simp] theorem Module.emit_ladle (m : Module) (e : Emission) : (m.emit e).ladle = m.ladle := rfl
@[simp] theorem Module.emit_press (m : Module) (e : Emission) : (m.emit e).press = m.press := rfl
@[simp] theorem Module.emit_evr (m : Module) (e : Emission) : (m.emit e).evr = m.evr := rfl
@[simp] theorem Module.emit_err (m : Module) (e : Emission) : (m.emit e).err = m.err := rfl
@[simp] theorem Module.emit_sw (m : Module) (e : Emission) : (m.emit e).sw = m.sw := rfl
@[simp] theorem Module.emit_tim (m : Module) (e : Emission) : (m.emit e).tim = m.tim := rfl
@[simp] theorem Module.emit_vat (m : Module) (e : Emission) : (m.emit e).vat = m.vat := rfl
@[simp] theorem Module.emit_acq (m : Module) (e : Emission) : (m.emit e).acq = m.acq := rfl
@[simp] theorem Module.emit_lst (m : Module) (e : Emission) : (m.emit e).lst = m.lst := rfl
@[simp] theorem Module.emit_red (m : Module) (e : Emission) : (m.emit e).red = m.red := rfl
@[simp] theorem Module.emit_host (m : Module) (e : Emission) : (m.emit e).host = m.host := rfl
@[simp] theorem Module.emit_keys (m : Module) (e : Emission) : (m.emit e).keys = m.keys := rfl
@[simp] theorem Module.emit_persist (m : Module) (e : Emission) : (m.emit e).persist = m.persist := rfl
@[simp] theorem Module.emit_sys (m : Module) (e : Emission) : (m.emit e).sys = m.sys := rfl
@[simp] theorem Module.emit_latch (m : Module) (e : Emission) : (m.emit e).latch = m.latch := rfl
@[simp] theorem Module.emit_wlatch (m : Module) (e : Emission) : (m.emit e).wlatch = m.wlatch := rfl
@[simp] theorem Module.emit_pubs (m : Module) (e : Emission) : (m.emit e).pubs = m.pubs := rfl
@[simp] theorem Module.emit_gsubs (m : Module) (e : Emission) : (m.emit e).gsubs = m.gsubs := rfl
@[simp] theorem Module.emit_idata (m : Module) (e : Emission) : (m.emit e).idata = m.idata := rfl
@[simp] theorem Module.emit_outImg (m : Module) (e : Emission) : (m.emit e).outImg = m.outImg := rfl
@[simp] theorem Module.emit_vars (m : Module) (e : Emission) : (m.emit e).vars = m.vars := rfl
@[simp] theorem Module.emit_instCycles (m : Module) (e : Emission) : (m.emit e).instCycles = m.instCycles := rfl

@[simp] theorem Module.emit_out (m : Module) (e : Emission) : (m.emit e).out = m.out ++ [e] := rfl

/-! ### An engine, a context or a task changes -/

@[simp] theorem Module.setEngine_clk (m : Module) (e : Nat) (x : Engine) : (m.setEngine e x).clk = m.clk := rfl
@[simp] theorem Module.setEngine_mono (m : Module) (e : Nat) (x : Engine) : (m.setEngine e x).mono = m.mono := rfl
@[simp] theorem Module.setEngine_mode (m : Module) (e : Nat) (x : Engine) : (m.setEngine e x).mode = m.mode := rfl
@[simp] theorem Module.setEngine_testFrom (m : Module) (e : Nat) (x : Engine) : (m.setEngine e x).testFrom = m.testFrom := rfl
@[simp] theorem Module.setEngine_regs (m : Module) (e : Nat) (x : Engine) : (m.setEngine e x).regs = m.regs := rfl
@[simp] theorem Module.setEngine_rdata (m : Module) (e : Nat) (x : Engine) : (m.setEngine e x).rdata = m.rdata := rfl
@[simp] theorem Module.setEngine_freeIdx (m : Module) (e : Nat) (x : Engine) : (m.setEngine e x).freeIdx = m.freeIdx := rfl
@[simp] theorem Module.setEngine_out (m : Module) (e : Nat) (x : Engine) : (m.setEngine e x).out = m.out := rfl
@[simp] theorem Module.setEngine_cul (m : Module) (e : Nat) (x : Engine) : (m.setEngine e x).cul = m.cul := rfl
@[simp] theorem Module.setEngine_ladle (m : Module) (e : Nat) (x : Engine) : (m.setEngine e x).ladle = m.ladle := rfl
@[simp] theorem Module.setEngine_press (m : Module) (e : Nat) (x : Engine) : (m.setEngine e x).press = m.press := rfl
@[simp] theorem Module.setEngine_evr (m : Module) (e : Nat) (x : Engine) : (m.setEngine e x).evr = m.evr := rfl
@[simp] theorem Module.setEngine_err (m : Module) (e : Nat) (x : Engine) : (m.setEngine e x).err = m.err := rfl
@[simp] theorem Module.setEngine_sw (m : Module) (e : Nat) (x : Engine) : (m.setEngine e x).sw = m.sw := rfl
@[simp] theorem Module.setEngine_tim (m : Module) (e : Nat) (x : Engine) : (m.setEngine e x).tim = m.tim := rfl
@[simp] theorem Module.setEngine_vat (m : Module) (e : Nat) (x : Engine) : (m.setEngine e x).vat = m.vat := rfl
@[simp] theorem Module.setEngine_acq (m : Module) (e : Nat) (x : Engine) : (m.setEngine e x).acq = m.acq := rfl
@[simp] theorem Module.setEngine_lst (m : Module) (e : Nat) (x : Engine) : (m.setEngine e x).lst = m.lst := rfl
@[simp] theorem Module.setEngine_red (m : Module) (e : Nat) (x : Engine) : (m.setEngine e x).red = m.red := rfl
@[simp] theorem Module.setEngine_host (m : Module) (e : Nat) (x : Engine) : (m.setEngine e x).host = m.host := rfl
@[simp] theorem Module.setEngine_keys (m : Module) (e : Nat) (x : Engine) : (m.setEngine e x).keys = m.keys := rfl
@[simp] theorem Module.setEngine_persist (m : Module) (e : Nat) (x : Engine) : (m.setEngine e x).persist = m.persist := rfl
@[simp] theorem Module.setEngine_sys (m : Module) (e : Nat) (x : Engine) : (m.setEngine e x).sys = m.sys := rfl
@[simp] theorem Module.setEngine_latch (m : Module) (e : Nat) (x : Engine) : (m.setEngine e x).latch = m.latch := rfl
@[simp] theorem Module.setEngine_wlatch (m : Module) (e : Nat) (x : Engine) : (m.setEngine e x).wlatch = m.wlatch := rfl
@[simp] theorem Module.setEngine_pubs (m : Module) (e : Nat) (x : Engine) : (m.setEngine e x).pubs = m.pubs := rfl
@[simp] theorem Module.setEngine_gsubs (m : Module) (e : Nat) (x : Engine) : (m.setEngine e x).gsubs = m.gsubs := rfl
@[simp] theorem Module.setEngine_idata (m : Module) (e : Nat) (x : Engine) : (m.setEngine e x).idata = m.idata := rfl
@[simp] theorem Module.setEngine_outImg (m : Module) (e : Nat) (x : Engine) : (m.setEngine e x).outImg = m.outImg := rfl
@[simp] theorem Module.setEngine_vars (m : Module) (e : Nat) (x : Engine) : (m.setEngine e x).vars = m.vars := rfl
@[simp] theorem Module.setEngine_instCycles (m : Module) (e : Nat) (x : Engine) : (m.setEngine e x).instCycles = m.instCycles := rfl

/-! ### A context is written -/

@[simp] theorem Module.setCtx_clk (m : Module) (e c : Nat) (x : Ctx) : (m.setCtx e c x).clk = m.clk := rfl
@[simp] theorem Module.setCtx_mono (m : Module) (e c : Nat) (x : Ctx) : (m.setCtx e c x).mono = m.mono := rfl
@[simp] theorem Module.setCtx_mode (m : Module) (e c : Nat) (x : Ctx) : (m.setCtx e c x).mode = m.mode := rfl
@[simp] theorem Module.setCtx_testFrom (m : Module) (e c : Nat) (x : Ctx) : (m.setCtx e c x).testFrom = m.testFrom := rfl
@[simp] theorem Module.setCtx_regs (m : Module) (e c : Nat) (x : Ctx) : (m.setCtx e c x).regs = m.regs := rfl
@[simp] theorem Module.setCtx_rdata (m : Module) (e c : Nat) (x : Ctx) : (m.setCtx e c x).rdata = m.rdata := rfl
@[simp] theorem Module.setCtx_freeIdx (m : Module) (e c : Nat) (x : Ctx) : (m.setCtx e c x).freeIdx = m.freeIdx := rfl
@[simp] theorem Module.setCtx_out (m : Module) (e c : Nat) (x : Ctx) : (m.setCtx e c x).out = m.out := rfl
@[simp] theorem Module.setCtx_cul (m : Module) (e c : Nat) (x : Ctx) : (m.setCtx e c x).cul = m.cul := rfl
@[simp] theorem Module.setCtx_ladle (m : Module) (e c : Nat) (x : Ctx) : (m.setCtx e c x).ladle = m.ladle := rfl
@[simp] theorem Module.setCtx_press (m : Module) (e c : Nat) (x : Ctx) : (m.setCtx e c x).press = m.press := rfl
@[simp] theorem Module.setCtx_evr (m : Module) (e c : Nat) (x : Ctx) : (m.setCtx e c x).evr = m.evr := rfl
@[simp] theorem Module.setCtx_err (m : Module) (e c : Nat) (x : Ctx) : (m.setCtx e c x).err = m.err := rfl
@[simp] theorem Module.setCtx_sw (m : Module) (e c : Nat) (x : Ctx) : (m.setCtx e c x).sw = m.sw := rfl
@[simp] theorem Module.setCtx_tim (m : Module) (e c : Nat) (x : Ctx) : (m.setCtx e c x).tim = m.tim := rfl
@[simp] theorem Module.setCtx_vat (m : Module) (e c : Nat) (x : Ctx) : (m.setCtx e c x).vat = m.vat := rfl
@[simp] theorem Module.setCtx_acq (m : Module) (e c : Nat) (x : Ctx) : (m.setCtx e c x).acq = m.acq := rfl
@[simp] theorem Module.setCtx_lst (m : Module) (e c : Nat) (x : Ctx) : (m.setCtx e c x).lst = m.lst := rfl
@[simp] theorem Module.setCtx_red (m : Module) (e c : Nat) (x : Ctx) : (m.setCtx e c x).red = m.red := rfl
@[simp] theorem Module.setCtx_host (m : Module) (e c : Nat) (x : Ctx) : (m.setCtx e c x).host = m.host := rfl
@[simp] theorem Module.setCtx_keys (m : Module) (e c : Nat) (x : Ctx) : (m.setCtx e c x).keys = m.keys := rfl
@[simp] theorem Module.setCtx_persist (m : Module) (e c : Nat) (x : Ctx) : (m.setCtx e c x).persist = m.persist := rfl
@[simp] theorem Module.setCtx_sys (m : Module) (e c : Nat) (x : Ctx) : (m.setCtx e c x).sys = m.sys := rfl
@[simp] theorem Module.setCtx_latch (m : Module) (e c : Nat) (x : Ctx) : (m.setCtx e c x).latch = m.latch := rfl
@[simp] theorem Module.setCtx_wlatch (m : Module) (e c : Nat) (x : Ctx) : (m.setCtx e c x).wlatch = m.wlatch := rfl
@[simp] theorem Module.setCtx_pubs (m : Module) (e c : Nat) (x : Ctx) : (m.setCtx e c x).pubs = m.pubs := rfl
@[simp] theorem Module.setCtx_gsubs (m : Module) (e c : Nat) (x : Ctx) : (m.setCtx e c x).gsubs = m.gsubs := rfl
@[simp] theorem Module.setCtx_idata (m : Module) (e c : Nat) (x : Ctx) : (m.setCtx e c x).idata = m.idata := rfl
@[simp] theorem Module.setCtx_outImg (m : Module) (e c : Nat) (x : Ctx) : (m.setCtx e c x).outImg = m.outImg := rfl
@[simp] theorem Module.setCtx_vars (m : Module) (e c : Nat) (x : Ctx) : (m.setCtx e c x).vars = m.vars := rfl
@[simp] theorem Module.setCtx_instCycles (m : Module) (e c : Nat) (x : Ctx) : (m.setCtx e c x).instCycles = m.instCycles := rfl

/-! ### A task is written -/

@[simp] theorem Module.setTask_clk (m : Module) (t : Nat) (x : TaskSt) : (m.setTask t x).clk = m.clk := rfl
@[simp] theorem Module.setTask_mono (m : Module) (t : Nat) (x : TaskSt) : (m.setTask t x).mono = m.mono := rfl
@[simp] theorem Module.setTask_mode (m : Module) (t : Nat) (x : TaskSt) : (m.setTask t x).mode = m.mode := rfl
@[simp] theorem Module.setTask_testFrom (m : Module) (t : Nat) (x : TaskSt) : (m.setTask t x).testFrom = m.testFrom := rfl
@[simp] theorem Module.setTask_regs (m : Module) (t : Nat) (x : TaskSt) : (m.setTask t x).regs = m.regs := rfl
@[simp] theorem Module.setTask_rdata (m : Module) (t : Nat) (x : TaskSt) : (m.setTask t x).rdata = m.rdata := rfl
@[simp] theorem Module.setTask_freeIdx (m : Module) (t : Nat) (x : TaskSt) : (m.setTask t x).freeIdx = m.freeIdx := rfl
@[simp] theorem Module.setTask_out (m : Module) (t : Nat) (x : TaskSt) : (m.setTask t x).out = m.out := rfl
@[simp] theorem Module.setTask_cul (m : Module) (t : Nat) (x : TaskSt) : (m.setTask t x).cul = m.cul := rfl
@[simp] theorem Module.setTask_engines (m : Module) (t : Nat) (x : TaskSt) : (m.setTask t x).engines = m.engines := rfl
@[simp] theorem Module.setTask_press (m : Module) (t : Nat) (x : TaskSt) : (m.setTask t x).press = m.press := rfl
@[simp] theorem Module.setTask_evr (m : Module) (t : Nat) (x : TaskSt) : (m.setTask t x).evr = m.evr := rfl
@[simp] theorem Module.setTask_err (m : Module) (t : Nat) (x : TaskSt) : (m.setTask t x).err = m.err := rfl
@[simp] theorem Module.setTask_sw (m : Module) (t : Nat) (x : TaskSt) : (m.setTask t x).sw = m.sw := rfl
@[simp] theorem Module.setTask_tim (m : Module) (t : Nat) (x : TaskSt) : (m.setTask t x).tim = m.tim := rfl
@[simp] theorem Module.setTask_vat (m : Module) (t : Nat) (x : TaskSt) : (m.setTask t x).vat = m.vat := rfl
@[simp] theorem Module.setTask_acq (m : Module) (t : Nat) (x : TaskSt) : (m.setTask t x).acq = m.acq := rfl
@[simp] theorem Module.setTask_lst (m : Module) (t : Nat) (x : TaskSt) : (m.setTask t x).lst = m.lst := rfl
@[simp] theorem Module.setTask_red (m : Module) (t : Nat) (x : TaskSt) : (m.setTask t x).red = m.red := rfl
@[simp] theorem Module.setTask_host (m : Module) (t : Nat) (x : TaskSt) : (m.setTask t x).host = m.host := rfl
@[simp] theorem Module.setTask_keys (m : Module) (t : Nat) (x : TaskSt) : (m.setTask t x).keys = m.keys := rfl
@[simp] theorem Module.setTask_persist (m : Module) (t : Nat) (x : TaskSt) : (m.setTask t x).persist = m.persist := rfl
@[simp] theorem Module.setTask_sys (m : Module) (t : Nat) (x : TaskSt) : (m.setTask t x).sys = m.sys := rfl
@[simp] theorem Module.setTask_latch (m : Module) (t : Nat) (x : TaskSt) : (m.setTask t x).latch = m.latch := rfl
@[simp] theorem Module.setTask_wlatch (m : Module) (t : Nat) (x : TaskSt) : (m.setTask t x).wlatch = m.wlatch := rfl
@[simp] theorem Module.setTask_pubs (m : Module) (t : Nat) (x : TaskSt) : (m.setTask t x).pubs = m.pubs := rfl
@[simp] theorem Module.setTask_gsubs (m : Module) (t : Nat) (x : TaskSt) : (m.setTask t x).gsubs = m.gsubs := rfl
@[simp] theorem Module.setTask_idata (m : Module) (t : Nat) (x : TaskSt) : (m.setTask t x).idata = m.idata := rfl
@[simp] theorem Module.setTask_outImg (m : Module) (t : Nat) (x : TaskSt) : (m.setTask t x).outImg = m.outImg := rfl
@[simp] theorem Module.setTask_vars (m : Module) (t : Nat) (x : TaskSt) : (m.setTask t x).vars = m.vars := rfl
@[simp] theorem Module.setTask_instCycles (m : Module) (t : Nat) (x : TaskSt) : (m.setTask t x).instCycles = m.instCycles := rfl

/-! ### Time passes -/

@[simp] theorem Module.adv_mode (m : Module) (d : Nat) : (m.adv d).mode = m.mode := by unfold Module.adv; split <;> rfl
@[simp] theorem Module.adv_testFrom (m : Module) (d : Nat) : (m.adv d).testFrom = m.testFrom := by unfold Module.adv; split <;> rfl
@[simp] theorem Module.adv_regs (m : Module) (d : Nat) : (m.adv d).regs = m.regs := by unfold Module.adv; split <;> rfl
@[simp] theorem Module.adv_rdata (m : Module) (d : Nat) : (m.adv d).rdata = m.rdata := by unfold Module.adv; split <;> rfl
@[simp] theorem Module.adv_freeIdx (m : Module) (d : Nat) : (m.adv d).freeIdx = m.freeIdx := by unfold Module.adv; split <;> rfl
@[simp] theorem Module.adv_out (m : Module) (d : Nat) : (m.adv d).out = m.out := by unfold Module.adv; split <;> rfl
@[simp] theorem Module.adv_cul (m : Module) (d : Nat) : (m.adv d).cul = m.cul := by unfold Module.adv; split <;> rfl
@[simp] theorem Module.adv_engines (m : Module) (d : Nat) : (m.adv d).engines = m.engines := by unfold Module.adv; split <;> rfl
@[simp] theorem Module.adv_ladle (m : Module) (d : Nat) : (m.adv d).ladle = m.ladle := by unfold Module.adv; split <;> rfl
@[simp] theorem Module.adv_press (m : Module) (d : Nat) : (m.adv d).press = m.press := by unfold Module.adv; split <;> rfl
@[simp] theorem Module.adv_evr (m : Module) (d : Nat) : (m.adv d).evr = m.evr := by unfold Module.adv; split <;> rfl
@[simp] theorem Module.adv_err (m : Module) (d : Nat) : (m.adv d).err = m.err := by unfold Module.adv; split <;> rfl
@[simp] theorem Module.adv_sw (m : Module) (d : Nat) : (m.adv d).sw = m.sw := by unfold Module.adv; split <;> rfl
@[simp] theorem Module.adv_tim (m : Module) (d : Nat) : (m.adv d).tim = m.tim := by unfold Module.adv; split <;> rfl
@[simp] theorem Module.adv_vat (m : Module) (d : Nat) : (m.adv d).vat = m.vat := by unfold Module.adv; split <;> rfl
@[simp] theorem Module.adv_acq (m : Module) (d : Nat) : (m.adv d).acq = m.acq := by unfold Module.adv; split <;> rfl
@[simp] theorem Module.adv_lst (m : Module) (d : Nat) : (m.adv d).lst = m.lst := by unfold Module.adv; split <;> rfl
@[simp] theorem Module.adv_red (m : Module) (d : Nat) : (m.adv d).red = m.red := by unfold Module.adv; split <;> rfl
@[simp] theorem Module.adv_host (m : Module) (d : Nat) : (m.adv d).host = m.host := by unfold Module.adv; split <;> rfl
@[simp] theorem Module.adv_keys (m : Module) (d : Nat) : (m.adv d).keys = m.keys := by unfold Module.adv; split <;> rfl
@[simp] theorem Module.adv_persist (m : Module) (d : Nat) : (m.adv d).persist = m.persist := by unfold Module.adv; split <;> rfl
@[simp] theorem Module.adv_sys (m : Module) (d : Nat) : (m.adv d).sys = m.sys := by unfold Module.adv; split <;> rfl
@[simp] theorem Module.adv_latch (m : Module) (d : Nat) : (m.adv d).latch = m.latch := by unfold Module.adv; split <;> rfl
@[simp] theorem Module.adv_wlatch (m : Module) (d : Nat) : (m.adv d).wlatch = m.wlatch := by unfold Module.adv; split <;> rfl
@[simp] theorem Module.adv_pubs (m : Module) (d : Nat) : (m.adv d).pubs = m.pubs := by unfold Module.adv; split <;> rfl
@[simp] theorem Module.adv_gsubs (m : Module) (d : Nat) : (m.adv d).gsubs = m.gsubs := by unfold Module.adv; split <;> rfl
@[simp] theorem Module.adv_idata (m : Module) (d : Nat) : (m.adv d).idata = m.idata := by unfold Module.adv; split <;> rfl
@[simp] theorem Module.adv_outImg (m : Module) (d : Nat) : (m.adv d).outImg = m.outImg := by unfold Module.adv; split <;> rfl
@[simp] theorem Module.adv_vars (m : Module) (d : Nat) : (m.adv d).vars = m.vars := by unfold Module.adv; split <;> rfl
@[simp] theorem Module.adv_instCycles (m : Module) (d : Nat) : (m.adv d).instCycles = m.instCycles := by unfold Module.adv; split <;> rfl

/-! ### The canonical form -/

@[simp] theorem Module.settle_clk (m : Module) : (m.settle).clk = m.clk := rfl
@[simp] theorem Module.settle_mono (m : Module) : (m.settle).mono = m.mono := rfl
@[simp] theorem Module.settle_mode (m : Module) : (m.settle).mode = m.mode := rfl
@[simp] theorem Module.settle_testFrom (m : Module) : (m.settle).testFrom = m.testFrom := rfl
@[simp] theorem Module.settle_rdata (m : Module) : (m.settle).rdata = m.rdata := rfl
@[simp] theorem Module.settle_freeIdx (m : Module) : (m.settle).freeIdx = m.freeIdx := rfl
@[simp] theorem Module.settle_out (m : Module) : (m.settle).out = m.out := rfl
@[simp] theorem Module.settle_cul (m : Module) : (m.settle).cul = m.cul := rfl
@[simp] theorem Module.settle_press (m : Module) : (m.settle).press = m.press := rfl
@[simp] theorem Module.settle_err (m : Module) : (m.settle).err = m.err := rfl
@[simp] theorem Module.settle_sw (m : Module) : (m.settle).sw = m.sw := rfl
@[simp] theorem Module.settle_tim (m : Module) : (m.settle).tim = m.tim := rfl
@[simp] theorem Module.settle_vat (m : Module) : (m.settle).vat = m.vat := rfl
@[simp] theorem Module.settle_acq (m : Module) : (m.settle).acq = m.acq := rfl
@[simp] theorem Module.settle_lst (m : Module) : (m.settle).lst = m.lst := rfl
@[simp] theorem Module.settle_red (m : Module) : (m.settle).red = m.red := rfl
@[simp] theorem Module.settle_persist (m : Module) : (m.settle).persist = m.persist := rfl
@[simp] theorem Module.settle_sys (m : Module) : (m.settle).sys = m.sys := rfl

/-! ### Registers -/

/-- A field reads as before after a write to a field at another place. -/
theorem Module.rd_wr_other (m : Module) {f g : Fld} (v : Nat) (h : f.key ≠ g.key) : (m.wr g v).rd f = m.rd f := by
  unfold Module.rd Module.wr SMap.getD
  dsimp only
  split
  · rw [SMap.get?_erase_other _ h]
  · rw [SMap.get?_set_other _ _ h]

/-- A written field reads as the value cut to its width. -/
theorem Module.rd_wr_same (m : Module) (h : SMap.rising m.regs = true) (f : Fld) (v : Nat) :
    (m.wr f v).rd f = v % 2 ^ f.width := by
  unfold Module.rd Module.wr SMap.getD
  dsimp only
  split
  · rename_i e; rw [SMap.get?_erase_same h]; exact e.symm
  · rw [SMap.get?_set_same]; rfl

/-- A write keeps the register store canonical. -/
theorem Module.rising_wr {m : Module} (h : SMap.rising m.regs = true) (f : Fld) (v : Nat) :
    SMap.rising (m.wr f v).regs = true := by
  unfold Module.wr
  dsimp only
  split
  · exact SMap.rising_erase h _
  · exact SMap.rising_set h _ _

/-- A counter counts on and stays at all ones (R20). -/
theorem Module.rd_bumpBy_same (m : Module) (h : SMap.rising m.regs = true) (f : Fld) (n : Nat) :
    (m.bumpBy f n).rd f = min (m.rd f + n) (2 ^ f.width - 1) := by
  have p : 0 < 2 ^ f.width := Nat.two_pow_pos _
  unfold Module.bumpBy
  dsimp only
  rw [Module.rd_wr_same _ h]
  split
  · rw [Nat.mod_eq_of_lt (by omega)]; omega
  · rw [Nat.mod_eq_of_lt (by omega)]; omega

/-- Counting leaves every field at another place alone. -/
theorem Module.rd_bumpBy_other (m : Module) {f g : Fld} (n : Nat) (h : f.key ≠ g.key) : (m.bumpBy g n).rd f = m.rd f :=
  Module.rd_wr_other m _ h

@[simp] theorem Module.rd_emit (m : Module) (e : Emission) (f : Fld) : (m.emit e).rd f = m.rd f := rfl
@[simp] theorem Module.rd_setCtx (m : Module) (e c : Nat) (x : Ctx) (f : Fld) : (m.setCtx e c x).rd f = m.rd f := rfl
@[simp] theorem Module.rd_setTask (m : Module) (t : Nat) (x : TaskSt) (f : Fld) : (m.setTask t x).rd f = m.rd f := rfl
@[simp] theorem Module.rd_adv (m : Module) (d : Nat) (f : Fld) : (m.adv d).rd f = m.rd f := by unfold Module.rd; simp

/-! ### Engines and contexts -/

theorem Module.engine_setEngine (m : Module) (e : Nat) (x : Engine) (n : Nat) :
    (m.setEngine e x).engine n = if n = e then x else m.engine n := by
  unfold Module.engine Module.setEngine SMap.getD
  rw [SMap.get?_set]
  split <;> rfl

/-- A context reads as it was last written; every other one as before. -/
theorem Module.ctx?_setCtx (m : Module) (e c : Nat) (x : Ctx) (n k : Nat) :
    (m.setCtx e c x).ctx? n k = if n = e ∧ k = c then some x else m.ctx? n k := by
  unfold Module.ctx? Module.setCtx
  rw [Module.engine_setEngine]
  by_cases h : n = e
  · subst h
    simp only [if_true, true_and]
    exact SMap.get?_set _ _ _ _
  · simp [h]

theorem SMap.set_set {α : Type} (l : SMap α) (k : Nat) (v w : α) : SMap.set (SMap.set l k v) k w = SMap.set l k w := by
  induction l with
  | nil => simp [SMap.set]
  | cons p r ih =>
    obtain ⟨j, u⟩ := p
    by_cases a : k < j
    · simp [SMap.set, a]
    · by_cases e : k = j
      · subst e; simp [SMap.set]
      · simp [SMap.set, a, e, ih]

/-- The later of two writes to a context is the one that stands. -/
theorem Module.setCtx_setCtx (m : Module) (e c : Nat) (x y : Ctx) : (m.setCtx e c x).setCtx e c y = m.setCtx e c y := by
  unfold Module.setCtx
  rw [Module.engine_setEngine, if_pos rfl]
  unfold Module.setEngine
  simp only [SMap.set_set]

/-! ### The canonical form -/

/-- Every settled module is in canonical form. -/
theorem Module.wf_settle (m : Module) : m.settle.wf = true := by
  simp only [Module.wf, Module.settle, SMap.rising_tidy, SMap.memsWf_tidyMems, SMap.memWf_tidyMem, Bool.and_self]

/-- A module in canonical form is left as it is. -/
theorem Module.settle_eq {m : Module} (h : m.wf = true) : m.settle = m := by
  simp only [Module.wf, Bool.and_eq_true] at h
  obtain ⟨⟨⟨⟨⟨⟨⟨⟨⟨⟨⟨⟨⟨⟨h1, h2⟩, h3⟩, h4⟩, h5⟩, h6⟩, h7⟩, h8⟩, h9⟩, h10⟩, h11⟩, h12⟩, h13⟩, h14⟩, h15⟩ := h
  unfold Module.settle
  rw [SMap.tidy_eq h1, SMap.tidy_eq h2, SMap.tidy_eq h3, SMap.tidy_eq h4, SMap.tidy_eq h5, SMap.tidy_eq h6, SMap.tidy_eq h7,
    SMap.tidy_eq h8, SMap.tidy_eq h9, SMap.tidy_eq h10, SMap.tidy_eq h11, SMap.tidy_eq h12, SMap.tidyMems_eq h13,
    SMap.tidyMems_eq h14, SMap.tidyMem_eq h15]

/-- Every register field reads the same in the canonical form. -/
@[simp] theorem Module.rd_settle (m : Module) (f : Fld) : m.settle.rd f = m.rd f := by
  unfold Module.rd; exact SMap.getD_tidy _ _ _

@[simp] theorem Module.engine_settle (m : Module) (e : Nat) : m.settle.engine e = m.engine e := by
  unfold Module.engine; exact SMap.getD_tidy _ _ _

@[simp] theorem Module.ctx?_settle (m : Module) (e c : Nat) : m.settle.ctx? e c = m.ctx? e c := by
  unfold Module.ctx?; rw [Module.engine_settle]

@[simp] theorem Module.task_settle (m : Module) (t : Nat) : m.settle.task t = m.task t := by
  unfold Module.task; exact SMap.getD_tidy _ _ _

/-! ### A command's next state -/

/-- What a command answers through the shared operation: a next state, the queue as it was. -/
theorem State.upd_eq (s : State) (f : Module → Module) : s.upd f = .next { s with m := (f s.m).settle } := rfl

end Sys2Proof.Machine
end

