-- ==== Sys2Proof/Laws/Shape.lean ====
section
/-!
SUPPORT. What the shared operations can change: each lemma names, once, every field of the module that its operation may touch.
-/

namespace Sys2Proof.Machine

/-- Agreement of two modules outside the registers and the event recorder. -/
def Module.ExceptEvents (m n : Module) : Prop := ∃ r v, n = { m with regs := r, evr := v }

/-- Agreement outside the registers, the event recorder and the error tree. -/
def Module.ExceptErrors (m n : Module) : Prop := ∃ r v x, n = { m with regs := r, evr := v, err := x }

/-- Agreement outside the registers, the recorder, the Ladle, the Press, the engines and what leaves the module. -/
def Module.ExceptCycles (m n : Module) : Prop :=
  ∃ r v l p g o, n = { m with regs := r, evr := v, ladle := l, press := p, engines := g, out := o }

theorem Module.ExceptEvents.refl (m : Module) : m.ExceptEvents m := ⟨_, _, rfl⟩
theorem Module.ExceptErrors.refl (m : Module) : m.ExceptErrors m := ⟨_, _, _, rfl⟩
theorem Module.ExceptCycles.refl (m : Module) : m.ExceptCycles m := ⟨_, _, _, _, _, _, rfl⟩

theorem Module.ExceptEvents.trans {a b c : Module} (h : a.ExceptEvents b) (k : b.ExceptEvents c) : a.ExceptEvents c := by
  obtain ⟨_, _, rfl⟩ := h; obtain ⟨_, _, rfl⟩ := k; exact ⟨_, _, rfl⟩
theorem Module.ExceptErrors.trans {a b c : Module} (h : a.ExceptErrors b) (k : b.ExceptErrors c) : a.ExceptErrors c := by
  obtain ⟨_, _, _, rfl⟩ := h; obtain ⟨_, _, _, rfl⟩ := k; exact ⟨_, _, _, rfl⟩
theorem Module.ExceptCycles.trans {a b c : Module} (h : a.ExceptCycles b) (k : b.ExceptCycles c) : a.ExceptCycles c := by
  obtain ⟨_, _, _, _, _, _, rfl⟩ := h; obtain ⟨_, _, _, _, _, _, rfl⟩ := k; exact ⟨_, _, _, _, _, _, rfl⟩

theorem Module.ExceptEvents.errors {a b : Module} (h : a.ExceptEvents b) : a.ExceptErrors b := by
  obtain ⟨_, _, rfl⟩ := h; exact ⟨_, _, _, rfl⟩
theorem Module.ExceptEvents.cycles {a b : Module} (h : a.ExceptEvents b) : a.ExceptCycles b := by
  obtain ⟨_, _, rfl⟩ := h; exact ⟨_, _, _, _, _, _, rfl⟩

theorem Module.ExceptEvents.ite {P : Prop} [Decidable P] {a b c : Module} (h : a.ExceptEvents b) (k : a.ExceptEvents c) :
    a.ExceptEvents (if P then b else c) := by split <;> assumption
theorem Module.ExceptErrors.ite {P : Prop} [Decidable P] {a b c : Module} (h : a.ExceptErrors b) (k : a.ExceptErrors c) :
    a.ExceptErrors (if P then b else c) := by split <;> assumption
theorem Module.ExceptCycles.ite {P : Prop} [Decidable P] {a b c : Module} (h : a.ExceptCycles b) (k : a.ExceptCycles c) :
    a.ExceptCycles (if P then b else c) := by split <;> assumption

/-- A change made under a condition. -/
theorem Module.ExceptErrors.when {P : Prop} [Decidable P] {a b : Module} (f : Module → Module)
    (h : a.ExceptErrors b) (k : b.ExceptErrors (f b)) : a.ExceptErrors (if P then f b else b) := .ite (h.trans k) h

/-! ### Registers and events -/

theorem Module.events_wr (m : Module) (f : Fld) (v : Nat) : m.ExceptEvents (m.wr f v) := ⟨_, _, rfl⟩
theorem Module.events_bump (m : Module) (f : Fld) : m.ExceptEvents (m.bump f) := ⟨_, _, rfl⟩

theorem Module.events_enqueueLost (m : Module) : m.ExceptEvents m.enqueueLost := by
  unfold Module.enqueueLost
  split
  · exact .refl m
  · exact ⟨_, _, rfl⟩

/-- Taking an event changes registers and the recorder only (R372, R381). -/
theorem Module.events_takeEvent (m : Module) (s c i t d x : Nat) : m.ExceptEvents (m.takeEvent s c i t d x) := by
  have last : ∀ k : Module, k.ExceptEvents k.loseEvent := fun k => ⟨_, _, rfl⟩
  unfold Module.takeEvent
  refine .ite (.refl m) (.ite ⟨_, _, rfl⟩ ?_)
  exact ((m.events_bump _).trans (Module.events_enqueueLost _)).trans (.ite (last _) ⟨_, _, rfl⟩)

theorem Module.events_raise (m : Module) (s n c i t d : Nat) : m.ExceptEvents (m.raise s n c i t d) := m.events_takeEvent ..
theorem Module.events_raise' (m : Module) (s n c d : Nat) : m.ExceptEvents (m.raise' s n c d) := m.events_takeEvent ..
theorem Module.events_raiseIf (m : Module) (f : Fld) (s n c i t d : Nat) : m.ExceptEvents (m.raiseIf f s n c i t d) := by
  unfold Module.raiseIf; split
  · exact m.events_raise ..
  · exact .refl m

/-! ### Error reports -/

theorem Module.events_foldWr (m : Module) (l : List Nat) (f : Nat → Fld) (v : Nat → Nat) :
    m.ExceptEvents (l.foldl (fun m k => m.wr (f k) (v k)) m) := by
  induction l generalizing m with
  | nil => exact .refl m
  | cons a r ih => exact (m.events_wr _ _).trans (ih _)

theorem Module.events_errLog (m : Module) (w : List Nat) : m.ExceptEvents (m.errLog w) := by
  unfold Module.errLog
  dsimp only
  split
  · exact ((m.events_foldWr _ _ _).trans (Module.events_wr _ _ _)).trans (Module.events_wr _ _ _)
  · exact (m.events_foldWr _ _ _).trans (Module.events_wr _ _ _)

theorem Module.errors_ceAgain (m : Module) (a b : Nat) : m.ExceptErrors (m.ceAgain a b) := by
  unfold Module.ceAgain
  refine .when (fun k => k.raiseIf R.ERR_CTRL_LOG_EN 16 4 a 0xFFFF 0xFFFF (b % 2 ^ 32)) ?_ (Module.events_raiseIf ..).errors
  exact .when (fun k => k.bump R.ERR_PERSIST_CNT_CNT) ⟨_, _, _, rfl⟩ (Module.events_bump ..).errors

theorem Module.errors_ceHour (m : Module) (a : Nat) : m.ExceptErrors (m.ceHour a) := by
  unfold Module.ceHour
  dsimp only
  split <;> split
  all_goals first | exact ⟨_, _, _, rfl⟩ | (refine Module.ExceptErrors.trans ?_ (Module.events_raiseIf ..).errors; exact ⟨_, _, _, rfl⟩)

theorem Module.errors_errIrq (m : Module) (c : Nat) : m.ExceptErrors (m.errIrq c) := by
  unfold Module.errIrq; split <;> exact ⟨_, _, _, rfl⟩

/-- A report changes registers, the recorder and the error tree only (R480). -/
theorem Module.errors_report (m : Module) (r : ErrReport) : m.ExceptErrors (m.report r) := by
  have h1 : m.ExceptErrors ((m.bump (R.ERR_SRC_CNT_CNT r.s)).wr R.ERR_SRC_STK_SRC_STK
      ((m.bump (R.ERR_SRC_CNT_CNT r.s)).rd R.ERR_SRC_STK_SRC_STK ||| 2 ^ r.s)) :=
    ((m.events_bump _).trans (Module.events_wr ..)).errors
  unfold Module.report
  dsimp only
  generalize ((m.bump (R.ERR_SRC_CNT_CNT r.s)).wr R.ERR_SRC_STK_SRC_STK
      ((m.bump (R.ERR_SRC_CNT_CNT r.s)).rd R.ERR_SRC_STK_SRC_STK ||| 2 ^ r.s)) = k1 at *
  generalize h2 : (if r.mem < 7 then k1.bump (if errClass r.s = 0 then R.MEM_CE_CNT_CNT r.mem else R.MEM_UE_CNT_CNT r.mem) else k1) = k2
  have e2 : m.ExceptErrors k2 := by
    subst h2; exact .ite (h1.trans (Module.events_bump ..).errors) h1
  refine Module.ExceptErrors.trans ?_ (Module.errors_errIrq _ _)
  generalize h3 : k2.errLog (r.words k2.ts32) = k3
  have e3 : m.ExceptErrors k3 := by subst h3; exact e2.trans (Module.events_errLog ..).errors
  generalize h4 : (if (errClass r.s = 1 ∨ errClass r.s = 2) ∧ k3.rd R.ERR_STATUS_FIRST_VALID = 0 then
      ((List.range 4).foldl (fun m k => m.wr (R.ERR_FIRST_ENTRY k) ((r.words k2.ts32).getD k 0)) k3).flag R.ERR_STATUS_FIRST_VALID
    else k3) = k4
  have e4 : m.ExceptErrors k4 := by
    subst h4
    exact .ite (e3.trans ((Module.events_foldWr _ _ _ _).trans (Module.events_wr ..)).errors) e3
  exact .ite (e4.trans (Module.events_raiseIf ..).errors) (.ite (e4.trans (Module.events_raiseIf ..).errors)
    (.ite (e4.trans ((Module.errors_ceHour ..).trans (Module.errors_ceAgain ..))) e4))

/-- What a read found changes registers, the recorder and the error tree only. -/
theorem Module.errors_readReport (m : Module) (err : ReadErr) (a b c i e : Nat) : m.ExceptErrors (m.readReport err a b c i e) := by
  cases err
  · exact .refl m
  · exact m.errors_report _
  · exact m.errors_report _

/-! ### Cycles -/

theorem Module.cycles_traceWords (m : Module) (w : List Word) : m.ExceptCycles (m.traceWords w) := by
  unfold Module.traceWords
  split
  · exact .refl m
  · split
    · exact ⟨_, _, _, _, _, _, rfl⟩
    · split
      · exact ⟨_, _, _, _, _, _, rfl⟩
      · exact ⟨_, _, _, _, _, _, rfl⟩

theorem Module.cycles_trace (m : Module) (a b c d e f g : Nat) : m.ExceptCycles (m.trace a b c d e f g) := m.cycles_traceWords _

theorem Module.cycles_setTask (m : Module) (t : Nat) (x : TaskSt) : m.ExceptCycles (m.setTask t x) := ⟨_, _, _, _, _, _, rfl⟩
theorem Module.cycles_modTask (m : Module) (t : Nat) (f : TaskSt → TaskSt) : m.ExceptCycles (m.modTask t f) := m.cycles_setTask ..
theorem Module.cycles_setEngine (m : Module) (e : Nat) (x : Engine) : m.ExceptCycles (m.setEngine e x) := ⟨_, _, _, _, _, _, rfl⟩
theorem Module.cycles_setCtx (m : Module) (e c : Nat) (x : Ctx) : m.ExceptCycles (m.setCtx e c x) := m.cycles_setEngine ..

theorem Module.cycles_endOnEngine (m : Module) (e : Nat) (x : Ctx) : m.ExceptCycles (m.endOnEngine e x) := by
  have h : m.ExceptCycles (m.setEngine e { m.engine e with prevMissed := x.missed }) := m.cycles_setEngine ..
  unfold Module.endOnEngine
  dsimp only
  generalize m.setEngine e { m.engine e with prevMissed := x.missed } = k at *
  exact .ite (.refl m) (.ite h ((Module.ExceptCycles.ite h (h.trans ((Module.events_wr ..).trans (Module.events_bump ..)).cycles)).trans
    (Module.events_raiseIf ..).cycles))

theorem Module.cycles_freeCtx (m : Module) (e c : Nat) : m.ExceptCycles (m.freeCtx e c) := by
  unfold Module.freeCtx
  split
  · exact .refl m
  · exact (m.cycles_endOnEngine ..).trans (Module.cycles_setEngine ..)

theorem Module.cycles_endCycle (m : Module) (t ct : Nat) : m.ExceptCycles (m.endCycle t ct) :=
  (m.cycles_modTask t _).trans (Module.events_wr _ _ _).cycles

theorem Module.cycles_endAttempt (m : Module) (t : Nat) (o : OpenCycle) : m.ExceptCycles (m.endAttempt t o) := by
  unfold Module.endAttempt; split
  · exact m.cycles_endCycle ..
  · exact .refl m

theorem Module.cycles_abortCtx (m : Module) (e c : Nat) : m.ExceptCycles (m.abortCtx e c) := by
  unfold Module.abortCtx
  split
  · exact .refl m
  · exact ((m.cycles_freeCtx e c).trans (Module.cycles_endCycle ..)).trans (Module.events_bump _ _).cycles

theorem Module.cycles_noRecord (m : Module) (t ct : Nat) : m.ExceptCycles (m.noRecord t ct) := by
  unfold Module.noRecord
  split
  · split
    · exact ⟨_, _, _, _, _, _, rfl⟩
    · exact .refl m
  · exact .refl m

theorem Module.cycles_grpFailed (m : Module) (g ct c : Nat) : m.ExceptCycles (m.grpFailed g ct c) := by
  unfold Module.grpFailed
  refine Module.ExceptCycles.trans ?_ (Module.events_raise' ..).cycles
  exact ⟨_, _, _, _, _, _, rfl⟩

theorem Module.cycles_openEpoch (m : Module) (r : List CRec) (t : Option (Nat × List (Nat × Nat))) (f : List ForceApply) (n : Nat) :
    m.ExceptCycles (m.openEpoch r t f n) := ⟨_, _, _, _, _, _, rfl⟩

theorem Module.cycles_press (m : Module) (p : Press) : m.ExceptCycles { m with press := p } := ⟨_, _, _, _, _, _, rfl⟩

theorem Module.cycles_foldl {α : Type} (f : Module → α → Module) (h : ∀ (m : Module) (x : α), m.ExceptCycles (f m x)) (l : List α) (m : Module) :
    m.ExceptCycles (l.foldl f m) := by
  induction l generalizing m with
  | nil => exact .refl m
  | cons a r ih => exact (h m a).trans (ih _)

/-- One act changes cycles, records, groups and stops only. -/
theorem Module.cycles_act (m : Module) (a : Act) : m.ExceptCycles (m.act a).1 := by
  cases a with
  | cancelOpen t ct cause =>
    unfold Module.act; dsimp only
    split
    · refine Module.ExceptCycles.trans ?_ (Module.cycles_noRecord ..)
      refine Module.ExceptCycles.trans ?_ (Module.events_bump ..).cycles
      refine Module.ExceptCycles.trans ?_ (Module.cycles_trace ..)
      exact (m.cycles_modTask ..).trans (Module.cycles_endAttempt ..)
    · exact .refl m
  | lost t ct cause eng ctx detail =>
    refine Module.ExceptCycles.trans ?_ (Module.cycles_noRecord ..)
    refine Module.ExceptCycles.trans ?_ (Module.events_bump ..).cycles
    exact Module.ExceptCycles.trans (m.cycles_modTask ..) (Module.cycles_trace ..)
  | chain t ct => exact .refl m
  | report t ct =>
    unfold Module.act; dsimp only
    split
    · exact .refl m
    · split
      · split
        · exact .refl m
        · split <;> exact .refl m
      · split
        · exact .refl m
        · split
          · exact ⟨_, _, _, _, _, _, rfl⟩
          · exact .refl m
  | grpFail g cause =>
    unfold Module.act; dsimp only
    split
    · exact .refl m
    · refine Module.ExceptCycles.trans ?_ (Module.cycles_grpFailed ..)
      exact ⟨_, _, _, _, _, _, rfl⟩
  | discard r n =>
    unfold Module.act; dsimp only
    split
    · dsimp only; exact (m.events_bump _).cycles.trans (Module.cycles_modTask ..)
    · dsimp only; exact (m.events_bump _).cycles.trans (Module.cycles_modTask ..)
  | fault t ct code eng ctx =>
    unfold Module.act; dsimp only
    split
    · exact .refl m
    · split <;> exact .refl m
  | consec t =>
    unfold Module.act; dsimp only
    split
    · exact .refl m
    · dsimp only; exact m.cycles_modTask ..
  | stop i =>
    unfold Module.act; dsimp only
    split
    · exact .refl m
    · unfold Module.applySafe
      refine Module.ExceptCycles.trans ?_ (Module.cycles_openEpoch ..)
      refine Module.ExceptCycles.trans ?_ (Module.cycles_foldl _ (fun m x => m.cycles_grpFailed ..) _ _)
      refine Module.ExceptCycles.trans ?_ (Module.cycles_press ..)
      refine Module.ExceptCycles.trans ?_ (Module.events_raiseIf ..).cycles
      refine Module.ExceptCycles.trans ?_ (Module.events_wr ..).cycles
      refine Module.ExceptCycles.trans ?_ (Module.cycles_press ..)
      refine Module.ExceptCycles.trans ?_ (Module.cycles_foldl _ (fun m x => m.cycles_modTask ..) _ _)
      exact Module.cycles_foldl _ (fun m x => m.cycles_abortCtx ..) _ _

theorem Module.cycles_run (n : Nat) (l : List Act) (m : Module) : m.ExceptCycles (Module.run n l m) := by
  induction n generalizing l m with
  | zero => exact .refl m
  | succ k ih =>
    cases l with
    | nil => exact .refl m
    | cons a r => exact (m.cycles_act a).trans (ih _ _)

/-- Whatever follows from a list of acts changes cycles, records, groups and stops only. -/
theorem Module.cycles_doActs (m : Module) (l : List Act) : m.ExceptCycles (m.doActs l) := Module.cycles_run ..

/-! ### Issue -/

/-- The one lemma about issue: what an instruction from the context that its engine issues from does (R240, R264, R267, R268). -/
theorem Module.issueM_eq (m : Module) (e c op : Nat) (w : Kw) (f : Module → Ctx → Module) (x : Ctx)
    (h : (m.engine e).issuer = some (c, x)) :
    m.issueM e c op w f =
      let b := { x with firstAt := some (x.firstAt.getD (m.capturePoint e c x).mono) }
      let k := (m.capturePoint e c x).setCtx e c b
      if kEncodingOk op w = false then k.kExc e c x.pc.toNat 1 0 0
      else if x.qualified w = false then (m.capturePoint e c x).setCtx e c { b with pc := x.pc + 8 }
      else f k { b with pc := x.pc + 8 } := by
  unfold Module.issueM
  have q : ∀ b : Option Nat, Ctx.qualified { x with firstAt := b } w = x.qualified w := fun _ => rfl
  simp only [h, ne_eq, not_true_eq_false, if_false, q]
  cases kEncodingOk op w <;> cases x.qualified w <;> simp [Module.setCtx_setCtx]

/-- A context that its engine does not issue from does nothing. -/
theorem Module.issueM_other (m : Module) (e c op : Nat) (w : Kw) (f : Module → Ctx → Module)
    (h : ∀ x, (m.engine e).issuer ≠ some (c, x)) : m.issueM e c op w f = m := by
  unfold Module.issueM
  cases g : (m.engine e).issuer with
  | none => rfl
  | some p =>
    obtain ⟨k, x⟩ := p
    by_cases e2 : k = c
    · subst e2; exact absurd g (h x)
    · simp [e2]

end Sys2Proof.Machine
end

