-- ==== Sys2Proof/Laws/Regs.lean ====
section
/-!
SUPPORT. Which registers the shared operations leave alone: a change that stays at or above an address keeps every field below it, and
keeps the register store canonical.
-/

namespace Sys2Proof.Machine

/-- n differs from m, in its registers, only in fields at address a or above; a canonical register store stays canonical. -/
def Module.From (a : Nat) (m n : Module) : Prop :=
  (SMap.rising m.regs = true → SMap.rising n.regs = true) ∧ ∀ f : Fld, f.addr < a → f.lsb < 32 → n.rd f = m.rd f

theorem Module.From.refl (a : Nat) (m : Module) : m.From a m := ⟨id, fun _ _ _ => rfl⟩
theorem Module.From.trans {a : Nat} {x y z : Module} (h : x.From a y) (k : y.From a z) : x.From a z :=
  ⟨fun r => k.1 (h.1 r), fun f p q => (k.2 f p q).trans (h.2 f p q)⟩
theorem Module.From.mono {a b : Nat} {x y : Module} (h : x.From b y) (l : a ≤ b) : x.From a y :=
  ⟨h.1, fun f p q => h.2 f (Nat.lt_of_lt_of_le p l) q⟩
theorem Module.From.ite {P : Prop} [Decidable P] {a : Nat} {x y z : Module} (h : x.From a y) (k : x.From a z) :
    x.From a (if P then y else z) := by split <;> assumption
theorem Module.From.same {a : Nat} {x y : Module} (h : y.regs = x.regs) : x.From a y :=
  ⟨fun r => h ▸ r, fun f _ _ => by unfold Module.rd; rw [h]⟩

/-- A field at another address, or at another bit of it, is another place. -/
theorem Fld.key_ne {f g : Fld} (hf : f.lsb < 32) (hg : g.lsb < 32) (h : f.addr ≠ g.addr ∨ f.lsb ≠ g.lsb) : f.key ≠ g.key := by
  unfold Fld.key; omega

theorem Module.from_wr {a : Nat} (m : Module) (g : Fld) (v : Nat) (h : a ≤ g.addr) (l : g.lsb < 32) : m.From a (m.wr g v) :=
  ⟨fun r => Module.rising_wr r g v, fun f p q => m.rd_wr_other v (Fld.key_ne q l (.inl (by omega)))⟩

theorem Module.from_bump {a : Nat} (m : Module) (g : Fld) (h : a ≤ g.addr) (l : g.lsb < 32) : m.From a (m.bump g) :=
  m.from_wr g _ h l

theorem Module.from_emit {a : Nat} (m : Module) (e : Emission) : m.From a (m.emit e) := .same rfl

theorem Module.from_enqueueLost (m : Module) : m.From 0xb00000 m.enqueueLost := by
  unfold Module.enqueueLost
  refine .ite (.refl _ m) ?_
  exact Module.From.trans (.same rfl) (Module.from_bump _ _ (by decide) (by decide))

/-- Events count in the recorder's own block (R372, R381). -/
theorem Module.from_takeEvent (m : Module) (s c i t d x : Nat) : m.From 0xb00000 (m.takeEvent s c i t d x) := by
  have b0 : m.From 0xb00000 (m.bump (R.EVR_CNT_CNT 0)) := m.from_bump _ (by decide) (by decide)
  unfold Module.takeEvent
  refine .ite (.refl _ m) (.ite (b0.trans (Module.from_bump _ _ (by decide) (by decide))) ?_)
  refine (b0.trans (Module.from_enqueueLost _)).trans (.ite ?_ (.same rfl))
  exact Module.From.trans (Module.From.trans (.same rfl) (Module.from_bump _ _ (by decide) (by decide)))
    (Module.from_bump _ _ (by decide) (by decide))

theorem Module.from_raise (m : Module) (s n c i t d : Nat) : m.From 0xb00000 (m.raise s n c i t d) := m.from_takeEvent ..
theorem Module.from_raise' (m : Module) (s n c d : Nat) : m.From 0xb00000 (m.raise' s n c d) := m.from_takeEvent ..
theorem Module.from_raiseIf (m : Module) (f : Fld) (s n c i t d : Nat) : m.From 0xb00000 (m.raiseIf f s n c i t d) :=
  .ite (m.from_raise ..) (.refl _ m)

theorem Module.from_foldWr {a : Nat} (m : Module) (l : List Nat) (g : Nat → Fld) (v : Nat → Nat)
    (h : ∀ k, a ≤ (g k).addr ∧ (g k).lsb < 32) : m.From a (l.foldl (fun m k => m.wr (g k) (v k)) m) := by
  induction l generalizing m with
  | nil => exact .refl _ m
  | cons x r ih => exact (m.from_wr _ _ (h x).1 (h x).2).trans (ih _)

theorem Module.from_errLog (m : Module) (w : List Nat) : m.From 0xb00000 (m.errLog w) := by
  have h1 := m.from_foldWr (a := 0xb00000) (List.range 4) (fun k => R.ERR_LOG_ENTRY (m.rd R.ERR_STATUS_LOG_NEXT) k)
    (fun k => w.getD k 0) (fun k => ⟨by simp only [R.ERR_LOG_ENTRY]; omega, by simp [R.ERR_LOG_ENTRY]⟩)
  have h2 := h1.trans (Module.from_wr _ R.ERR_STATUS_LOG_NEXT (m.rd R.ERR_STATUS_LOG_NEXT + 1) (by decide) (by decide))
  unfold Module.errLog
  exact .ite (h2.trans (Module.from_wr _ _ _ (by decide) (by decide))) h2

theorem Module.from_ceAgain (m : Module) (a b : Nat) : m.From 0xb00000 (m.ceAgain a b) := by
  unfold Module.ceAgain
  dsimp only
  generalize hk : ({ m with err := _ } : Module) = k
  have h : m.From 0xb00000 k := by subst hk; exact .same rfl
  exact .ite ((Module.From.ite (h.trans (Module.from_bump _ _ (by decide) (by decide))) h).trans (Module.from_raiseIf ..))
    (.ite (h.trans (Module.from_bump _ _ (by decide) (by decide))) h)

theorem Module.from_err (m : Module) (x : ErrSt) (a : Nat) : m.From a { m with err := x } := .same rfl

theorem Module.from_ceHour (m : Module) (a : Nat) : m.From 0xb00000 (m.ceHour a) := by
  unfold Module.ceHour
  exact .ite ((Module.from_err m _ _).trans (Module.from_raiseIf ..)) (Module.from_err m _ _)

/-- A report writes the memory and error blocks, and the recorder's (R480). -/
theorem Module.from_report (m : Module) (r : ErrReport) : m.From 0xb00000 (m.report r) := by
  have h1 : m.From 0xb00000 ((m.bump (R.ERR_SRC_CNT_CNT r.s)).wr R.ERR_SRC_STK_SRC_STK
      ((m.bump (R.ERR_SRC_CNT_CNT r.s)).rd R.ERR_SRC_STK_SRC_STK ||| 2 ^ r.s)) :=
    (m.from_bump _ (by simp only [R.ERR_SRC_CNT_CNT]; omega) (by simp [R.ERR_SRC_CNT_CNT])).trans
      (Module.from_wr _ _ _ (by decide) (by decide))
  unfold Module.report
  dsimp only
  generalize ((m.bump (R.ERR_SRC_CNT_CNT r.s)).wr R.ERR_SRC_STK_SRC_STK
      ((m.bump (R.ERR_SRC_CNT_CNT r.s)).rd R.ERR_SRC_STK_SRC_STK ||| 2 ^ r.s)) = k1 at *
  generalize h2 : (if r.mem < 7 then k1.bump (if errClass r.s = 0 then R.MEM_CE_CNT_CNT r.mem else R.MEM_UE_CNT_CNT r.mem) else k1) = k2
  have e2 : m.From 0xb00000 k2 := by
    subst h2
    refine .ite (h1.trans (Module.from_bump _ _ ?_ ?_)) h1 <;> split <;>
      simp only [R.MEM_CE_CNT_CNT, R.MEM_UE_CNT_CNT] <;> omega
  unfold Module.errIrq
  generalize h3 : k2.errLog (r.words k2.ts32) = k3
  have e3 : m.From 0xb00000 k3 := by subst h3; exact e2.trans (Module.from_errLog ..)
  generalize h4 : (if (errClass r.s = 1 ∨ errClass r.s = 2) ∧ k3.rd R.ERR_STATUS_FIRST_VALID = 0 then
      ((List.range 4).foldl (fun m k => m.wr (R.ERR_FIRST_ENTRY k) ((r.words k2.ts32).getD k 0)) k3).flag R.ERR_STATUS_FIRST_VALID
    else k3) = k4
  have e4 : m.From 0xb00000 k4 := by
    subst h4
    refine .ite (e3.trans (Module.From.trans (Module.from_foldWr k3 (List.range 4) (fun k => R.ERR_FIRST_ENTRY k)
      (fun k => (r.words k2.ts32).getD k 0) (fun k => ⟨?_, ?_⟩)) (Module.from_wr _ _ _ (by decide) (by decide)))) e3
    · simp only [R.ERR_FIRST_ENTRY]; omega
    · simp [R.ERR_FIRST_ENTRY]
  generalize h5 : (if errClass r.s = 1 then k4.raiseIf R.ERR_CTRL_LOG_EN 16 2 r.s (if r.inst = 0xFFF then 0xFFFF else r.inst) 0xFFFF (r.addr % 2 ^ 32)
    else if errClass r.s = 2 then k4.raiseIf R.ERR_CTRL_LOG_EN 16 3 r.s 0xFFFF 0xFFFF 0
    else if errClass r.s = 0 ∧ r.mem < 7 then (k4.ceHour r.mem).ceAgain r.mem r.addr
    else k4) = k5
  have e5 : m.From 0xb00000 k5 := by
    subst h5
    exact .ite (e4.trans (Module.from_raiseIf ..)) (.ite (e4.trans (Module.from_raiseIf ..))
      (.ite (e4.trans ((Module.from_ceHour ..).trans (Module.from_ceAgain ..))) e4))
  exact .ite (e5.trans (.same rfl)) e5

theorem Module.from_readReport (m : Module) (err : ReadErr) (a b c i e : Nat) : m.From 0xb00000 (m.readReport err a b c i e) := by
  cases err
  · exact .refl _ m
  · exact m.from_report _
  · exact m.from_report _

end Sys2Proof.Machine
end

