-- ==== Sys2Proof/Tests/Slice0.lean ====
section
/-!
SUPPORT. Tests: well-formedness refuses each ill-formed operand; examples of the spec; and, for each statement with hypotheses, a
state and operands that meet them.
-/

set_option maxRecDepth 20000
set_option Elab.async false

namespace Sys2Proof.Tests
open Sys2Proof.Machine Sys2Proof.Claims

/-! ### States -/

/-- An ACTIVE module with every function ready, 5 s after the start of its primary clock. -/
def base : Module :=
  { Module.reset with mode := .active, clk := 5000000000 * nsUnit, mono := 3000000000 * nsUnit }.wr R.SYS_READY_READY 0xFFFF

/-- A state with no command waiting. -/
def st (m : Module) : State := ⟨m, []⟩

/-- The module with an admitted instance of an owner, drained. -/
def inst (m : Module) (i owner : Nat) : Module :=
  (({ m with cul := { m.cul with instSizes := m.cul.instSizes.set i 256 } }.wr (R.INS_INST_STAT_STATE i) 2).wr
    (R.INS_INST_STAT_OWNER i) owner).wr (R.INS_INST_STAT_DRAINED i) 1

/-- A task of instance 1 with a TRIGGER operand of vat rate 0 and a LATEST one of subscription 2. -/
def task : TaskRec :=
  ⟨1, 0, 10, true, false, false, false, 0, 4, 1000000, 500000, 0xFFFFFFFF, 64, 64, 64, 64, 3, 0, 128, 0, 0, 0, [⟨1, 0, 0, 0, 0⟩, ⟨2, 2, 2, 0, 0⟩]⟩

/-- The module with that task as task 3, ENABLED, and its instance. -/
def tasked (m : Module) (r : TaskRec := task) : Module :=
  let m := inst m 1 0x100
  { m with cul := { m.cul with tasks := m.cul.tasks.set 3 r }, ladle := { m.ladle with tasks := m.ladle.tasks.set 3 (TaskSt.init true) } }

/-- A context of task 3. -/
def ctx : Ctx :=
  { task := 3, inst := 1, gen := 0, ct := 1000, level := 10, group := none, order := 0, retries := 0, present := 3, protectionClass := false
    epoch := 0, lay := ⟨64, 64, 64, 64, 128, 256, 64⟩, phase := .running, firstAt := some (3000000000 * nsUnit), missed := false
    g := [(1, 7), (2, 5), (3, 0xFFFFFFFFFFFFFFF8), (4, 64), (5, 8)], v := [(0, 0x3F800000), (8, 0x40000000), (9, 0xBF800000)], p := 5
    ib := 64, ii := 0, oi := 0, pc := 16, cs := 0, stack := [], inImg := [], outImg := [], instImg := [], loc := [], locBase := none
    dirtyOut := [], dirtyInst := [], staged := [] }

/-- The module with a context 2 of engine 0, which is in service. -/
def running (m : Module) (x : Ctx := ctx) : Module :=
  let m := tasked m
  { m with
    engines := m.engines.set 0 { Engine.init with state := .inService, ctxs := [(2, x)] }
    ladle := { m.ladle with tasks := m.ladle.tasks.set 3 { TaskSt.init true with running := some (0, 2) } } }

/-- Instruction fields. -/
def kw (a b c : BitVec 6) (sz : BitVec 2) (imm : BitVec 32) (qp : BitVec 3 := 0) : Kw := ⟨a, b, c, qp, false, sz, imm⟩

/-- The module with a link on a port. -/
def linked (m : Module) (p : Nat) : Module := (m.wr (R.MAC_STATUS_LINK p) 1).wr (R.MAC_STATUS_RATE p) 1

/-- A frame of 64 bytes from 02:00:00:00:00:01 to 02:00:00:00:00:02, and its copy in a queue. -/
def eth : Bytes := beBytes 6 0x020000000002 ++ beBytes 6 0x020000000001 ++ beBytes 2 0x0800 ++ List.replicate 46 7
def copy : Copy := ⟨eth, 1, 7, 0, 0, 0, none, 0, 1, false⟩

/-- The switch with ports 0 and 1 up and the frame's destination at port 1 in VLAN 1. -/
def switched (m : Module) : Module :=
  let m := linked (linked m 0) 1
  let m := [0, 1, 2, 3].foldl (fun m k => m.wr (R.SWC_MIR0_EN k) 0) m
  { m with sw := { m.sw with
      vlans := [(1, ⟨0xFFF, 0xFFF, 0xFFF, 0xFFF, 0, false⟩)]
      fdb := [(fdbKey 0x020000000002 1, ⟨1, 0, 0, false, true, 0, 0⟩)] } }

/-- An idle session of vat rate 3. -/
def session : Session :=
  { flags := 0, vrate := 3, group := 0, inst := 1, gmaster := false, trendK := 0, preNs := 0, postNs := 1000000, maxNs := 1000000000, slots := 64
    trendSlots := 0, chans := [], conds := [], state := .idle, armPending := false, disarm := false, haltCause := 0, rows := [], nextIdx := 0, armIdx := 0
    armRow := none, lastG := 0, recs := [], open_ := none, late := [], recno := 0, rdLog := 0, rdAt := 0, chg := 0, buf := 0, trend := [], trendIdx := 0
    tfrom := 0, tcount := 0, tq := 0, tacc := [] }

/-- An LST connection and a GOOSE subscription. -/
def conn : Conn := ⟨true, 0x010CCD040009, 1, 3, 0xFFFF, 0, none, [], 0, none, 0, 0, 4000000000, 2000000000, false, false, false, 0⟩
def gsub : GSubRec := ⟨0x010CCD010001, 1, 5, true, false, false, true, false, false, 2, 0xFFFF, 1, 0xFFFFFFFF, 0xFFFF, 1, asciiBytes "G", asciiBytes "D"⟩

/-- A signed image of 4,424 bytes whose one section has an unlisted TYPE: its header, then its signature by the key of the base point. -/
def imageHead : Bytes :=
  leBytes 4 0x5543545A ++ leBytes 2 1 ++ leBytes 2 1 ++ leBytes 4 4424 ++ leBytes 2 0x6432 ++ List.replicate 50 0 ++ ecBytes ecG ++
    List.replicate 128 0 ++ leBytes 2 200 ++ List.replicate 6 0 ++ leBytes 4 512 ++ List.replicate 52 0 ++ leBytes 4 0x06BDE2A9 ++ List.replicate 4 0
def image : Bytes :=
  imageHead ++ beBytes 32 0x6b17d1f2e12c4247f8bce6e563a440f277037d812deb33a0f4a13945d898c296 ++
    beBytes 32 0xf92edbf591d9fef2c16fb897cd62b3025be75ddf57558a625394788af62a7a27 ++ List.replicate 4032 0

/-- The module whose instance 1 belongs to function 1: its command, completion and receive queues and two export rings run, and its
table maps 32 pages. -/
def hosted (m : Module) : Module :=
  let m := ((inst m 1 0x101).wr (R.INS_INST_XLT_XLT_PAGES 1) 32).wr (R.INS_INST_STAT_DRAINED 1) 0
  let q : HQueue := { HQueue.init with en := true, log2 := 4 }
  { m with host := { m.host with
      xlt := (List.range 32).map fun p => (xltKey 1 p, 7)
      queues := [(8, { q with base := 0x1000, head := 0xFFFF, tail := 0xFFFF }), (9, { q with base := 0x2000, vector := 5 }),
        (10, { q with base := 0x3000, aux := 9216 }), (12, { q with base := 0x4000, aux := 0x8000 }), (15, { q with base := 0x6000, aux := 0x9000 })] } }

/-- A command entry of each opcode, an open transaction and a record of the event recorder. -/
def nop : CmdEntry := ⟨1, 3, 9, 0, 0, false⟩
def txn : Txn := ⟨[(0xA00000, 1)], none, 2000000000 * nsUnit, false, false⟩
def evRec : EvRec := ⟨0, 7, 5000000000, 3, 12, 0, 0xFFFF, 0xFFFF, 0, 0, []⟩

/-- The module as a member of a pair that knows its peer; and the payload of a heartbeat of the peer. -/
def member (m : Module) (role : Role) (p : Option Peer) : Module :=
  { m with red := { m.red with cfg := { m.red.cfg with pairMode := true }, role := role, serv := true, epoch := 5, bootId := 100, peer := p } }
def heart (claim : Nat) : Bytes :=
  [1, 1] ++ beBytes 2 1 ++ [1, 0, 0, 0] ++ beBytes 4 claim ++ beBytes 4 7 ++ beBytes 4 0 ++ beBytes 8 50 ++ List.replicate 20 0

/-! ### Operand ranges -/

/-- The last value that each check takes, and the first that it refuses (1). -/
theorem test_wf_1 :
    (Instr.regWrite 255 0 0).wf = true ∧ (Instr.regWrite 256 0 0).wf = false ∧
    (Instr.stageGo 0 4095).wf = true ∧ (Instr.stageGo 0 4096).wf = false ∧
    (Instr.linkUp 10).wf = true ∧ (Instr.linkUp 11).wf = false ∧
    (Instr.minCellsWrite 11 0 0).wf = true ∧ (Instr.minCellsWrite 12 0 0).wf = false ∧
    (Instr.tick 8191 0).wf = true ∧ (Instr.tick 8192 0).wf = false ∧
    (Instr.groupWindowEnd 255).wf = true ∧ (Instr.groupWindowEnd 256).wf = false ∧
    (Instr.captureDone 31 0 .clean .clean []).wf = true ∧ (Instr.captureDone 32 0 .clean .clean []).wf = false ∧
    (Instr.captureDone 0 3 .clean .clean []).wf = true ∧ (Instr.captureDone 0 4 .clean .clean []).wf = false ∧
    (Instr.heartbeatSend 1).wf = true ∧ (Instr.heartbeatSend 2).wf = false ∧
    (Instr.start 0 7).wf = true ∧ (Instr.start 0 8).wf = false ∧
    (Instr.txnBegin 7).wf = true ∧ (Instr.txnBegin 8).wf = false ∧
    (Instr.arm 15).wf = true ∧ (Instr.arm 16).wf = false := by
  decide

/-- The last value that each check takes, and the first that it refuses (2). -/
theorem test_wf_2 :
    (Instr.release 0 63).wf = true ∧ (Instr.release 0 64).wf = false ∧
    (Instr.recordRead 0 0 2 0).wf = true ∧ (Instr.recordRead 0 0 3 0).wf = false ∧
    (Instr.sfpDiagRead 0 65535 0 false).wf = true ∧ (Instr.sfpDiagRead 0 65536 0 false).wf = false ∧
    (Instr.pauseExpiry 0 7).wf = true ∧ (Instr.pauseExpiry 0 8).wf = false ∧
    (Instr.learnAgeOut 281474976710655 0).wf = true ∧ (Instr.learnAgeOut 281474976710656 0).wf = false ∧
    (Instr.learnAgeOut 0 4095).wf = true ∧ (Instr.learnAgeOut 0 4096).wf = false ∧
    (Instr.resetExit 255 0 0 0).wf = true ∧ (Instr.resetExit 256 0 0 0).wf = false ∧
    (Instr.gooseTalExpiry 8191).wf = true ∧ (Instr.gooseTalExpiry 8192).wf = false ∧
    (Instr.gooseRepeat 2047).wf = true ∧ (Instr.gooseRepeat 2048).wf = false ∧
    (Instr.lstRefresh 1023).wf = true ∧ (Instr.lstRefresh 1024).wf = false ∧
    (Instr.chainOutput 65535).wf = true ∧ (Instr.chainOutput 65536).wf = false ∧
    (Instr.readinessSet 15).wf = true ∧ (Instr.readinessSet 16).wf = false := by
  decide

/-- The last value that each check takes, and the first that it refuses (3). -/
theorem test_wf_3 :
    (Instr.stageGo 1 0).wf = true ∧ (Instr.stageGo 2 0).wf = false ∧
    (Instr.sourceLost 3).wf = true ∧ (Instr.sourceLost 4).wf = false ∧
    (Instr.derive 1023 0 none).wf = true ∧ (Instr.derive 1024 0 none).wf = false ∧
    (Instr.violationWindowExpiry 4351).wf = true ∧ (Instr.violationWindowExpiry 4352).wf = false ∧
    (Instr.tblRead 3 0).wf = true ∧ (Instr.tblRead 4 0).wf = false ∧
    (Instr.chainSwitch 0 0 3 0 0).wf = true ∧ (Instr.chainSwitch 0 0 4 0 0).wf = false ∧
    (Instr.chainSwitch 0 0 0 1023 0).wf = true ∧ (Instr.chainSwitch 0 0 0 1024 0).wf = false ∧
    (Instr.scrubVisit 5 .clean 0 0 0).wf = true ∧ (Instr.scrubVisit 6 .clean 0 0 0).wf = false ∧
    (Instr.shadowRepair 7 0 0).wf = true ∧ (Instr.shadowRepair 8 0 0).wf = false ∧
    (Instr.cageSignalChange 0 false false false false 7).wf = true ∧ (Instr.cageSignalChange 0 false false false false 8).wf = false ∧
    (Instr.pcieLinkTrained 16 0 0 0).wf = true ∧ (Instr.pcieLinkTrained 17 0 0 0).wf = false ∧
    (Instr.healthWindowEnd 4).wf = true ∧ (Instr.healthWindowEnd 5).wf = false := by
  decide

/-- The last value that each check takes, and the first that it refuses (4). -/
theorem test_wf_4 :
    (Instr.forceEnable 255 0).wf = true ∧ (Instr.forceEnable 256 0).wf = false ∧
    (Instr.olcWindowWrite 7 0 0).wf = true ∧ (Instr.olcWindowWrite 8 0 0).wf = false ∧
    (Instr.qcfgWrite 0 5 0).wf = true ∧ (Instr.qcfgWrite 0 6 0).wf = false ∧
    (Instr.olcWindowWrite 0 16383 0).wf = true ∧ (Instr.olcWindowWrite 0 16384 0).wf = false ∧
    (Instr.tick 0 7).wf = true ∧ (Instr.tick 0 8).wf = false ∧
    (Instr.crcFeed 0 0 4 0).wf = true ∧ (Instr.crcFeed 0 0 5 0).wf = false ∧
    (Instr.shareWrite 0 2 0).wf = true ∧ (Instr.shareWrite 0 3 0).wf = false ∧
    (Instr.pcieLinkTrained 0 7 0 0).wf = true ∧ (Instr.pcieLinkTrained 0 8 0 0).wf = false ∧
    (Instr.vcNowRead 0 3).wf = true ∧ (Instr.vcNowRead 0 4).wf = false ∧
    (Instr.regWrite 0 4294967295 0).wf = true ∧ (Instr.regWrite 0 4294967296 0).wf = false ∧
    (Instr.eapolFrame 0 (some 3) false 0).wf = true ∧ (Instr.eapolFrame 0 (some 4) false 0).wf = false := by
  decide

/-! ### Examples of the spec -/

/-- The example after R14: received 1,024 ns later, although the raw value is smaller. -/
theorem test_ts32 : tsDiff 0x00000300 0xFFFFFF00 = 1024 ∧ tsLater 0x00000300 0xFFFFFF00 = true := by decide

/-- The example after R45: a record of 1,024 bytes applies in 34 cycles. -/
theorem test_apply_cycles : recCycles ⟨1, 0, none, 3, 5, 1024, [], 0, 2, 0, 0, .cycle⟩ = 34 := by decide

/-- The first offset of the example after R187. -/
theorem test_servo_first :
    let m := base.servo (300 * 65536) 1000000000
    m.tim.incr = 17179864030 ∧ m.tim.integ = 90 * 65536 + 60 := by decide +kernel

/-- An offset of the same example, from the state that its table gives before it. -/
theorem test_servo_fourth :
    ({ base with tim := { base.tim with integ := 10027110 } }.servo (15 * 65536) 1000000000).tim.incr = 17179866298 := by decide +kernel

/-- The example of Check-Value Units: CRC-32C of "123456789". -/
theorem test_crc32c : crc32c (asciiBytes "123456789") = 0xE3069283 := by decide +kernel

/-- Its last two steps on unit 5: the final value after the feeds. -/
theorem test_crc_unit :
    let u := base.crcSet 5
    u.final (u.feeds (u.feeds (u.feeds u.init (leBytes 4 0x34333231)) (leBytes 4 0x38373635)) (leBytes 1 0x39)) = 0xE3069283 := by
  decide +kernel

/-- The same with the tag of its last sentence, folded after START. -/
theorem test_crc_tag : (base.crcSet 5).fold 0 0x0000000100000040 = 0x41 := by decide +kernel

/-- The examples of the Address Map: a register of an array, and a word of engine 13 in the debug window. -/
theorem test_addresses : (R.SWC_Q_CREDIT_CREDIT 4 5).addr = 0x004014B0 ∧ 0x02000000 + 13 * 0x80000 + 0x20000 = 0x026A0000 := by decide

/-- The claims of the example after R394. -/
theorem test_claims :
    ((member base .active (some ⟨1, 0, 0, 50, 0⟩)).wr R.RED_PENALTY_HEALTH 255).claim = 0xE0FF0005 ∧
    claimWins 0xC0FF1235 0xE0FF1234 = true ∧ claimWins 0xA0FF1235 0xC0FF1235 = false ∧ claimWins 0 0xC0FF1235 = false ∧
    claimWins 0xE0FF1236 0xC0FF1235 = true := by decide +kernel

/-- The fields of ADD g1, g2, g3 and of BR -8 as Table 11.1 places them. -/
theorem test_instruction_words :
    kFields (0x01 <<< 56 ||| 1 <<< 50 ||| 2 <<< 44 ||| 3 <<< 38) = (0x01, kw 1 2 3 0 0) ∧
    kFields (0x80 <<< 56 ||| 5 <<< 35 ||| 1 <<< 34 ||| 0xFFFFFFF8) = (0x80, ⟨0, 0, 0, 5, true, 0, 0xFFFFFFF8⟩) := by decide

/-- SHA-256 of "abc" (FIPS 180-4, which R98 names). -/
theorem test_sha256 : ofBe (sha256 (asciiBytes "abc")) =
    0xba7816bf8f01cfea414140de5dae2223b00361a396177a9cb410ff61f20015ad := by decide +kernel

/-! ### Staging -/

/-- The header of the image above passes the checks of Table 4.3 that no owner slot decides. -/
theorem image_header : base.headerCheck image = 0 := by decide +kernel

/-- Its section table and its one section are good. -/
theorem image_sections : sectionsGood image = true ∧ image.take (leAt image 8 4) = image ∧ leAt image 8 4 = 4424 := by decide +kernel

/-- So it passes on every module whose OTP names no owner. -/
theorem image_good (m : Module) (h : m.owned = false) : m.headerCheck image = 0 ∧ m.copyCheck image = none := by
  have hb := image_header
  have ho : base.owned = false := by decide +kernel
  have e : m.headerCheck image = 0 := by
    have eo : m.ownerOk image = base.ownerOk image := by simp only [Module.ownerOk, h, ho, Bool.not_false, Bool.true_or]
    rw [← hb]
    simp only [Module.headerCheck, eo]
  refine ⟨e, ?_⟩
  unfold Module.copyCheck
  simp only [e, image_sections.1, ne_eq, not_true_eq_false, if_false, if_true]

/-- The module that stages that image as Culture B while Culture A holds it. -/
def staging : Module :=
  { ((hosted base).wr (R.INS_INST_STAT_OWNER 1) 0x100).wr R.CFG_STAGE_LEN_LEN 4424 with
    sys := { base.sys with staging := some ⟨1, 1, 0⟩ }, persist := { base.persist with flashA := image } }

/-- The hypotheses of the last clause of TestAndStaging hold together. -/
theorem witness_TestAndStaging_image :
    let s := st staging
    s.m.sys.staging = some ⟨1, 1, 0⟩ ∧ (1 : Nat) < 2 ∧
    s.m.reachable 1 (s.m.rd64 R.CFG_STAGE_ADDR_LO_ADDR R.CFG_STAGE_ADDR_HI_ADDR) (s.m.rd R.CFG_STAGE_LEN_LEN) false = true ∧
    s.m.headerCheck image = 0 ∧ s.m.rd R.CFG_STAGE_LEN_LEN = leAt image 8 4 ∧ s.m.copyCheck (s.m.flash (1 - 1)) = none ∧
    s.m.copyCheck (image.take (leAt image 8 4)) = none ∧ s.wf = true := by
  have g := image_good staging (by decide +kernel)
  refine ⟨by decide +kernel, by decide, by decide +kernel, g.1, ?_, g.2, ?_, by decide +kernel⟩
  · rw [image_sections.2.2]
    decide +kernel
  · rw [image_sections.2.1]
    exact g.2

/-! ### Hypotheses that hold -/

/-- The hypotheses of StepFront hold together: a state and operands for each clause. -/
theorem witness_StepFront :
    ((st base).pending = []) := by
  decide +kernel

/-- The hypotheses of StepKeepsCanonical hold together: a state and operands for each clause. -/
theorem witness_StepKeepsCanonical :
    (let s : State := st (running base)
     s.wf = true) := by
  decide +kernel

/-- The hypotheses of IntegerRows hold together: a state and operands for each clause. -/
theorem witness_IntegerRows :
    (let s : State := st (running base)
     ∀ r ∈ intRows, ∃ w ∈ [kw 1 2 3 0 0, kw 1 2 0 0 63, kw 1 0 0 0 63], acts s 0 2 ctx r.1.2 w) ∧
    (let s : State := st (running base)
     acts s 0 2 ctx 0x05 (kw 1 2 1 0 0) ∧ ctx.getG 1 ≠ 0 ∧ acts s 0 2 ctx 0x06 (kw 1 2 1 0 0) ∧ acts s 0 2 ctx 0x05 (kw 1 2 6 0 0) ∧
       ctx.getG 6 = 0 ∧ acts s 0 2 ctx 0x06 (kw 1 2 0 0 0) ∧ ctx.getG 0 = 0) ∧
    (let s : State := st (running base)
     acts s 0 2 ctx 0x19 (kw 7 2 1 0 5) ∧ acts s 0 2 ctx 0x1A (kw 7 2 5 0 0x80000000) ∧ acts s 0 2 ctx 0x1B (kw 7 2 1 0 3)) ∧
    (let s : State := st (running base)
     ∀ r ∈ moveRows, ∃ w ∈ [kw 1 2 3 0 0, kw 1 2 3 0 1, kw 1 2 0 0 0, kw 1 0 0 0 0, kw 0 2 0 0 0, kw 0 0 0 0 0, kw 0 2 0 0 1], acts s 0 2 ctx r.1.2 w) :=
  ⟨by decide +kernel, by decide +kernel, by decide +kernel, by decide +kernel⟩

/-- The hypotheses of FloatRows hold together: a state and operands for each clause. -/
theorem witness_FloatRows :
    (let s : State := st (running base)
     (∀ r ∈ floatRows, ∃ w ∈ [kw 1 2 3 0 0, kw 1 2 0 0 0], acts s 0 2 ctx r.1.2 w) ∧
       (∀ r ∈ laneRows, acts s 0 2 ctx r.1.2 (kw 1 2 3 0 0)) ∧ ∀ r ∈ complexRows, ∃ w ∈ [kw 1 2 3 0 0, kw 1 2 0 0 0], acts s 0 2 ctx r.1.2 w) := by
  decide +kernel

/-- The hypotheses of Qualification hold together: a state and operands for each clause. -/
theorem witness_Qualification :
    (let s : State := st (running base)
     (∀ r ∈ plainRows, ∃ w ∈ [kw 1 2 3 0 0 1, kw 1 2 0 0 0 1, kw 1 0 0 0 0 1, kw 0 2 0 0 0 1, kw 0 0 0 0 0 1, kw 0 0 0 0 1 1, kw 0 2 8 0 0 1, kw 0 2 3 0 0 1, kw 1 2 3 2 0 1, kw 0 2 0 2 0 1, kw 1 2 3 0 8 1],
         issues s 0 2 ctx ∧ kEncodingOk r.2 w = true ∧ ctx.qualified w = false) ∧
       ∀ r ∈ readRows, ∃ w ∈ [kw 1 2 3 0 0 1, kw 1 2 0 0 0 1, kw 1 2 4 2 0 1, kw 0 2 3 0 64 1], issues s 0 2 ctx ∧ kEncodingOk r.2 w = true ∧ ctx.qualified w = false) ∧
    (let s : State := st (running base)
     issues s 0 2 ctx ∧ kEncodingOk (kFields 0).1 (kFields 0).2 = false ∧ kEncodingOk (kFields (2 ^ 64 - 1)).1 (kFields (2 ^ 64 - 1)).2 = false ∧
       ∀ r ∈ plainRows, kEncodingOk r.2 (kw 63 63 63 3 0xFFFFFFFF) = false) :=
  ⟨by decide +kernel, by decide +kernel⟩

/-- The hypotheses of Loads hold together: a state and operands for each clause. -/
theorem witness_Loads :
    (let s : State := st (running base)
     (∀ sp ∈ [(0 : BitVec 6), 1, 2, 3, 4], acts s 0 2 ctx 0x60 (kw 1 5 sp 3 0)) ∧ acts s 0 2 ctx 0x60 (kw 1 5 9 0 0xFFFFFFFF) ∧
       acts s 0 2 ctx 0x62 (kw 1 0 0 2 0) ∧ acts s 0 2 ctx 0x62 (kw 31 0 4 2 32)) := by
  decide +kernel

/-- The hypotheses of Stores hold together: a state and operands for each clause. -/
theorem witness_Stores :
    (let s : State := st (running base)
     acts s 0 2 ctx 0x61 (kw 1 5 0 3 0) ∧ acts s 0 2 ctx 0x61 (kw 1 5 2 0 63) ∧ acts s 0 2 ctx 0x63 (kw 1 0 3 2 96) ∧
       acts s 0 2 ctx 0x63 (kw 31 0 1 2 0)) := by
  decide +kernel

/-- The hypotheses of StoreFrame hold together: a state and operands for each clause. -/
theorem witness_StoreFrame :
    (SMap.memWf ctx.instImg = true ∧ SMap.memWf ctx.outImg = true) := by
  decide +kernel

/-- The hypotheses of GlobalReads hold together: a state and operands for each clause. -/
theorem witness_GlobalReads :
    (let s : State := st (running base)
     ∀ r ∈ askRows, ∃ w ∈ [kw 1 0 0 0 0, kw 1 2 3 0 0, kw 1 2 0 0 0], acts s 0 2 ctx r.1.2 w) ∧
    (let x := { ctx with phase := .waiting (.clock 1 0) }
     let s : State := st (running base x)
     s.m.ctx? 0 2 = some x ∧ x.phase = .waiting (.clock 1 0)) ∧
    (let x := { ctx with phase := .waiting (.constLd 1 0 8 false) }
     let s : State := st (running base x)
     s.m.ctx? 0 2 = some x ∧ x.phase = .waiting (.constLd 1 0 8 false) ∧ ReadErr.clean.isUe = false) ∧
    (let x := { ctx with phase := .waiting (.crc 1 7 9) }
     let s : State := st (running base x)
     s.m.ctx? 0 2 = some x ∧ x.phase = .waiting (.crc 1 7 9)) :=
  ⟨by decide +kernel, by decide +kernel, by decide +kernel, by decide +kernel⟩

/-- The hypotheses of Timers hold together: a state and operands for each clause. -/
theorem witness_Timers :
    (let s : State := st (running base)
     acts s 0 2 ctx 0x70 (kw 1 0 1 0 0) ∧ acts s 0 2 ctx 0x71 (kw 9 0 1 0 16) ∧ acts s 0 2 ctx 0x72 (kw 63 0 1 0 48) ∧
       acts s 0 2 ctx 0x74 (kw 1 0 2 0 0) ∧ acts s 0 2 ctx 0x74 (kw 1 0 2 2 60)) := by
  decide +kernel

/-- The hypotheses of Control hold together: a state and operands for each clause. -/
theorem witness_Control :
    (let s : State := st (running base)
     acts s 0 2 ctx 0x81 (kw 0 4 0 0 8) ∧ acts s 0 2 ctx 0x82 (kw 0 0 0 0 8) ∧ acts s 0 2 ctx 0x83 (kw 0 0 0 0 4) ∧ acts s 0 2 ctx 0x84 (kw 0 0 0 0 0) ∧
       acts s 0 2 ctx 0x85 (kw 0 0 0 0 0xFFFF)) ∧
    ((BitVec.toNat (64 : BitVec 64)) % 8 = 0 ∧ ({ ctx with stack := List.replicate 63 ⟨0, 0, 0, 0, 1⟩ } : Ctx).stack.length < 64 ∧ ctx.p.getLsbD 0 = true) :=
  ⟨by decide +kernel, by decide +kernel⟩

/-- The hypotheses of RecordEntries hold together: a state and operands for each clause. -/
theorem witness_RecordEntries :
    (let s : State := st (running base)
     (∀ r ∈ stageRows, ∃ w ∈ [kw 1 2 0 2 0, kw 0 0 0 0 0, kw 0 2 8 0 0, kw 1 2 0 2 0xFFFF], acts s 0 2 ctx r.1.2 w) ∧
       acts s 0 2 ctx 0x92 (kw 0 2 3 0 64) ∧ acts s 0 2 ctx 0xB0 (kw 0 2 0 0 0xFFFF)) := by
  decide +kernel

/-- The hypotheses of CommitDrop hold together: a state and operands for each clause. -/
theorem witness_CommitDrop :
    (let s : State := st (running base)
     acts s 0 2 ctx 0x95 (kw 0 0 0 0 0) ∧ acts s 0 2 ctx 0x96 (kw 0 0 0 0 0)) := by
  decide +kernel

/-- The hypotheses of CheckValueRows hold together: a state and operands for each clause. -/
theorem witness_CheckValueRows :
    (let s : State := st (running (base.wr (R.CRC_OWNER_OWNER 7) 0))
     (∀ r ∈ crcRows, ∃ w ∈ [kw 1 0 0 0 7, kw 1 2 0 0 7], acts s 0 2 ctx r.1.2 w) ∧ (s.m.capturePoint 0 2 ctx).crcForEngines 7 = true ∧
       acts s 0 2 ctx 0xA2 (kw 1 2 3 3 7) ∧ (s.m.capturePoint 0 2 ctx).crcForEngines (BitVec.toNat (7 : BitVec 32) % 8) = true) ∧
    (let s : State := st (running (base.wr (R.CRC_OWNER_OWNER 7) 0x100))
     (∀ r ∈ crcRows, ∃ w ∈ [kw 1 0 0 0 7, kw 1 2 0 0 7], acts s 0 2 ctx r.1.2 w) ∧ (s.m.capturePoint 0 2 ctx).crcForEngines 7 = false) :=
  ⟨by decide +kernel, by decide +kernel⟩

/-- The hypotheses of ExceptionEntry hold together: a state and operands for each clause. -/
theorem witness_ExceptionEntry :
    (let m := running (base.wr R.BEN_EXC_WR_NEXT 255)
     SMap.rising m.regs = true ∧ m.rd R.BEN_EXC_WR_NEXT < 256) := by
  decide +kernel

/-- The hypotheses of Resets hold together: a state and operands for each clause. -/
theorem witness_Resets :
    (let s : State := st Module.reset
     let rested := false
     s.m.sys.latched = true → rested = true) ∧
    (let s : State := st { base with sys := { base.sys with latched := true } }
     let rested := true
     s.m.sys.latched = true → rested = true) ∧
    (let s : State := st base
     s.m.sys.off = false) ∧
    (let s : State := st base
     s.m.sys.off = false ∧ s.m.sys.resetWord = none) ∧
    (let s : State := st { base with sys := { base.sys with resetWord := some (base.mono - 1000000 * nsUnit) } }
     let t := s.m.mono - 1000000 * nsUnit
     s.m.sys.off = false ∧ s.m.sys.resetWord = some t ∧ s.m.mono ≤ t + 1000000 * nsUnit) ∧
    (let s : State := st { base with mode := .flush }
     s.m.mode = .flush) :=
  ⟨by decide +kernel, by decide +kernel, by decide +kernel, by decide +kernel, by decide +kernel, by decide +kernel⟩

/-- The hypotheses of ResetCauses hold together: a state and operands for each clause. -/
theorem witness_ResetCauses :
    (let s : State := st (base.wr R.SYS_RESET_CAUSE_PLL_STK 1)
     let rested := true
     (s.m.sys.latched = true → rested = true) ∧ s.m.sys.off = false ∧ ∀ f ∈ causeBits, s.m.rd f < 2) ∧
    (let s : State := st (base.wr R.SYS_RESET_CAUSE_PLL_STK 1)
     s.m.sys.off = false) :=
  ⟨by decide +kernel, by decide +kernel⟩

/-- The hypotheses of ResetExit hold together: a state and operands for each clause. -/
theorem witness_ResetExit :
    (let s : State := st Module.reset
     s.m.mode = .reset ∧ s.m.sys.off = false ∧ s.m.sys.held = false ∧ 34500 ≤ 34500 ∧ 11040 ≤ 11040 ∧ 12960 ≤ 12960 ∧ SMap.rising s.m.regs = true) := by
  decide +kernel

/-- The hypotheses of Flush hold together: a state and operands for each clause. -/
theorem witness_Flush :
    (let s : State := st base
     s.m.sys.off = false ∧ s.m.mode ≠ .reset ∧ s.m.mode ≠ .flush) ∧
    (let s : State := st base
     let die : Int := 120
     120 ≤ die ∧ s.m.sys.off = false ∧ s.m.mode ≠ .reset ∧ s.m.mode ≠ .flush) ∧
    (let s : State := st { base with mode := .flush }
     s.m.mode = .flush ∧ s.m.sys.off = false ∧ s.m.sys.trip = false) ∧
    (let s : State := st { base with mode := .flush, sys := { base.sys with trip := true } }
     s.m.mode = .flush ∧ s.m.sys.off = false ∧ s.m.sys.trip = true) :=
  ⟨by decide +kernel, by decide +kernel, by decide +kernel, by decide +kernel⟩

/-- The hypotheses of Monitors hold together: a state and operands for each clause. -/
theorem witness_Monitors :
    (let s : State := st base
     s.m.mode ≠ .reset ∧ s.m.mode ≠ .flush ∧ 34499 < 34500 ∧ s.wf = true) ∧
    (let s : State := st base
     s.m.mode ≠ .reset ∧ 34500 ≤ 34500 ∧ s.wf = true) ∧
    (let s : State := st base
     s.m.mode ≠ .reset ∧ s.m.sys.off = false ∧ s.m.sys.failedChecks = 0) ∧
    (let s : State := st { base with sys := { base.sys with failedChecks := 1 } }
     s.m.mode ≠ .reset ∧ s.m.sys.off = false ∧ s.m.sys.failedChecks = 1) ∧
    (let s : State := st base
     let die : Int := 100
     100 ≤ die ∧ s.m.sys.off = false ∧ s.m.sys.warn = false ∧ s.wf = true) ∧
    (let s : State := st { base with sys := { base.sys with warn := true } }
     let die : Int := 95
     die ≤ 95 ∧ s.m.sys.off = false) ∧
    (let s : State := st base
     let die : Int := 110
     110 ≤ die ∧ s.m.sys.off = false ∧ (s.m.mode = .active ∨ s.m.mode = .standby ∨ s.m.mode = .ripen)) ∧
    (let s : State := st { base with mode := .load }
     s.m.mode = .load) ∧
    (let s : State := st base
     s.m.mode = .active) ∧
    (let s : State := st base
     s.m.mode ≠ .reset ∧ 255 < 256 ∧ s.m.rd R.SYS_SEAL_NOW ≠ 255 ∧ s.wf = true) :=
  ⟨by decide +kernel, by decide +kernel, by decide +kernel, by decide +kernel, by decide +kernel, by decide +kernel, by decide +kernel, by decide +kernel, by decide +kernel, by decide +kernel⟩

/-- The hypotheses of ClockReads hold together: a state and operands for each clause. -/
theorem witness_ClockReads :
    (let s : State := st (base.wr (R.TIM_VC_CFG_EN 3) 1)
     s.m.mode ≠ .reset ∧ s.m.rd (R.TIM_VC_CFG_EN 3) = 1) ∧
    (let s : State := st (base.wr (R.TIM_VC_CFG_EN 3) 1)
     s.m.mode ≠ .reset ∧ s.m.rd (R.TIM_VC_CFG_EN 3) = 1) ∧
    (let s : State := st base
     s.m.mode ≠ .reset ∧ s.m.rd (R.TIM_VC_CFG_BIND 3) = 0 ∧ 3 < 4 ∧ s.wf = true ∧ -(2 ^ 63) ≤ s.m.vcNow 3 - s.m.tns ∧ s.m.vcNow 3 - s.m.tns < 2 ^ 63) ∧
    (let s : State := st { base with wlatch := [(2 ^ 33 + 0x200164, 0xFFFFFFFF)] }
     s.m.mode ≠ .reset ∧ s.m.rd (R.TIM_VC_CFG_BIND 3) = 0 ∧ 3 < 4 ∧ s.wf = true ∧ s.m.wlatch.get? (1 * 2 ^ 33 + (0x200104 + 0x20 * 3)) = some 0xFFFFFFFF ∧ 0xFFFFFFFF < 2 ^ 32) :=
  ⟨by decide +kernel, by decide +kernel, by decide +kernel, by decide +kernel⟩

/-- The hypotheses of TimeSources hold together: a state and operands for each clause. -/
theorem witness_TimeSources :
    (let s : State := st base
     let o : TimeOffset := ⟨1, 65536, 1000000000, none⟩
     let x : PtpMsg := ⟨9, 0, true, 0, some o, none, []⟩
     s.m.ready 0 = true ∧ x.sound = true ∧ bitOf s.m.tim.cfg.ptpPorts x.port = true ∧ x.domain = s.m.tim.cfg.domain ∧ x.replies = [] ∧ x.offset = some o ∧ s.wf = true) ∧
    (let s : State := st ((({ base with tim := { base.tim with cfg := { base.tim.cfg with role := 1 } } }).wr R.TIM_PTP_PORTS_STATE (2 * 2 ^ 18)).wr (R.MAC_STATUS_LINK 9) 1)
     s.m.tim.cfg.role = 1 ∧ bitOf s.m.tim.cfg.ptpPorts 9 = true ∧ bitsOf (s.m.rd R.TIM_PTP_PORTS_STATE) (2 * 9) 2 = 2 ∧ s.m.linkUp 9 = true ∧ s.m.ready 0 = true) ∧
    (let s : State := st base
     s.m.mode ≠ .reset ∧ s.m.ready 0 = true ∧ s.wf = true) ∧
    (let s : State := st { base with tim := { base.tim with runs := [(1, ⟨0, base.mono, true⟩)] } }
     let r : SrcRun := ⟨0, base.mono, true⟩
     s.m.tim.runs.get? 1 = some r ∧ s.m.sys.still = false) :=
  ⟨by decide +kernel, by decide +kernel, by decide +kernel, by decide +kernel⟩

/-- The hypotheses of ServoEquations hold together: a state and operands for each clause. -/
theorem witness_ServoEquations :
    (let o : TimeOffset := ⟨3, -655359, 125000000, none⟩
     let r : SrcRun := ⟨0, base.mono, true⟩
     let s : State := st { base.wr R.TIM_LOCK_SRC_EN 7 with tim := { base.tim with runs := [(3, r)], selected := some 3, ever := true, offsets := [o] } }
     s.m.tim.offsets = [o] ∧ s.m.tim.selected = some o.src ∧ s.m.bestSrc = some o.src ∧ s.m.ready 0 = true ∧ s.m.mode ≠ .reset ∧ s.m.tim.runs.get? o.src = some r ∧ r.qualified = true ∧
       s.m.mono < r.last + s.m.rd R.TIM_HOLD_HOLD_TMO_MS * 1000000 * nsUnit ∧ o.utc = none ∧ o.theta.natAbs < s.m.rd R.TIM_STEP_NS_STEP_NS * 65536) := by
  decide +kernel

/-- The hypotheses of HaulatoBus hold together: a state and operands for each clause. -/
theorem witness_HaulatoBus :
    (let s : State := st (base.wr R.TIM_HOLD_HAUL_ORIG 0)
     s.m.mode ≠ .reset ∧ s.m.haulOrig = false) ∧
    (let body : Bytes := beBytes 1 1 ++ beBytes 6 5 ++ beBytes 4 0 ++ beBytes 1 15 ++ beBytes 1 0 ++ beBytes 2 37
     let b : Bytes := [0xA5] ++ body ++ beBytes 2 (crc16 body)
     let s : State := st { base with tim := { base.tim with edge := some 5000000000 } }
     s.m.mode ≠ .reset ∧ s.m.haulOrig = false ∧ b.length = 18 ∧ haulOk b 1 = true ∧ beAt b 12 1 < 16 ∧ beAt b 13 1 % 4 < 2 ∧ s.m.tim.edge = some 5000000000 ∧ s.m.ready 0 = true) ∧
    (let s : State := st (base.wr R.TIM_HOLD_HAUL_ORIG 1)
     s.m.mode ≠ .reset ∧ s.m.haulOrig = true) ∧
    (let s : State := st base
     s.m.mode ≠ .reset) ∧
    (let b : Bytes := echoFrame 6 7
     let s : State := st { base with tim := { base.tim with echo := some (7, 4999990001) } }
     s.m.tim.echo = some (beAt b 2 2, 4999990001) ∧ b.length = 6 ∧ haulOk b 6 = true ∧ 4999990001 ≤ 5000000000 ∧ 5000000000 < 4999990001 + 10000 ∧ s.wf = true) ∧
    (let s : State := st { base with tim := { base.tim with echo := some (7, 4999990001), echoFails := 2 } }
     s.m.tim.echo = some (7, 4999990001) ∧ s.wf = true ∧ 2 ≤ s.m.tim.echoFails) ∧
    (let b : Bytes := echoFrame 5 7
     let s : State := st base
     s.m.mode ≠ .reset ∧ b.length = 6 ∧ haulOk b 5 = true ∧ s.wf = true) ∧
    (let s : State := st (base.wr R.SYS_HAUL_OUT_LINK 1)
     s.m.rd R.SYS_HAUL_OUT_LINK = 1 ∧ s.wf = true) :=
  ⟨by decide +kernel, by decide +kernel, by decide +kernel, by decide +kernel, by decide +kernel, by decide +kernel, by decide +kernel, by decide +kernel⟩

/-- The hypotheses of PortEvents hold together: a state and operands for each clause. -/
theorem witness_PortEvents :
    (let s : State := st base
     9 < 10 ∧ s.wf = true) ∧
    (let s : State := st (base.wr (R.MAC_STATUS_MOD_PRESENT 9) 1)
     9 < 10 ∧ s.wf = true ∧ s.m.rd (R.MAC_STATUS_MOD_PRESENT 9) = 1) ∧
    (let s : State := st (linked base 9)
     9 < 10 ∧ s.wf = true ∧ s.m.mode ≠ .reset) ∧
    (let s : State := st { ((base.wr (R.MAC_STATUS_MOD_PRESENT 9) 1).wr (R.MAC_CTRL_EN 9) 1).wr (R.MAC_CTRL_SPEED 9) 1 with sw := { base.sw with declared := [(9, 7)] } }
     9 < 10 ∧ s.wf = true ∧ s.m.mayLink 9 = true ∧ s.m.rd (R.MAC_STATUS_LINK 9) = 0) ∧
    (let s : State := st (linked base 9)
     9 < 10 ∧ s.wf = true ∧ s.m.rd (R.MAC_STATUS_LINK 9) = 1 ∧ s.m.rd (R.MAC_HOLD_HOLD_US 9) ≠ 0) ∧
    (let s : State := st { base.wr (R.MAC_STATUS_HOLDING 9) 1 with sw := { base.sw with holdEnd := [(9, base.mono + 1)], queues := [(79, [copy])] } }
     9 < 10 ∧ s.wf = true ∧ s.m.sw.holdEnd.get? 9 = some (base.mono + 1) ∧ s.m.sys.still = false ∧ SMap.rising s.m.sw.queues = true) ∧
    (let s : State := st { (linked base 9).wr (R.MAC_CTRL_MACSEC_EN 9) 1 with keys := { base.keys with ports := [(9, ⟨some 1023, 0, []⟩)], slots := [(1023, { KeySlot.init with state := .ready, attr := 2 })] } }
     9 < 10 ∧ s.wf = true ∧ (s.m.keys.ports.get? 9).bind (·.cak) = some 1023 ∧ (s.m.slot 1023).state = .ready ∧ (s.m.slot 1023).attr = 2 ∧ s.m.ready 12 = true ∧
       s.m.rd (R.MAC_CTRL_MACSEC_EN 9) = 1 ∧ s.m.rd (R.MAC_STATUS_LINK 9) = 1) :=
  ⟨by decide +kernel, by decide +kernel, by decide +kernel, by decide +kernel, by decide +kernel, by decide +kernel, by decide +kernel⟩

/-- The hypotheses of PortQueues hold together: a state and operands for each clause. -/
theorem witness_PortQueues :
    (let s : State := st (((linked base 9).wr (R.MAC_PAUSE_CFG_RX_PAUSE_EN 9) 1).wr (R.MAC_PAUSE_CFG_IGN_PAUSE 9) 0)
     9 < 10 ∧ 65535 ≠ 0 ∧ s.m.rd (R.MAC_STATUS_LINK 9) = 1 ∧ s.m.rd (R.MAC_PAUSE_CFG_RX_PAUSE_EN 9) = 1 ∧ s.m.rd (R.MAC_PAUSE_CFG_IGN_PAUSE 9) = 0) ∧
    (let s : State := st { base with sw := { base.sw with pauses := [(79, base.mono + 1)] } }
     s.m.sw.pauses.get? (8 * 9 + 7) = some (base.mono + 1) ∧ s.m.sys.still = false) ∧
    (let s : State := st { base with sw := { base.sw with tsq := [(9, [[1, 2], [3, 4]])] } }
     s.m.mode ≠ .reset) ∧
    (let s : State := st ((linked (linked base 8) 9).wr (R.MAC_CTRL_REDUND 8) 1)
     s.m.redund 8 ≠ 0 ∧ s.m.swOn = true ∧ s.m.linkUp 8 = true ∧ s.m.linkUp (8 + 1) = true) ∧
    (let s : State := st { base with sw := { base.sw with dups := [(8, [(1, 2, base.mono + 5), (1, 3, base.mono + 6)])] } }
     s.m.sw.dups.get? 8 = some ((1, 2, base.mono + 5) :: [(1, 3, base.mono + 6)]) ∧ s.m.sys.still = false) :=
  ⟨by decide +kernel, by decide +kernel, by decide +kernel, by decide +kernel, by decide +kernel⟩

/-- The hypotheses of FrameFlow hold together: a state and operands for each clause. -/
theorem witness_FrameFlow :
    (let s : State := st { (linked base 9).wr (R.MAC_AGE_AGE_US 9 7) 0 with sw := { base.sw with queues := [(79, [copy])] } }
     9 < 10 ∧ s.m.swOn = true ∧ s.m.sys.held = false ∧ s.m.inPair 9 = false ∧ s.m.linkUp 9 = true ∧ s.m.sw.pauses.get? (8 * 9 + 7) = none ∧ s.m.rd (R.MAC_AGE_AGE_US 9 7) = 0 ∧
       s.m.queue (.cls 9 7) = copy :: [] ∧ SMap.rising s.m.sw.queues = true) ∧
    (let s : State := st (((switched base).wr (R.SWC_PORT_CFG_LEARN 0) 0).wr (R.SWC_PCP_MAP_MAP 0) 0)
     let f : RxFrame := ⟨eth, false, true, .ok⟩
     let c : Classed := (s.m.classify 0 (ethOf eth)).getD ⟨0, 0, 0, false, ⟨0, 0, 0, 0, 0, false⟩⟩
     arrives (s.m.reach 5000000000) 0 f.bytes 5000000000 c ∧ s.m.rxFail 0 f = none ∧ s.m.sw.cuts.get? 0 = none ∧ s.m.rd (R.SWC_PORT_CFG_LEARN 0) = 0 ∧
       bitsOf (s.m.rd (R.SWC_PCP_MAP_MAP 0)) (3 * c.pcp) 3 = 0 ∧ s.m.dests 0 c.vlan (s.m.lookup 0 (ethOf f.bytes).dst c.vid c.vlan).1 = [.inl 1] ∧ s.m.portUp 1 = true ∧
       s.m.admits (.cls 1 0) (cellsOf (copyFor f.bytes c 1)) = true) ∧
    (let s : State := st ((switched base).wr (R.SWC_PORT_CFG_CUT_THRU 0) 1)
     let c : Classed := (s.m.classify 0 (ethOf eth)).getD ⟨0, 0, 0, false, ⟨0, 0, 0, 0, 0, false⟩⟩
     arrives (s.m.reach 5000000000) 0 eth 5000000000 c ∧ s.m.rd (R.SWC_PORT_CFG_CUT_THRU 0) = 1 ∧ bitsOf (s.m.rd (R.SWC_PCP_MAP_MAP 0)) (3 * c.pcp) 3 < 7 ∧
       s.m.dests 0 c.vlan (s.m.lookup 0 (ethOf eth).dst c.vid c.vlan).1 = [.inl 1] ∧ s.m.portUp 1 = true ∧ s.m.runRate 1 ≤ s.m.runRate 0 ∧ (∀ k ∈ List.range 8, s.m.queue (.cls 1 k) = []) ∧ s.m.sw.wire.get? 1 = none) :=
  ⟨by decide +kernel, by decide +kernel, by decide +kernel⟩

/-- The hypotheses of SwitchState hold together: a state and operands for each clause. -/
theorem witness_SwitchState :
    (let s : State := st ((switched base).wr (R.SWC_PORT_CFG_LEARN 0) 1)
     let f : RxFrame := ⟨eth, false, true, .ok⟩
     let c : Classed := (s.m.classify 0 (ethOf eth)).getD ⟨0, 0, 0, false, ⟨0, 0, 0, 0, 0, false⟩⟩
     arrives (s.m.reach 5000000000) 0 f.bytes 5000000000 c ∧ s.m.rxFail 0 f = none ∧ s.m.sw.cuts.get? 0 = none ∧ s.m.rd (R.SWC_PORT_CFG_LEARN 0) = 1 ∧
       isGroup (ethOf f.bytes).src = false ∧ s.m.sw.fdb.get? (fdbKey (ethOf f.bytes).src c.vid) = none ∧ s.m.sw.fdb.length < 65536) ∧
    (let s : State := st (((switched base).wr (R.SWC_TBL_DATA_DATA 2) (2 ^ 31)).wr (R.SWC_TBL_DATA_DATA 1) (4094 * 2 ^ 16))
     s.m.swOn = true ∧ s.wf = true ∧ tblBad 0 0 s.m.tblKey.2 = false ∧ bitOf (s.m.rd (R.SWC_TBL_DATA_DATA 2)) 31 = true ∧ s.m.sw.fdb.length < 65536) ∧
    (let f : FdbEntry := ⟨1, 0, 0, false, true, 0, 0⟩
     let s : State := st { base.wr (R.SWC_TBL_DATA_DATA 1) 65536 with sw := { base.sw with fdb := [(fdbKey 0 1, f)] } }
     s.m.swOn = true ∧ s.wf = true ∧ tblBad 0 0 s.m.tblKey.2 = false ∧ s.m.sw.fdb.get? (fdbKey s.m.tblKey.1 s.m.tblKey.2) = some f) ∧
    (let s : State := st base
     s.m.swOn = true ∧ s.wf = true ∧ 8191 < 8192 ∧ 131071 < 131072) ∧
    (let s : State := st (base.wr (R.SWC_TBL_DATA_DATA 0) (2 ^ 31 + 1))
     s.m.swOn = true ∧ s.wf = true ∧ 0 < 4094 ∧ 4094 < 4095 ∧ bitOf (s.m.rd (R.SWC_TBL_DATA_DATA 0)) 31 = true) ∧
    (let f : FdbEntry := ⟨1, 0, 0, false, false, 0, 0⟩
     let s : State := st { base.wr R.SWC_CTRL_LEARN_AGE_S 300 with sw := { base.sw with fdb := [(fdbKey 5 4094, f)] } }
     s.m.sw.fdb.get? (fdbKey 5 4094) = some f ∧ f.static = false ∧ s.m.rd R.SWC_CTRL_LEARN_AGE_S ≠ 0 ∧ s.m.swOn = true) ∧
    (let s : State := st base
     s.m.swOn = true ∧ s.m.minSum - s.m.guar (.cls 10 7) + 100 ≤ 60576 ∧ s.wf = true) :=
  ⟨by decide +kernel, by decide +kernel, by decide +kernel, by decide +kernel, by decide +kernel, by decide +kernel, by decide +kernel⟩

/-- The hypotheses of CurdFlow hold together: a state and operands for each clause. -/
theorem witness_CurdFlow :
    (let r : VRate := ⟨4000, 200000, 8, [], 20001, [], 7, [], [], false, true⟩
     let s : State := st { base with vat := { base.vat with rates := [(3, r)] } }
     s.m.vat.rates.get? 3 = some r ∧ s.m.vatOn = true ∧ r.running = true ∧ s.m.sys.still = false) ∧
    (let f : OpenFrame := ⟨20000, 200000, [], []⟩
     let r : VRate := ⟨4000, 200000, 8, [], 20001, [f], 7, [], [], false, true⟩
     let s : State := st { base with vat := { base.vat with rates := [(3, r)] } }
     s.m.vat.rates.get? 3 = some r ∧ r.opens = f :: [] ∧ s.m.vatOn = true ∧ s.m.sys.still = false ∧ s.m.tns < gridNs r.f f.g + f.w ∧
       gridNs r.f f.g ≤ s.m.tns ∧ (f.expected.all (s.m.slotsPresent r f.g) = true ∨ gridNs r.f f.g + f.w ≤ s.m.tns)) ∧
    (let s : State := st base
     s.m.mode ≠ .reset ∧ 3 < 4 ∧ s.wf = true) ∧
    (let ch : Chan := ⟨0, 0, 3, 0, 0x3F800000, 4, [], none, none, none, false, 0, none, false⟩
     let cd : Curd := ⟨20000, 7, 5000000000, 5000000000, 0, 0, [], [(5, [(20000, 0x3F800000, 0)])]⟩
     let r : VRate := ⟨4000, 200000, 8, [5], 20001, [], 8, [cd], [], false, true⟩
     let s : State := st { base with vat := { base.vat with rates := [(3, r)], chans := [(5, ch)] } }
     s.m.chan? 5 = some ch ∧ s.m.vat.rates.get? ch.vrate = some r ∧ (r.closing.find? fun x => (x.ins.get? 5).isSome) = some cd ∧ ∀ st ∈ ch.stages, s.m.setGone st.set = false) ∧
    (let cd : Curd := ⟨20000, 7, 5000000000, 5000000000, 0, 0, [], []⟩
     let r : VRate := ⟨4000, 200000, 8, [], 20001, [], 8, [cd], [], false, true⟩
     let s : State := st { base with vat := { base.vat with rates := [(3, r)] } }
     s.m.vat.rates.get? 3 = some r ∧ r.closing = cd :: [] ∧ cd.ins = [] ∧ ∀ x ∈ s.m.acq.sessions, x.2.vrate ≠ 3) :=
  ⟨by decide +kernel, by decide +kernel, by decide +kernel, by decide +kernel, by decide +kernel⟩

/-- The hypotheses of StreamSamples hold together: a state and operands for each clause. -/
theorem witness_StreamSamples :
    (let a : Asdu := ⟨asciiBytes "S", 1, 8, none, 4799, 2, [(5, 3)]⟩
     let sm : Stream := ⟨0x010CCD040001, asciiBytes "S", 1, 1000000, 0xFFFF, 16, [], .valid, none, 0, 0, 0, [], some false, 0, [], 0, [], 0⟩
     let x : SvFrame := ⟨[], 0x010CCD040001, 1, 0, 0x4000, true, 1, false, none, 4999900000, [a]⟩
     let ch : Chan := ⟨0, 0, 3, 0, 0x3F800000, 4, [], none, none, none, false, 0, none, false⟩
     let s : State := st { ((((base.wr (R.VAT_STRM_CFG_NOASDU 0) 1).wr (R.VAT_STRM_CFG_NCHAN 0) 1).wr (R.VAT_STRM_SUB_APPID 0) 0x4000).wr (R.VAT_STRM_SUB_VID 0) 1) with vat := { base.vat with rates := [(3, ⟨4000, 200000, 8, [5], 20001, [], 8, [], [], false, true⟩)], chans := [(5, ch)], streams := [(0, sm)] } }
     let m0 := s.m.reach 5000000000
     let slot : Int := counterInstant (m0.streamRate 0) a.smpCnt m0.tns / 1000000000 * m0.streamRate 0 + a.smpCnt
     s.m.vatOn = true ∧ (∀ y ∈ s.m.vat.streams, (s.m.vat.chans.any fun z => z.2.stream == y.1) = true) ∧ s.m.acq.sessions = [] ∧
       (s.m.vat.streams.filter fun y => s.m.svKey x y.1 y.2) = [(0, sm)] ∧ s.m.vat.streams.get? 0 = some sm ∧ sm.state ≠ .disabled ∧ m0.svFrameCheck x 0 sm = none ∧ x.asdus = [a] ∧
       a.smpCnt < m0.streamRate 0 ∧ syncMeets sm.cfg a.smpSynch = true ∧ sm.byEstimate = some false ∧ m0.inRing 0 sm slot = true ∧ sm.slots.get? slot.toNat = none ∧ m0.slotShut 0 sm slot.toNat = false) ∧
    (let x : Stream := ⟨0, [], 1, 1000000, 0xFFFF, 16, [], .valid, none, 0, 0, 0, [], some true, 0, [[4, 8], [-3]], 0, [], 0⟩
     let s : State := st { base with vat := { base.vat with streams := [(0, x)], second := 4 } }
     s.m.vatOn = true ∧ s.m.sys.still = false ∧ s.m.vat.streams = [(0, x)] ∧ x.byEstimate = some true ∧ x.terms ≠ []) ∧
    (let ch : Chan := ⟨0, 0, 3, 0, 0x3F800000, 4, [], none, none, none, false, 0, none, false⟩
     let s : State := st { base with vat := { base.vat with chans := [(5, ch)], second := 4 } }
     s.m.vatOn = true ∧ SMap.rising s.m.vat.chans = true ∧ s.m.chan? 5 = some ch) :=
  ⟨by decide +kernel, by decide +kernel, by decide +kernel⟩

/-- The hypotheses of FilterCommands hold together: a state and operands for each clause. -/
theorem witness_FilterCommands :
    (let sg : Stage := ⟨4, 9, 1, []⟩
     let x : Chan := ⟨2047, 0, 3, 0, 0x3F800000, 4, [sg], none, none, none, false, 0, none, false⟩
     let s : State := st { ((((base.wr R.SYS_SEAL_AT_RESET 255).wr (R.FLT_SET_VALID 1023) 1).wr (R.FLT_SET_KIND 1023) 1).wr (R.FLT_SET_N 1023) 9) with vat := { base.vat with chans := [(16383, x)] } }
     s.m.mode ≠ .reset ∧ s.m.sealOn 3 = true ∧ 16383 < 16384 ∧ 1023 < 1024 ∧ s.m.chan? 16383 = some x ∧ x.stages[0]? = some sg ∧ s.m.isOn (R.FLT_SET_VALID 1023) = true ∧
       s.m.isOn (R.FLT_SET_KIND 1023) = (0 == 0) ∧ s.m.rd (R.FLT_SET_N 1023) ≤ sg.nmax ∧ x.fade = none ∧ (∀ y ∈ s.m.vat.chans, y.2.stream < 2048) ∧ s.m.fadeFits x 0 = true) ∧
    (let x : Chan := ⟨5, 0, 3, 0, 0x3F800000, 4, [⟨4, 9, 1, [(1, 2)]⟩], none, none, some 8, false, 0, none, false⟩
     let s : State := st { base.wr R.SYS_SEAL_AT_RESET 255 with vat := { base.vat with chans := [(16383, x)] } }
     s.m.mode ≠ .reset ∧ s.m.sealOn 3 = true ∧ s.m.chan? 16383 = some x ∧ x.fade = none ∧ x.pend = none) ∧
    (let c : Chan := ⟨5, 0, 3, 0, 0x3F800000, 4, [⟨4, 9, 1, [(1, 2)]⟩], none, some (0, 1023, 2), some 8, false, 0, none, false⟩
     let s : State := st { base with vat := { base.vat with chans := [(16383, c)] } }
     SMap.rising s.m.vat.chans = true ∧ s.m.chan? 16383 = some c ∧ c.fade = none ∧ c.pend = some (0, 1023, 2) ∧ s.m.fadeFits c 0 = true ∧ ∀ y ∈ s.m.vat.chans, y.1 < 16383 → y.2.pend = none) ∧
    (let s : State := st ((base.wr R.SYS_SEAL_AT_RESET 255).wr R.FLT_CMEM_ADDR_WORD (2 ^ 18 - 1))
     s.m.mode ≠ .reset ∧ s.m.sealOn 3 = true ∧ s.wf = true ∧ SMap.rising s.m.vat.cmem = true ∧
       ∀ n ∈ s.m.setsInUse, s.m.rd R.FLT_CMEM_ADDR_WORD < s.m.rd (R.FLT_SET_WORD n) ∨ s.m.rd (R.FLT_SET_WORD n) + s.m.setWords n ≤ s.m.rd R.FLT_CMEM_ADDR_WORD) ∧
    (let s : State := st (base.wr R.SYS_SEAL_AT_RESET 255)
     s.m.mode ≠ .reset ∧ s.m.sealOn 3 = true ∧ 1023 ∉ s.m.setsInUse ∧ s.wf = true) :=
  ⟨by decide +kernel, by decide +kernel, by decide +kernel, by decide +kernel, by decide +kernel⟩

/-- The hypotheses of Sessions hold together: a state and operands for each clause. -/
theorem witness_Sessions :
    (let x := session
     let s : State := st { base with acq := { base.acq with sessions := [(15, x)] } }
     s.m.mode ≠ .reset ∧ s.m.acq.sessions.get? 15 = some x ∧ s.m.ready 8 = true ∧ s.wf = true ∧ x.member = false ∧ (x.state = .idle ∨ x.state = .halted) ∧ s.m.acqOn = true) ∧
    (let x := { session with state := .armed, armRow := some 20000, lastG := 20000, recno := 4294967295 }
     let s : State := st { base with vat := { base.vat with rates := [(3, ⟨4000, 200000, 8, [], 20001, [], 8, [], [], false, true⟩)] }, acq := { base.acq with sessions := [(15, x)] } }
     s.m.mode ≠ .reset ∧ s.m.acq.sessions.get? 15 = some x ∧ s.m.ready 8 = true ∧ s.wf = true ∧ x.running = true ∧ x.open_ = none ∧
       x.armRow.getD (x.lastG + 1) ≤ gridAt (s.m.sessRate x) s.m.tns ∧ ((List.range 64).find? fun e => (x.recs.get? e).isNone) = some 0) ∧
    (let r : AcqRec := ⟨0, 1, 0, 0, 0, 1, [], [], 0, 0, 0, 0, some 0, false, false⟩
     let x := { session with recs := [(63, r)] }
     let s : State := st { base with acq := { base.acq with sessions := [(15, x)] } }
     s.m.mode ≠ .reset ∧ s.m.acq.sessions.get? 15 = some x ∧ s.m.ready 8 = true ∧ s.wf = true ∧ x.recs.get? 63 = some r ∧ x.open_ ≠ some 63 ∧ s.m.acq.read = none) :=
  ⟨by decide +kernel, by decide +kernel, by decide +kernel⟩

/-- The hypotheses of HaulatoMessages hold together: a state and operands for each clause. -/
theorem witness_HaulatoMessages :
    (let body : Bytes := [1, 0x1F, 0, 1] ++ beBytes 5 0 ++ beBytes 4 100 ++ beBytes 1 15 ++ beBytes 1 0
     let b : Bytes := [0xA5] ++ body ++ beBytes 2 (crc16 body)
     let s : State := st base
     s.m.mode ≠ .reset ∧ s.m.mode ≠ .load ∧ s.m.ready 8 = true ∧ b.length = 18 ∧ beAt b 0 1 = 0xA5 ∧ crc16 (slice b 1 15) = beAt b 16 2 ∧ beAt b 14 1 < 16 ∧
       beAt b 2 1 % 16 ≠ s.m.rd R.ACQ_CTRL_HAUL_ID ∧ s.m.acq.sessions = [] ∧ s.m.acq.inQ.length < 16 ∧ s.m.acq.outQ.length < 16) ∧
    (let h : HaulMsg := ⟨List.replicate 16 1, true, some 4999999000, 0, 5000000000⟩
     let s : State := st { base with acq := { base.acq with outQ := [h] } }
     s.m.mode ≠ .reset ∧ s.m.mode ≠ .load ∧ s.m.ready 8 = true ∧ s.m.acq.outQ = h :: [] ∧ h.notBefore ≤ 5000000000) :=
  ⟨by decide +kernel, by decide +kernel⟩

/-- The hypotheses of SafeConnections hold together: a state and operands for each clause. -/
theorem witness_SafeConnections :
    (let x := { conn with built := true, seq := some (2 ^ 32 - 1) }
     let s : State := st { (base.wr (R.LST_CONN0_DIR 1023) 1) with lst := { base.lst with conns := [(1023, x)] } }
     s.m.lst.conns.get? 1023 = some x ∧ s.m.ready 11 = true ∧ 1023 < 1024 ∧ s.wf = true ∧ s.m.isSend 1023 = true ∧ x.en = true ∧ x.built = true ∧ s.m.mode ≠ .flush) ∧
    (let s : State := st { (base.wr (R.LST_CONN8_STATE 1023) 1) with lst := { base.lst with conns := [(1023, conn)] } }
     s.m.lst.conns.get? 1023 = some conn ∧ s.m.ready 11 = true ∧ 1023 < 1024 ∧ s.wf = true ∧ s.m.isSend 1023 = false ∧ s.m.connState 1023 < 2 ∧ s.m.mode ≠ .reset ∧ s.m.connState 1023 ≠ 3) ∧
    (let s : State := st { (base.wr (R.LST_CONN8_STATE 1023) 3) with lst := { base.lst with conns := [(1023, conn)] } }
     s.m.lst.conns.get? 1023 = some conn ∧ s.m.ready 11 = true ∧ 1023 < 1024 ∧ s.wf = true ∧ s.m.mode ≠ .reset ∧ s.m.isSend 1023 = false ∧ s.m.connState 1023 = 3) ∧
    (let s : State := st { ((base.wr (R.LST_CONN8_STATE 1023) 2).wr (R.LST_CONN0_RESTORE 1023) 1) with lst := { base.lst with conns := [(1023, conn)] } }
     s.m.lst.conns.get? 1023 = some conn ∧ s.m.ready 11 = true ∧ 1023 < 1024 ∧ s.wf = true ∧ s.m.mode ≠ .reset ∧ s.m.isSend 1023 = false ∧ s.m.connState 1023 = 2 ∧ s.m.rd (R.LST_CONN0_RESTORE 1023) = 1) ∧
    (let s : State := st { ((((((base.wr (R.LST_CONN1_ID_LO 1023) 5).wr (R.LST_CONN0_DLEN 1023) 8).wr (R.LST_CONN5_SEQ_WIN 1023) 8).wr (R.LST_CONN3_MAX_AGE_US 1023) 1000).wr (R.LST_CONN8_STATE 1023) 0).wr (R.SWC_PORT_CFG_PVID 0) 1) with
       lst := { base.lst with conns := [(1023, conn)] } }
     let p20 : Bytes := [1, 0] ++ beBytes 2 8 ++ beBytes 8 5 ++ beBytes 4 77 ++ beBytes 4 (4999999000 % 2 ^ 32) ++ List.replicate 8 9
     let pdu : Bytes := p20 ++ beBytes 4 (rind p20)
     let b : Bytes := beBytes 6 0x010CCD040009 ++ beBytes 6 1 ++ beBytes 2 0x88B5 ++ pdu ++ List.replicate 14 0
     let pay := lstPayload b
     s.m.ready 11 = true ∧ s.m.mode = .active ∧ s.m.acq.sessions = [] ∧ 1023 < 1024 ∧ s.wf = true ∧ s.m.lstMatches (ethOf b).dst (s.m.vidPcp 0 (ethOf b)).1 = [1023] ∧ s.m.connId 1023 = beAt pay 4 8 ∧
       s.m.lst.conns.get? 1023 = some conn ∧ s.m.connState 1023 = 0 ∧ s.m.gone 7 1023 = false ∧ 4999999500 < conn.wdogFrom + conn.wdogNs ∧ trailerAt pay (24 + 8) = none ∧ conn.seq = none ∧ beAt pay 2 2 = 8 ∧
       24 + 8 ≤ (pay.take (24 + 8)).length ∧ beAt pay 0 1 = 1 ∧ 8 = s.m.lstDlen 1023 ∧ beAt pay 1 1 < 8 ∧ bitOf (beAt pay 1 1) 0 = false ∧ rind (pay.take (20 + 8)) = beAt pay (20 + 8) 4 ∧
       s.m.rd (R.LST_CONN5_SEQ_WIN 1023) ≠ 0 ∧ -(s.m.rd (R.LST_CONN6_AGE_LEAD_NS 1023) : Int) ≤ tsDiff (4999999500 % 2 ^ 32) (beAt pay 16 4) ∧
       tsDiff (4999999500 % 2 ^ 32) (beAt pay 16 4) < ((s.m.rd (R.LST_CONN3_MAX_AGE_US 1023) * 1000 : Nat) : Int)) :=
  ⟨by decide +kernel, by decide +kernel, by decide +kernel, by decide +kernel, by decide +kernel⟩

/-- The hypotheses of Goose hold together: a state and operands for each clause. -/
theorem witness_Goose :
    (let s : State := st { base with cul := { base.cul with gsubs := [(1023, gsub)] } }
     let x : GooseFrame := ⟨[], 0x010CCD010001, 1, 0, 5, true, asciiBytes "G", asciiBytes "D", 1, false, 1, [1, 1], [[1]], 2000, false, 7, 0, false, none, none, 5000000000⟩
     s.m.gooseOn = true ∧ s.m.acq.sessions = [] ∧ 1023 < 1024 ∧ s.wf = true ∧ s.m.gooseSubs x = [(1023, gsub)] ∧ gsub.lst = false ∧ s.m.gone 4 1023 = false ∧ s.m.gooseCheck x 1023 gsub = none ∧ x.trailer = none ∧ s.m.gsubValid 1023 = false) ∧
    (let s : State := st { base.wr (R.SCH_GSUB0_STATE 1023) 1 with cul := { base.cul with gsubs := [(1023, gsub)] } }
     s.m.cul.gsubs.get? 1023 = some gsub ∧ s.m.gsubValid 1023 = true ∧ gsub.lst = false ∧ 1023 < 1024 ∧ s.wf = true) ∧
    (let r : PubRec := ⟨0x010CCD010001, 1, 5, 6, true, false, 3, 0, 2, 0xFFFF, 1, 4, 1000, 1, asciiBytes "G", asciiBytes "D", asciiBytes "I"⟩
     let ps : PubSt := ⟨[1, 1], 0, 0, base.mono + 5, 600⟩
     let s : State := st { base with cul := { base.cul with pubs := [(1023, r)] }, pubs := [(1023, ps)] }
     s.m.cul.pubs.get? 1023 = some r ∧ s.m.pubs.get? 1023 = some ps ∧ r.en = true ∧ s.m.lstPub 1023 = false ∧ s.m.ready 7 = true ∧ s.m.mode ≠ .flush) :=
  ⟨by decide +kernel, by decide +kernel, by decide +kernel⟩

/-- The hypotheses of RegisterAccess hold together: a state and operands for each clause. -/
theorem witness_RegisterAccess :
    (let s : State := st base
     ∃ d ∈ findReg 0xA00000, s.m.mode ≠ .reset ∧ s.wf = true ∧ isLowWord 0xA00000 = false ∧ isLowWord (0xA00000 - 4) = false ∧ s.m.rwsDenied d = false ∧ d.fields.any (·.acc = .rw) = true) ∧
    (let s : State := st base
     ∃ d ∈ findReg 0xD0013C, s.m.mode ≠ .reset ∧ s.wf = true ∧ isLowWord 0xD0013C = false ∧ isLowWord (0xD0013C - 4) = false ∧ s.m.rwsDenied d = false) ∧
    (let s : State := st (base.wr (R.MAC_CNT_CNT 0 0) 77)
     ∃ d ∈ findReg 0x300100, s.m.mode ≠ .reset ∧ s.wf = true ∧ s.m.latch.get? 0x300100 = none ∧ isLowWord 0x300100 = false ∧ d.fields.any (·.acc = .rc) = true) ∧
    (let s : State := st (base.wr R.ACQ_RD_ADDR_HI_ADDR 5)
     ∃ d ∈ findReg 0xA00020, s.m.mode ≠ .reset ∧ s.wf = true ∧ s.m.latch.get? 0xA00020 = none ∧ isLowWord 0xA00020 = true ∧ d.fields ≠ []) ∧
    (let s : State := st (base.wr R.SYS_SEAL_AT_RESET 8)
     s.m.mode ≠ .reset ∧ s.m.sealOn 3 = true ∧ 7 < 8 ∧ 0x3FFF < 0x4000) ∧
    (let s : State := st (base.wr R.SYS_SEAL_AT_RESET 4)
     s.m.mode ≠ .reset ∧ s.m.sealOn 2 = true ∧ s.m.pressOn = true ∧ 255 < 256 ∧ s.wf = true ∧ bitOf 1 0 = true ∧ s.m.rd (R.SCH_FORCE0_EN 255) = 0) ∧
    (let s : State := st ((base.wr R.SYS_SEAL_AT_RESET 4).wr (R.SCH_FORCE0_EN 255) 1)
     s.m.mode ≠ .reset ∧ s.m.sealOn 2 = true ∧ s.m.pressOn = true ∧ 255 < 256 ∧ s.wf = true ∧ bitOf 0 0 = false ∧ s.m.rd (R.SCH_FORCE0_EN 255) = 1) :=
  ⟨by decide +kernel, by decide +kernel, by decide +kernel, by decide +kernel, by decide +kernel, by decide +kernel, by decide +kernel⟩

/-- The hypotheses of StartUp hold together: a state and operands for each clause. -/
theorem witness_StartUp :
    (let s : State := st { base with mode := .load }
     s.m.mode = .load) ∧
    (let s : State := st ({ base with mode := .ripen, mono := 0 }.wr R.SYS_READY_READY 0x7FFF)
     s.m.ready 15 = false ∧ s.m.comingUp = true ∧ s.m.allReady (readyAfter 15) = true ∧ s.m.ownReady 15 = true ∧ s.wf = true) ∧
    (let s : State := st ({ base with mode := .ripen, mono := 0 }.wr R.SYS_READY_READY 0xFFFE)
     s.m.ready 0 = false ∧ s.m.comingUp = true ∧ s.m.allReady (readyAfter 0) = true ∧ s.m.ownReady 0 = true ∧ s.wf = true) ∧
    (let s : State := st { base with mode := .ripen }
     s.m.mode = .ripen ∧ s.m.sys.waitEnded = false ∧ s.m.sys.still = false) ∧
    (let s : State := st ({ base with mode := .ripen }.wr R.SYS_READY_READY 0xFFFE)
     s.m.mode = .ripen ∧ s.m.allReady 0xFFFF = false) :=
  ⟨by decide +kernel, by decide +kernel, by decide +kernel, by decide +kernel, by decide +kernel⟩

/-- The hypotheses of TestAndStaging hold together: a state and operands for each clause. -/
theorem witness_TestAndStaging :
    (let s : State := st ({ base with mode := .standby }.wr R.SYS_SEAL_AT_RESET 2)
     (s.m.mode = .active ∨ s.m.mode = .standby) ∧ s.m.sealOn 1 = true ∧ s.wf = true) ∧
    (let s : State := st { base with mode := .test, testFrom := .standby }
     s.m.mode = .test ∧ s.wf = true) ∧
    (let s : State := st ((inst base 4095 0x100).wr R.SYS_SEAL_AT_RESET 1)
     s.m.sealOn 0 = true ∧ s.m.mayStage = true ∧ s.m.sys.staging = none ∧ 4095 < 4096 ∧ s.m.instAdmitted 4095 = true ∧ s.m.owner 4095 = 0x100 ∧ s.wf = true) :=
  ⟨by decide +kernel, by decide +kernel, by decide +kernel⟩

/-- The hypotheses of LadleFlow hold together: a state and operands for each clause. -/
theorem witness_LadleFlow :
    (let s : State := st { (tasked base) with ladle := { (tasked base).ladle with arrivals := [(3, 1, 0xFFFFFFFF)] } }
     s.m.ladle.arrivals = [(3, 1, 0xFFFFFFFF)] ∧ s.m.gone 6 3 = false ∧ s.m.taskRec 3 = some task ∧ task.ops[1]? = some ⟨2, 2, 2, 0, 0⟩ ∧ s.m.red.xfers = []) ∧
    (let y : TaskSt := { TaskSt.init true with lastDispatched := some 0xFFFFFFFF, opens := [⟨1, 0, false, 0, none, none⟩, ⟨2, 0, false, 0, none, none⟩, ⟨3, 0, false, 0, none, none⟩] }
     let s : State := st { (tasked base) with ladle := { (tasked base).ladle with arrivals := [(3, 0, 0x7FFFFFFE)], tasks := [(3, y)] } }
     s.m.ladle.arrivals = [(3, 0, 0x7FFFFFFE)] ∧ s.m.gone 6 3 = false ∧ s.m.taskRec 3 = some task ∧ task.ops[0]? = some ⟨1, 0, 0, 0, 0⟩ ∧ s.m.red.xfers = [] ∧ (s.m.task 3).state = .enabled ∧ s.m.tasksRun = true ∧
       s.m.ready 5 = true ∧ ((s.m.task 3).opens.all fun o => o.ct != 0x7FFFFFFE) = true ∧ (s.m.task 3).lastDispatched = some 0xFFFFFFFF ∧ tsLater 0x7FFFFFFE 0xFFFFFFFF = true ∧ (s.m.task 3).opens.length < task.maxOpen) ∧
    (let r := { task with ops := List.replicate 7 ⟨1, 0, 0, 0, 0⟩ ++ [⟨4, 0, 0, 1000, 999⟩] }
     let s : State := st (tasked base r)
     s.m.taskRec 3 = some r ∧ r.ops[7]? = some ⟨4, 0, 0, 1000, 999⟩ ∧ s.m.tasksRun = true ∧ s.m.ready 5 = true ∧ s.m.sys.still = false) ∧
    (let o : OpenCycle := ⟨1000, 1, true, 0, none, none⟩
     let y : TaskSt := { TaskSt.init true with opens := [o] }
     let s : State := st { (tasked base) with ladle := { (tasked base).ladle with tasks := [(3, y)] }, engines := [(31, { Engine.init with state := .inService })] }
     let rc : ReadyCycle := ⟨3, 1000, 10, 1001000⟩
     s.m.tasksRun = true ∧ s.m.ready 5 = true ∧ s.m.readyCycles = [rc] ∧ s.m.taskRec rc.task = some task ∧ (s.m.task rc.task).running = none ∧ s.m.gone 6 rc.task = false ∧
       s.m.chooseEngine (s.m.candidates rc.task rc.ct task []) = some 31 ∧ (s.m.engine 31).freeCtxs.head? = some 0 ∧ (s.m.task rc.task).opens = [o] ∧ o.ct = rc.ct) ∧
    (let x := { ctx with phase := .capturing }
     let r := { task with ops := [⟨2, 0, 2, 0, 0⟩] }
     let s : State := st { (running base x) with cul := (tasked base r).cul }
     (s.m.engine 0).capturer = some (2, x) ∧ s.m.taskRec x.task = some r ∧ s.m.frameGone r x.ct ((s.m.cul.maps.drop r.mapFirst).take r.mapCount) = false ∧ (s.m.engine 0).issuer = none) :=
  ⟨by decide +kernel, by decide +kernel, by decide +kernel, by decide +kernel, by decide +kernel⟩

/-- The hypotheses of TaskControl hold together: a state and operands for each clause. -/
theorem witness_TaskControl :
    (let s : State := st (running base)
     s.m.taskRec 3 = some task ∧ task.groupEn = false ∧ s.m.ctx? 0 2 = some ctx ∧ ctx.task = 3 ∧ ctx.firstAt = some (3000000000 * nsUnit) ∧ s.m.waiters 3 ctx.ct = [] ∧
       SMap.rising (s.m.engine 0).ctxs = true ∧ min 255 ((s.m.task 3).consecOvr + 1) < task.ovrLimit) ∧
    (let o : OpenCycle := ⟨1000, 0, false, 0, none, none⟩
     let y : TaskSt := { TaskSt.init true with opens := [o, ⟨1001, 0, false, 0, none, none⟩] }
     let s : State := st { (tasked base) with ladle := { (tasked base).ladle with tasks := [(3, y)] } }
     s.m.taskRec 3 = some task ∧ task.groupEn = false ∧ (s.m.task 3).running = none ∧ ((s.m.task 3).opens.find? fun o => o.ct == 1000) = some o ∧ o.ready = false ∧ s.m.waiters 3 1000 = []) ∧
    (let x := { ctx with protectionClass := true }
     let s : State := st (running base x)
     s.m.taskRec 3 = some task ∧ task.groupEn = false ∧ s.m.ctx? 0 2 = some x ∧ x.task = 3 ∧ x.firstAt = some (3000000000 * nsUnit) ∧ x.protectionClass = true ∧ s.m.sys.still = false) ∧
    (let s : State := st (base.wr R.SCH_SLOW_SLOW 0xFFFFFFFF)
     s.m.mode ≠ .reset ∧ s.wf = true) ∧
    (let s : State := st { (tasked base) with ladle := { (tasked base).ladle with tasks := [(3, { TaskSt.init true with state := .disabling, running := some (0, 2) })] } }
     s.m.mode ≠ .reset ∧ s.m.taskRec 3 = some task ∧ (s.m.task 3).state ≠ .stopped ∧ s.wf = true ∧ (s.m.task 3).state = .disabling ∧ (s.m.task 3).opens = []) ∧
    (let s : State := st { (tasked base) with ladle := { (tasked base).ladle with tasks := [(3, { TaskSt.init true with running := some (0, 2) })] } }
     s.m.mode ≠ .reset ∧ s.m.taskRec 3 = some task ∧ (s.m.task 3).state ≠ .stopped ∧ s.wf = true ∧ (s.m.task 3).state ≠ .disabling ∧ (s.m.task 3).opens = []) ∧
    (let o : OpenCycle := ⟨1000, 0, false, 0, none, none⟩
     let s : State := st { (tasked base) with ladle := { (tasked base).ladle with tasks := [(3, { TaskSt.init true with opens := [o] })] } }
     s.m.mode ≠ .reset ∧ s.m.taskRec 3 = some task ∧ (s.m.task 3).state ≠ .stopped ∧ s.wf = true ∧ (s.m.task 3).opens = [o] ∧ (s.m.task 3).running = none ∧ task.groupEn = false ∧ s.m.waiters 3 o.ct = []) :=
  ⟨by decide +kernel, by decide +kernel, by decide +kernel, by decide +kernel, by decide +kernel, by decide +kernel, by decide +kernel⟩

/-- The hypotheses of EngineStates hold together: a state and operands for each clause. -/
theorem witness_EngineStates :
    (let s : State := st { base with mode := .ripen, engines := [(31, Engine.init)] }
     31 < 32 ∧ (s.m.mode = .active ∨ s.m.mode = .ripen) ∧ s.wf = true ∧ (s.m.engine 31).state = .selfTest ∧ ((s.m.engine 31).retest = true ∨ s.m.mismatches 31 < s.m.rd R.BEN_CTRL_MISMATCH_LIMIT)) ∧
    (let s : State := st (running base)
     (s.m.mode = .active ∨ s.m.mode = .ripen) ∧ s.wf = true ∧ ((s.m.engine 0).state = .inService ∨ (s.m.engine 0).state = .draining ∨ (s.m.engine 0).state = .hostFenced)) ∧
    (let s : State := st { base with engines := [(31, { Engine.init with mism := [5, 6] })] }
     (s.m.mode = .active ∨ s.m.mode = .ripen) ∧ s.wf = true ∧ (s.m.engine 31).mism = [5, 6] ∧ s.m.sys.still = false) ∧
    (let s : State := st ((fun m : Module => { m with engines := m.engines.set 31 { Engine.init with state := .inService } }) (running base))
     (s.m.mode = .active ∨ s.m.mode = .ripen) ∧ s.wf = true ∧ (s.m.engine 0).state = .inService ∧ ∃ n ∈ List.range 32, n ≠ 0 ∧ (s.m.engine n).state = .inService) ∧
    (let s : State := st { base with engines := [(31, { Engine.init with state := .hostFenced })] }
     (s.m.mode = .active ∨ s.m.mode = .ripen) ∧ s.wf = true ∧ (s.m.engine 31).state = .hostFenced) ∧
    (let s : State := st { base with engines := [(31, { Engine.init with state := .draining })] }
     (s.m.mode = .active ∨ s.m.mode = .ripen) ∧ s.wf = true ∧ (s.m.engine 31).state = .draining ∧ (s.m.engine 31).ctxs = []) :=
  ⟨by decide +kernel, by decide +kernel, by decide +kernel, by decide +kernel, by decide +kernel, by decide +kernel⟩

/-- The hypotheses of PressFlow hold together: a state and operands for each clause. -/
theorem witness_PressFlow :
    (let r : CRec := ⟨1, 0, none, 3, 705032704, 64, [.outWrite 0 [1, 2]], 0, 2, 0, 0, .cycle⟩
     let x := { ctx with ct := 705032704, phase := .handing r }
     let s : State := st (running base x)
     s.m.ctx? 0 2 = some x ∧ x.phase = .handing r ∧ s.m.taskRec x.task = some task ∧ r.group = none ∧ s.m.pressOn = true ∧ (s.m.press.pending.any fun y => y.engine == 0) = false ∧
       s.m.mono < x.firstAt.getD s.m.mono + task.budgetNs * nsUnit ∧ s.m.tns < s.m.nsOfTs x.ct + task.deadlineNs ∧ SMap.rising (s.m.engine 0).ctxs = true) ∧
    (let r : CRec := ⟨1, 0, some 31, 3, 705032704, 64, [], 0, 2, 0, 0, .cycle⟩
     let y : GroupColl := ⟨705032704, [r], 1000⟩
     let z := { task with groupEn := true, group := 31 }
     let s : State := st { (tasked base z) with press := { base.press with groups := [(31, y)] } }
     s.m.press.groups.get? 31 = some y ∧ y.recs = [r] ∧ r.ct = y.ct ∧ s.m.taskGroup r.task = some 31 ∧ s.m.waiters r.task r.ct = [] ∧ SMap.rising s.m.press.groups = true) ∧
    (let r (i : Nat) : CRec := ⟨1, 0, none, 3, 705032704 + i, 64, [.outWrite 0 [1, 2]], i, 2, 0, 0, .cycle⟩
     let l : List CRec := [0, 1, 2, 3, 4, 5, 6, 7].map r
     let s : State := st { (tasked base) with press := { base.press with pending := l } }
     s.m.pressOn = true ∧ s.m.press.complete = [] ∧ s.m.press.pending ≠ [] ∧ s.m.press.pending.length ≤ 8 ∧ (∀ r ∈ s.m.press.pending, s.m.recCause r .clean = none) ∧ s.m.dueTxn.isNone = true) ∧
    (let r : CRec := ⟨1, 0, none, 3, 705032704, 64, [.outWrite 62 [1, 2]], 0, 2, 0, 0, .cycle⟩
     let ep : Epoch := ⟨9, [r], none, [], base.mono + 50⟩
     let s : State := st { (tasked base) with press := { base.press with visible := 8, admitted := 9, applying := [ep] } }
     s.m.press.applying = [ep] ∧ s.m.sys.held = false ∧ s.m.mode ≠ .reset ∧ ep.recs = [r] ∧ r.entries = [.outWrite 62 [1, 2]] ∧ r.kind = .cycle ∧ ep.txn = none ∧ ep.forces = [] ∧ s.m.press.forces = [] ∧ s.wf = true) :=
  ⟨by decide +kernel, by decide +kernel, by decide +kernel, by decide +kernel⟩

/-- The hypotheses of Transactions hold together: a state and operands for each clause. -/
theorem witness_Transactions :
    (let s : State := st base
     7 < 8 ∧ s.m.mode ≠ .reset ∧ s.wf = true ∧ s.m.rd (R.PRS_TXN_STAT_STATE 7) ≠ 1 ∧ s.m.rd (R.PRS_TXN_STAT_STATE 7) ≠ 2) ∧
    (let t := { txn with staged := List.replicate 1023 (0xA00000, 1) }
     let s : State := st { ((base.wr (R.PRS_TXN_STAT_STATE 7) 1).wr (R.PRS_TXN_ADDR_ADDR 7) 0xFFFFFF) with press := { base.press with txns := [(7, t)] } }
     7 < 8 ∧ s.m.mode ≠ .reset ∧ s.wf = true ∧ s.m.press.txns.get? 7 = some t ∧ s.m.rd (R.PRS_TXN_STAT_STATE 7) = 1 ∧ t.staged.length < 1024) ∧
    (let s : State := st { ((base.wr (R.PRS_TXN_STAT_STATE 7) 1).wr (R.PRS_TXN_AT_AT 7) 2852516351) with press := { base.press with txns := [(7, txn)] } }
     7 < 8 ∧ s.m.mode ≠ .reset ∧ s.wf = true ∧ s.m.press.txns.get? 7 = some txn ∧ s.m.rd (R.PRS_TXN_STAT_STATE 7) = 1 ∧ s.m.txnCheck 0 [] txn.staged = none ∧ tsLater (s.m.rd (R.PRS_TXN_AT_AT 7)) s.m.ts32 = true) ∧
    (let t := { txn with commitAt := some 5000000500 }
     let s : State := st { (base.wr (R.PRS_TXN_STAT_STATE 0) 1) with press := { base.press with txns := [(0, t)] } }
     0 < 8 ∧ s.m.mode ≠ .reset ∧ s.wf = true ∧ s.m.press.txns.get? 0 = some t ∧ s.m.rd (R.PRS_TXN_STAT_STATE 0) = 1 ∧ s.m.sys.still = false ∧ t.commitAt = some 5000000500) :=
  ⟨by decide +kernel, by decide +kernel, by decide +kernel, by decide +kernel⟩

/-- The hypotheses of Recorder hold together: a state and operands for each clause. -/
theorem witness_Recorder :
    (let s : State := st { base with evr := { base.evr with queue := [evRec, evRec], tail := logEnd - evRec.native.length } }
     s.m.mode ≠ .reset ∧ s.wf = true ∧ s.m.evr.frozen = false ∧ s.m.ready 9 = true ∧ s.m.evr.queue = [evRec, evRec] ∧ s.m.evr.lost = 0 ∧ s.m.evr.layout ≠ 1 ∧ logStart ≤ s.m.evr.tail ∧ s.m.evr.tail + evRec.native.length ≤ logEnd) ∧
    (let s : State := st { base with evr := { base.evr with queue := [evRec], layout := 1, buf := List.replicate 1023 evRec.zt } }
     s.m.mode ≠ .reset ∧ s.wf = true ∧ s.m.evr.frozen = false ∧ s.m.ready 9 = true ∧ s.m.evr.queue = [evRec] ∧ s.m.evr.lost = 0 ∧ s.m.evr.layout = 1 ∧ s.m.evr.buf.length < 1024 ∧ 768 ≤ s.m.evr.buf.length) ∧
    (let s : State := st { base with evr := { base.evr with layout := 1, buf := List.replicate 768 (List.replicate 64 0) } }
     s.m.mode ≠ .reset ∧ s.wf = true ∧ s.m.evr.frozen = false ∧ s.m.ready 9 = true ∧ s.m.evr.layout = 1 ∧ 768 ≤ s.m.evr.buf.length ∧ s.m.mode ≠ .flush) ∧
    (let s : State := st base
     s.m.mode ≠ .reset ∧ s.wf = true ∧ s.m.ready 9 = true ∧ s.m.evr.frozen = false ∧ s.m.mode ≠ .flush) ∧
    (let s : State := st { (base.wr R.EVR_CAVE_ADDR_ADDR 0xFFFFFF) with evr := { base.evr with frozen := true, thawAt := 4000000000 * nsUnit, cave := [(0xFFFFFC, 1), (0xFFFFFF, 2)] } }
     s.m.mode ≠ .reset ∧ s.wf = true ∧ s.m.ready 9 = true ∧ s.m.evr.frozen = true ∧ s.m.sys.still = false) ∧
    (let s : State := st (base.wr R.SYS_READY_READY 0xFDFF)
     s.m.mode ≠ .reset ∧ s.wf = true ∧ s.m.ready 9 = false) :=
  ⟨by decide +kernel, by decide +kernel, by decide +kernel, by decide +kernel, by decide +kernel, by decide +kernel⟩

/-- The hypotheses of HostQueues hold together: a state and operands for each clause. -/
theorem witness_HostQueues :
    (let s : State := st { (hosted base) with host := { (hosted base).host with cmds := [(1, [nop])] } }
     s.m.insOn = true ∧ s.m.cmdsOf 1 = [nop] ∧ nop.bad = none ∧ s.m.cqRoom 1 = true ∧ s.m.isolated 1 = false ∧ s.m.sending 1 = 0 ∧ nop.opcode = 1 ∧ (s.m.hq 1 0).head = (s.m.hq 1 0).tail ∧
       s.m.reachable 1 (cqAddr (s.m.hq 1 1)) 16 true = true ∧ SMap.rising s.m.host.cmds = true) ∧
    (let c := { nop with opcode := 3 }
     let s : State := st { (hosted base) with host := { (hosted base).host with cmds := [(1, [c])] } }
     s.m.insOn = true ∧ s.m.cmdsOf 1 = [c] ∧ c.bad = none ∧ s.m.cqRoom 1 = true ∧ s.m.isolated 1 = false ∧ s.m.sending 1 = 0 ∧ c.opcode = 3 ∧ (s.m.hq 1 0).head = (s.m.hq 1 0).tail ∧
       s.m.reachable 1 (cqAddr (s.m.hq 1 1)) 16 true = true ∧ SMap.rising s.m.host.cmds = true) ∧
    (let c : CmdEntry := ⟨2, 3, 9, 0xFFF, 9212, false⟩
     let s : State := st { (hosted base) with host := { (hosted base).host with cmds := [(1, [c])] } }
     s.m.insOn = true ∧ s.m.cmdsOf 1 = [c] ∧ c.bad = none ∧ s.m.cqRoom 1 = true ∧ s.m.isolated 1 = false ∧ s.m.sending 1 = 0 ∧ c.opcode = 2 ∧ s.m.reachable 1 c.addr c.len false = true) ∧
    (let q : HQueue := { HQueue.init with en := true, log2 := 4, irqDue := true, vector := 5, modUs := 100, lastIrq := some (2999999000 * nsUnit) }
     let s : State := st { (hosted base) with host := { (hosted base).host with queues := [(9, q)] } }
     (s.m.hq 1 1).en = true ∧ (s.m.hq 1 1).irqDue = true ∧ s.m.sys.still = false) ∧
    (let s : State := st (hosted base)
     s.m.insOn = true ∧ s.m.owns 1 1 = true ∧ s.m.isolated 1 = false ∧ (s.m.hq 1 0).en = true ∧ ringDist 15 (s.m.hq 1 0).head ≤ 2 ^ (s.m.hq 1 0).log2 ∧ s.m.cmdsOf 1 = [] ∧ s.m.host.reads = [] ∧ 15 % 2 ^ 16 ≠ (s.m.hq 1 0).head ∧
       s.m.reachable 1 ((s.m.hq 1 0).base + (s.m.hq 1 0).head % 2 ^ (s.m.hq 1 0).log2 * 64) 64 false = true) ∧
    (let s : State := st ((hosted base).setHq 1 1 { (hosted base).hq 1 1 with head := 3, tail := 0xFFFF })
     s.m.insOn = true ∧ s.m.owns 1 1 = true ∧ s.m.isolated 1 = false ∧ (s.m.hq 1 1).en = true ∧ ringDist 3 (s.m.hq 1 1).tail ≤ ringDist (s.m.hq 1 1).head (s.m.hq 1 1).tail ∧ s.m.cmdsOf 1 = [] ∧ (s.m.hq 1 0).head = (s.m.hq 1 0).tail) ∧
    (let s : State := st ((hosted base).setHq 1 2 { (hosted base).hq 1 2 with head := 0xFFF0, tail := 0xFFFF })
     s.m.insOn = true ∧ s.m.owns 1 1 = true ∧ s.m.isolated 1 = false ∧ (s.m.hq 1 2).en = true ∧ ringDist 0 (s.m.hq 1 2).head ≤ 2 ^ (s.m.hq 1 2).log2 ∧ ringDist (s.m.hq 1 2).tail (s.m.hq 1 2).head ≤ ringDist 0 (s.m.hq 1 2).head ∧
       ringDist 0 (s.m.hq 1 2).tail = 1 ∧ s.m.reachable 1 ((s.m.hq 1 2).base + (s.m.hq 1 2).tail % 2 ^ (s.m.hq 1 2).log2 * 16) 16 false = true) ∧
    (let s : State := st ((hosted base).setHq 1 7 { (hosted base).hq 1 7 with head := 3, tail := 0xFFFF })
     s.m.insOn = true ∧ s.m.owns 1 1 = true ∧ s.m.isolated 1 = false ∧ (s.m.hq 1 (4 + 3)).en = true ∧ ringDist 3 (s.m.hq 1 (4 + 3)).tail ≤ ringDist (s.m.hq 1 (4 + 3)).head (s.m.hq 1 (4 + 3)).tail) ∧
    (let s : State := st ((hosted base).wr R.INS_CTRL_VIOL_LIMIT 0)
     s.m.insOn = true ∧ s.m.owns 2 1 = false ∧ s.m.rd R.INS_CTRL_VIOL_LIMIT = 0) ∧
    (let s : State := st { (hosted base) with host := { (hosted base).host with reads := [⟨1, 1, [3], false, .descriptor 4⟩] } }
     s.m.host.reads[0]? = some ⟨1, 1, [3], false, .descriptor 4⟩ ∧ 1 ≠ s.m.gen 1) ∧
    (let r : HRead := ⟨1, 0, [3], false, .descriptor 15⟩
     let s : State := st { (hosted base) with host := { (hosted base).host with reads := [r] } }
     s.m.host.reads[0]? = some r ∧ r.gen = s.m.gen r.inst ∧ s.m.isolated r.inst = false ∧ r.use_ = .descriptor 15 ∧ (s.m.hq r.inst 2).en = true) ∧
    (let r : HRead := ⟨1, 0, [1], false, .command⟩
     let d : Bytes := [1, 3] ++ leBytes 2 9 ++ List.replicate 60 0
     let s : State := st { ((hosted base).setHq 1 0 { (hosted base).hq 1 0 with tail := 0 }) with host := { ((hosted base).setHq 1 0 { (hosted base).hq 1 0 with tail := 0 }).host with reads := [r] } }
     s.m.host.reads[0]? = some r ∧ r.gen = s.m.gen r.inst ∧ s.m.isolated r.inst = false ∧ r.use_ = .command ∧ (s.m.hq r.inst 0).en = true ∧ s.m.cmdsOf r.inst = [] ∧ (cmdOf d).bad = none ∧ ((s.m.hq r.inst 0).head + 1) % 2 ^ 16 = (s.m.hq r.inst 0).tail) ∧
    (let s : State := st { (hosted base) with host := { (hosted base).host with bufs := [(1, [(7, 0x7FFF)])] }, sw := { base.sw with hpq := [(1, [copy])] } }
     s.m.queue (.hp 1) = [copy] ∧ s.m.host.bufs.getD 1 [] = [(7, 0x7FFF)] ∧ s.m.insOn = true ∧ (s.m.hq 1 2).en = true ∧ s.m.cqRoom 1 = true ∧ s.m.isolated 1 = false ∧ copy.bytes.length ≤ (s.m.hq 1 2).aux % 2 ^ 15 ∧
       s.m.reachable 1 0x7FFF copy.bytes.length true = true ∧ s.m.reachable 1 (cqAddr (s.m.hq 1 1)) 16 true = true ∧ SMap.rising s.m.sw.hpq = true) ∧
    (let cd : Curd := ⟨5, 6, 4999000000, 7, 0, 0, [], []⟩
     let r : VRate := ⟨4000, 0, 64, [0, 1], 7, [], 7, [], [cd], false, true⟩
     let s : State := st { ((hosted base).setHq 1 7 { (hosted base).hq 1 7 with pend := [6], written := 2 ^ 32 }) with vat := { base.vat with rates := [(3, r)] } }
     (s.m.hq 1 (4 + 3)).pend = [6] ∧ s.m.vat.rates.get? 3 = some r ∧ s.m.insOn = true ∧ (s.m.hq 1 (4 + 3)).en = true ∧ s.m.isolated 1 = false ∧ ringDist (s.m.hq 1 (4 + 3)).head (s.m.hq 1 (4 + 3)).tail < 2 ^ (s.m.hq 1 (4 + 3)).log2 ∧ (r.held fun cd => cd.seq == 6) = some cd ∧
       s.m.reachable 1 0x6000 48 true = true ∧ s.m.reachable 1 0x9000 8 true = true) :=
  ⟨by decide +kernel, by decide +kernel, by decide +kernel, by decide +kernel, by decide +kernel, by decide +kernel, by decide +kernel, by decide +kernel, by decide +kernel, by decide +kernel, by decide +kernel, by decide +kernel, by decide +kernel, by decide +kernel⟩

/-- The hypotheses of HostControl hold together: a state and operands for each clause. -/
theorem witness_HostControl :
    (let s : State := st (((hosted base).setHq 1 2 HQueue.init).wr (fnReg 1 0x1000080 0x40 0 12) 1 |>.wr (fnReg 1 0x1000080 0x40 12 3) 2)
     let v := 1 + 8 * 2 + 511 * 32 + 0x3FFFF * 2 ^ 14
     s.m.insOn = true ∧ s.m.owns 1 1 = true ∧ s.m.qselInst 1 = 1 ∧ s.m.qselQueue 1 = 2 ∧ s.m.hostOwned 1 = true ∧ 2 ≠ 3 ∧ 2 < 3 ∧ bitOf v 0 = true ∧ (s.m.hq 1 2).en = false ∧ s.m.isolated 1 = false) ∧
    (let s : State := st ((hosted base).wr (fnReg 0 0x1000080 0x40 0 12) 1 |>.wr (fnReg 0 0x1000080 0x40 12 3) 7)
     s.m.insOn = true ∧ s.m.qselInst 0 = 1 ∧ s.m.qselQueue 0 = 7 ∧ s.m.hostOwned 1 = true ∧ 7 ≠ 3 ∧ bitOf 0 0 = false) ∧
    (let s : State := st ((fun m : Module => { m with wlatch := [(1 * 2 ^ 33 + (vfBase + 1 * 0x10000 + 0x44), 0xFFFFFFFF)] }) ((hosted base).setHq 1 0 HQueue.init |>.wr (fnReg 1 0x1000080 0x40 0 12) 1))
     s.m.insOn = true ∧ s.m.owns 1 1 = true ∧ s.m.qselInst 1 = 1 ∧ s.m.qselQueue 1 = 0 ∧ s.m.hostOwned 1 = true ∧ (s.m.hq 1 0).en = false ∧ s.m.wlatch.get? (1 * 2 ^ 33 + (vfBase + 1 * 0x10000 + 0x44)) = some 0xFFFFFFFF) ∧
    (let s : State := st (inst base 4095 0x100)
     let v := 60576 - (s.m.minSum - s.m.guar (.hp 4095)) + 255 * 2 ^ 16
     s.m.mode ≠ .reset ∧ s.m.instAdmitted 4095 = true ∧ 4095 < 4096 ∧ s.wf = true ∧ s.m.minSum - s.m.guar (.hp 4095) + bitsOf v 0 16 = 60576 ∧ 60576 < s.m.minSum - s.m.guar (.hp 4095) + bitsOf (v + 1) 0 16) ∧
    (let s : State := st (inst base 4095 0x100)
     let sum (f : Nat → Fld) : Nat := s.m.instances.foldl (fun a j => if j = 4095 then a else a + s.m.rd (f j)) 0
     s.m.mode ≠ .reset ∧ s.m.instAdmitted 4095 = true ∧ 4095 < 4096 ∧ s.wf = true ∧ sum R.INS_INST_SHARE_DMA_MIN + bitsOf 48000 0 16 ≤ 48000 ∧ s.m.exportOf 4095 ≤ bitsOf 48000 0 16 ∧ sum R.INS_INST_SHARE_REC_MIN + bitsOf 4000 0 16 ≤ 4000) ∧
    (let s : State := st ((hosted base).wr R.INS_XLT_INST_VALUE 1 |>.wr R.INS_XLT_PAGE_VALUE 31 |>.wr R.INS_XLT_DATA_LO_ENTRY 0xFFFFF007 |>.wr R.INS_XLT_DATA_HI_ENTRY 0xFFFFFFFF)
     let e := s.m.rd64 R.INS_XLT_DATA_LO_ENTRY R.INS_XLT_DATA_HI_ENTRY
     s.m.mode ≠ .reset ∧ s.wf = true ∧ s.m.rd R.INS_XLT_STAT_BUSY = 0 ∧ s.m.rd R.INS_XLT_INST_VALUE % 4096 = 1 ∧ s.m.hostOwned 1 = true ∧ 31 < s.m.rd (R.INS_INST_XLT_XLT_PAGES 1) ∧ bitsOf e 3 9 = 0 ∧ (s.m.rd (R.INS_INST_XLT_PAGE 1) = 1 → bitsOf e 12 9 = 0)) ∧
    (let s : State := st ((hosted base).wr R.INS_XLT_STAT_BUSY 1)
     s.m.mode ≠ .reset ∧ s.wf = true ∧ s.m.rd R.INS_XLT_STAT_BUSY = 1 ∧ ∀ r ∈ s.m.host.reads, r.old = false) ∧
    (let s : State := st { ((inst base 4095 0x1FF).wr R.INS_CTRL_VIOL_LIMIT 2) with host := { base.host with viol := [(0x10FF, [base.mono])] } }
     255 < 256 ∧ s.wf = true ∧ 255 ≠ 0 ∧ s.m.rd R.INS_CTRL_VIOL_LIMIT ≠ 0 ∧ s.m.rd R.INS_CTRL_VIOL_LIMIT ≤ (s.m.violIn 0x10FF).length + 1 ∧ 4095 ∈ s.m.instances ∧ s.m.owns 255 4095 = true) ∧
    (let s : State := st { base with host := { base.host with viol := [(0x1000, [base.mono - 5, base.mono])] } }
     0 < 256 ∧ s.m.host.viol.getD (0x1000 + 0) [] = [base.mono - 5, base.mono] ∧ s.m.sys.still = false ∧ SMap.rising s.m.host.viol = true ∧ s.wf = true) :=
  ⟨by decide +kernel, by decide +kernel, by decide +kernel, by decide +kernel, by decide +kernel, by decide +kernel, by decide +kernel, by decide +kernel, by decide +kernel⟩

/-- The hypotheses of InstanceCommands hold together: a state and operands for each clause. -/
theorem witness_InstanceCommands :
    (let s : State := st (inst base 4095 0x1FF)
     s.m.insOn = true ∧ s.m.instAdmitted 4095 = true ∧ 4095 < 4096 ∧ s.wf = true ∧ s.m.owner 4095 ≠ 0 ∧ (∀ x ∈ s.m.cul.tasks, x.2.inst ≠ 4095) ∧ s.m.engines = [] ∧ s.m.press.pending = [] ∧ s.m.press.complete = [] ∧ s.m.press.groups = [] ∧
       s.m.keys.cmd = none ∧ s.m.sys.staging = none ∧ s.m.acq.read = none ∧ s.m.rd (R.INS_INST_STAT_DRAINED 4095) = 1 ∧ 0 < 255 ∧ s.m.owns 255 4095 = true ∧ ∀ r ∈ s.m.host.reads, r.inst = 4095 → r.gen = s.m.gen 4095) ∧
    (let s : State := st (((inst base 4095 0x100).wr (R.INS_INST_STAT_DRAINED 4095) 0).wr (R.INS_INST_STAT_GEN 4095) 255)
     s.m.insOn = true ∧ s.m.instAdmitted 4095 = true ∧ 4095 < 4096 ∧ s.wf = true ∧ s.m.owner 4095 ≠ 0 ∧ (∀ x ∈ s.m.cul.tasks, x.2.inst ≠ 4095) ∧ s.m.engines = [] ∧ s.m.press.pending = [] ∧ s.m.press.complete = [] ∧ s.m.press.groups = [] ∧
       s.m.keys.cmd = none ∧ s.m.sys.staging = none ∧ s.m.acq.read = none ∧ s.m.rd (R.INS_INST_STAT_DRAINED 4095) = 0 ∧ s.m.rd (R.INS_INST_STAT_RESET_PENDING 4095) = 0) :=
  ⟨by decide +kernel, by decide +kernel⟩

/-- The hypotheses of PcieResets hold together: a state and operands for each clause. -/
theorem witness_PcieResets :
    (let s : State := st { (hosted base) with press := { base.press with snaps := [(0, 16, 32), (1, 16, 32)] } }
     s.wf = true ∧ s.m.instances = [1] ∧ s.m.hostOwned 1 = true ∧ s.m.owns 1 1 = true) := by
  decide +kernel

/-- The hypotheses of SnapshotsAndReads hold together: a state and operands for each clause. -/
theorem witness_SnapshotsAndReads :
    (let s : State := st ((base.wr (fnReg 255 0x900300 0x10 0 32) 0x20).wr (fnReg 255 0x90030c 0x1c 0 32) 3)
     255 < 256 ∧ s.m.ready 7 = true ∧ s.m.mode ≠ .reset ∧ s.m.mode ≠ .load ∧ s.m.mode ≠ .flush ∧ s.m.rd (fnReg 255 0x900314 0x24 0 1) = 0) ∧
    (let b : Bytes := leBytes 2 1 ++ leBytes 2 1 ++ List.replicate 12 0 ++ [3, 0, 0, 0] ++ leBytes 2 1 ++ leBytes 2 4096 ++ leBytes 8 0
     let s : State := st { ((hosted base).wr (R.INS_INST_STAT_OWNER 1) 0x100) with press := { base.press with snaps := [(0, 0x30, 0x1020)], visible := 77 }, cul := { (hosted base).cul with instSizes := [(1, 4096)] } }
     let items := s.m.snapBytes 0 (snapItem b 0)
     s.m.press.snaps = [(0, 0x30, 0x1020)] ∧ s.m.pressOn = true ∧ s.m.press.pending = [] ∧ s.m.press.complete = [] ∧ s.wf = true ∧ s.m.hostOwned 1 = true ∧ s.m.isolated 1 = false ∧ s.m.reachable 1 0x30 32 false = true ∧
       leAt b 0 2 = 1 ∧ leAt b 2 2 = 1 ∧ leAt b 2 2 % 4096 = 1 ∧ leAt b 4 12 = 0 ∧ 0x30 % 16 = 0 ∧ 0x1020 % 32 = 0 ∧ s.m.snapStatus 0 b 0 = 0 ∧ (snapItem b 0).len ≤ 4096 ∧ s.m.reachable 1 0x1020 (32 + items.length) true = true) ∧
    (let s : State := st (base.wr R.ACQ_RD_LEN_VALUE 1)
     s.m.ready 8 = true ∧ s.m.mode ≠ .reset ∧ s.m.mode ≠ .load ∧ s.m.mode ≠ .flush ∧ s.m.acq.read = none ∧ 2 < 3) ∧
    (let r : AcqRec := ⟨5, 1, 5, 4999000000, 1, 0, [], [], 0, 0, 0, 0, some 1, false, false⟩
     let x := { session with rows := [⟨0, 5, 4999000000, 0, [1, 2], false, false⟩], recs := [(63, r)], nextIdx := 1 }
     let q : AcqRead := ⟨15, 63, 0, 1, 0, 0x7FF, 1, 255⟩
     let s : State := st { (hosted base) with acq := { base.acq with sessions := [(15, x)], read := some q } }
     let b := x.region 15 s.m.freeIdx 0 r []
     s.m.acq.read = some q ∧ s.wf = true ∧ s.m.hostOwned 1 = true ∧ s.m.isolated 1 = false ∧ s.m.gen 1 = q.gen ∧ s.m.acq.sessions.get? 15 = some x ∧ x.recs.get? 63 = some r ∧ bitOf r.flags 0 = true ∧ bitOf r.flags 1 = false ∧ 0 < q.len ∧ q.len ≤ 16777216 ∧
       q.off + q.len = b.length ∧ s.m.reachable 1 q.addr q.len true = true) :=
  ⟨by decide +kernel, by decide +kernel, by decide +kernel, by decide +kernel⟩

/-- The hypotheses of KeyCommands hold together: a state and operands for each clause. -/
theorem witness_KeyCommands :
    (let s : State := st (hosted base)
     s.m.mode ≠ .reset ∧ s.m.ready 12 = true ∧ s.m.rd R.KEY_CMD_STAT_BUSY = 0 ∧ s.m.hostOwned 1 = true ∧ s.m.isolated 1 = false ∧ s.m.reachable 1 (s.m.rd64 R.KEY_CMD_ADDR_LO_ADDR R.KEY_CMD_ADDR_HI_ADDR) 256 false = true) ∧
    (let b : Bytes := leBytes 2 0xFFFF ++ [1, 64] ++ leBytes 4 9 ++ List.replicate 64 65 ++ [4, 1] ++ List.replicate 182 0
     let c : KeyCmd := ⟨1, 1023, false, 1, 0, some b, .empty⟩
     let s : State := st { ((hosted base).wr R.KEY_STATUS_ROOT 1) with keys := { base.keys with cmd := some c, slots := [(1023, { KeySlot.init with state := .busy })] } }
     s.m.keys.cmd = some c ∧ c.block = some b ∧ 5000000000 * nsUnit ≤ s.m.clk ∧ s.m.gen c.inst = c.gen ∧ s.m.isolated c.inst = false ∧ s.wf = true ∧ c.op = 1 ∧ leAt b 74 182 = 0 ∧ leAt b 2 1 ≤ 6 ∧ labelOk (slice b 8 (leAt b 3 1)) = true ∧
       labelOwn (slice b 8 (leAt b 3 1)) = false ∧ leAt b 73 1 ≤ 1 ∧ leAt b 72 1 ≤ 4 ∧ (leAt b 2 1 = 1 ∨ leAt b 72 1 = 0) ∧ (s.m.slot 1023).section_ = false ∧ c.before = .empty ∧ s.m.halfOk 1023 1 1 = true ∧ s.m.deriveCause 0xFFFF = none) ∧
    (let b : Bytes := List.replicate 256 0
     let c : KeyCmd := ⟨3, 1023, false, 1, 0, some b, .ready⟩
     let s : State := st { (hosted base) with keys := { base.keys with cmd := some c, slots := [(1023, { KeySlot.init with state := .busy, attr := 1, keys := [(0, [1]), (1, [2])] })] } }
     s.m.keys.cmd = some c ∧ c.block = some b ∧ 5000000000 * nsUnit ≤ s.m.clk ∧ s.m.gen c.inst = c.gen ∧ s.m.isolated c.inst = false ∧ s.wf = true ∧ c.op = 3 ∧ leAt b 0 256 = 0 ∧ s.m.slotInUse 1023 = false ∧ (s.m.slot 1023).section_ = false) ∧
    (let b : Bytes := leBytes 4 2852516351 ++ List.replicate 252 0
     let c : KeyCmd := ⟨4, 0, false, 1, 0, some b, .ready⟩
     let s : State := st { (hosted base) with keys := { base.keys with cmd := some c, slots := [(0, { KeySlot.init with state := .busy, attr := 1, keys := [(0, [1]), (1, [2])] })] } }
     s.m.keys.cmd = some c ∧ c.block = some b ∧ 5000000000 * nsUnit ≤ s.m.clk ∧ s.m.gen c.inst = c.gen ∧ s.m.isolated c.inst = false ∧ s.wf = true ∧ c.op = 4 ∧ leAt b 4 252 = 0 ∧ c.before = .ready ∧ (s.m.slot 0).attr = 1 ∧ ((s.m.slot 0).keys.get? (1 - s.m.sendHalf 0)).isSome = true ∧ tsLater (leAt b 0 4) s.m.ts32 = true) ∧
    (let b : Bytes := leBytes 4 705032704 ++ List.replicate 252 0
     let c : KeyCmd := ⟨4, 0, false, 1, 0, some b, .ready⟩
     let s : State := st { (hosted base) with keys := { base.keys with cmd := some c, slots := [(0, { KeySlot.init with state := .busy, attr := 1, keys := [(0, [1]), (1, [2])] })] } }
     s.m.keys.cmd = some c ∧ c.block = some b ∧ 5000000000 * nsUnit ≤ s.m.clk ∧ s.m.gen c.inst = c.gen ∧ s.m.isolated c.inst = false ∧ s.wf = true ∧ c.op = 4 ∧ leAt b 4 252 = 0 ∧ c.before = .ready ∧ (s.m.slot 0).attr = 1 ∧ ((s.m.slot 0).keys.get? (1 - s.m.sendHalf 0)).isSome = true ∧ tsLater (leAt b 0 4) s.m.ts32 = false) ∧
    (let b : Bytes := [3, 0xFF] ++ List.replicate 6 0 ++ List.replicate 32 0xAB ++ List.replicate 64 0 ++ List.replicate 152 0
     let c : KeyCmd := ⟨6, 0, false, 1, 0, some b, .empty⟩
     let s : State := st { (hosted base) with keys := { base.keys with cmd := some c } }
     s.m.keys.cmd = some c ∧ c.block = some b ∧ 5000000000 * nsUnit ≤ s.m.clk ∧ s.m.gen c.inst = c.gen ∧ s.m.isolated c.inst = false ∧ s.wf = true ∧ c.op = 6 ∧ leAt b 2 6 = 0 ∧ leAt b 104 152 = 0 ∧ s.m.rd R.KEY_STATUS_RNG_FAIL = 0 ∧ leAt b 0 1 ≤ 3 ∧ (leAt b 1 1 ≤ 3 ∨ leAt b 1 1 = 0xFF) ∧
       (∀ k ∈ List.range 4, (s.m.ownerSlot k).programmed = false) ∧ (s.m.ownerSlot (leAt b 0 1)).code = 0) ∧
    (let s : State := st { base with keys := { base.keys with slots := [(1023, { KeySlot.init with state := .ready, attr := 1, keys := [(0, [1]), (1, [2])], pending := some (705032705, 1) })] } }
     (s.m.slot 1023).pending = some (705032705, 1) ∧ s.m.rd R.KEY_STATUS_RNG_FAIL = 0) :=
  ⟨by decide +kernel, by decide +kernel, by decide +kernel, by decide +kernel, by decide +kernel, by decide +kernel, by decide +kernel⟩

/-- The hypotheses of PairRoles hold together: a state and operands for each clause. -/
theorem witness_PairRoles :
    (let s : State := st { (linked (member base .active none) 10) with red := { (member base .active none).red with sendSeq := [(0, 0xFFFFFFFF)] } }
     s.m.red.cfg.pairMode = true ∧ s.m.rd R.SYS_READY_READY ||| 2 ^ 10 = 0xFFFF ∧ s.m.mode ≠ .reset ∧ s.m.mode ≠ .flush ∧ s.m.linkUp 10 = true) ∧
    (let s : State := st (member base .active (some ⟨1, 0, 0, 50, 0⟩))
     let b := heart (2 ^ 31 + 2 ^ 30 + 6)
     5000000000 * nsUnit ≤ s.m.clk ∧ s.m.red.cfg.pairMode = true ∧ s.m.mode = .active ∧ s.m.red.role = .active ∧ s.m.hbValid 0 b = true ∧ s.m.red.peer.map (fun p => (p.flags % 2, p.bootId)) = some (beAt b 4 1 % 2, beAt b 20 8) ∧ s.wf = true ∧ claimWins (beAt b 8 4) s.m.claim = true) ∧
    (let s : State := st (member base .active (some ⟨1, 0, 0, 50, 0⟩))
     let b := heart (2 ^ 31 + 4)
     5000000000 * nsUnit ≤ s.m.clk ∧ s.m.red.cfg.pairMode = true ∧ s.m.mode = .active ∧ s.m.red.role = .active ∧ s.m.hbValid 0 b = true ∧ s.m.red.peer.map (fun p => (p.flags % 2, p.bootId)) = some (beAt b 4 1 % 2, beAt b 20 8) ∧ s.wf = true ∧ claimWins (beAt b 8 4) s.m.claim = false) ∧
    (let s : State := st { base with red := { base.red with serv := true, tLast := [(1, 4999000000)], pathUp := [(1, true)] } }
     s.m.red.tLast.get? 1 = some 4999000000 ∧ s.m.red.pathUp.get? 1 = some true ∧ s.m.red.serv = true ∧ s.wf = true) ∧
    (let p : Peer := ⟨1, 0, 2 ^ 31 + 2 ^ 30 + 0xFFFF, 50, base.mono⟩
     let s : State := st { (member base .undecided (some p)) with mode := .ripen, red := { (member base .undecided (some p)).red with decideFrom := some base.mono } }
     s.m.red.peer = some p ∧ s.m.red.decideFrom = some base.mono ∧ base.mono ≤ p.at_ ∧ s.m.mode = .ripen ∧ s.m.red.cfg.pairMode = true ∧ s.m.red.role = .undecided ∧ bitOf p.claim 31 = true ∧ ¬ (bitOf p.claim 30 = false ∧ s.m.preferred = true)) ∧
    (let p : Peer := ⟨1, 0, 2 ^ 31 + 0xFFFF, 50, base.mono⟩
     let s : State := st { (member base .undecided (some p)) with mode := .ripen, red := { (member base .undecided (some p)).red with decideFrom := some base.mono } }
     s.m.red.peer = some p ∧ s.m.red.decideFrom = some base.mono ∧ base.mono ≤ p.at_ ∧ s.m.mode = .ripen ∧ s.m.red.cfg.pairMode = true ∧ s.m.red.role = .undecided ∧ bitOf p.claim 31 = true ∧ bitOf p.claim 30 = false ∧ s.m.preferred = true) ∧
    (let p : Peer := ⟨0, 0, 0, 500, base.mono⟩
     let s : State := st { (member base .undecided (some p)) with mode := .ripen, red := { (member base .undecided (some p)).red with decideFrom := some base.mono } }
     s.m.red.peer = some p ∧ s.m.red.decideFrom = some base.mono ∧ base.mono ≤ p.at_ ∧ s.m.mode = .ripen ∧ s.m.red.cfg.pairMode = true ∧ s.m.red.role = .undecided ∧ bitOf p.claim 31 = false ∧ s.m.preferred = false) ∧
    (let s : State := st { (member base .undecided none) with mode := .ripen, red := { (member base .undecided none).red with decideFrom := some base.mono } }
     s.m.red.peer.isNone = true ∧ s.m.red.decideFrom = some base.mono ∧ s.m.mode = .ripen ∧ s.m.red.cfg.pairMode = true ∧ s.m.red.role = .undecided ∧ s.m.sys.still = false) ∧
    (let s : State := st { (member base .standby (some ⟨1, 0, 0xFFFF, 50, 0⟩)) with mode := .standby, red := { (member base .standby (some ⟨1, 0, 0xFFFF, 50, 0⟩)).red with tLast := [(0, 5000000000), (1, 4999900000)] } }
     s.m.silenceEnd = some 5000100000 ∧ s.m.red.role = .standby ∧ s.m.mode = .standby ∧ s.m.rd R.RED_STATUS_PEER_LOST = 0 ∧ s.m.pubs = [] ∧ s.m.lst.conns = [] ∧ s.m.sys.still = false) ∧
    (let p : Peer := ⟨1, 0, 2 ^ 31 + 2 ^ 30 + 223 * 2 ^ 16 + 9, 50, 0⟩
     let s : State := st { ((member base .standby (some p)).wr R.RED_PENALTY_HEALTH 255) with mode := .standby, red := { (member base .standby (some p)).red with healthFrom := some base.mono } }
     s.m.red.healthFrom = some base.mono ∧ s.m.mode = .standby ∧ s.m.healthCause 3 = true ∧ s.m.pubs = [] ∧ s.m.lst.conns = [] ∧ s.m.sys.still = false) :=
  ⟨by decide +kernel, by decide +kernel, by decide +kernel, by decide +kernel, by decide +kernel, by decide +kernel, by decide +kernel, by decide +kernel, by decide +kernel, by decide +kernel⟩

/-- The hypotheses of PairTransfers hold together: a state and operands for each clause. -/
theorem witness_PairTransfers :
    (let d : DigEntry := ⟨1, 3, 1000, 7⟩
     let s : State := st { (linked base 10) with red := { base.red with digFrom := some 4999000000, digQ := List.replicate 91 d } }
     s.m.red.digFrom = some 4999000000 ∧ s.m.linkUp 10 = true ∧ s.m.mode ≠ .flush) ∧
    (let d : DigEntry := ⟨1, 3, 1000, 7⟩
     let s : State := st (member base .standby none)
     s.m.paired = true ∧ (s.m.red.own.find? fun x => x.1.sameKey d) = none ∧ s.m.red.theirs.length < 32768) ∧
    (let d : DigEntry := ⟨1, 3, 1000, 7⟩
     let s : State := st { (inst (member base .standby none) 1 0x100) with red := { (member base .standby none).red with own := [(d, 5), (⟨1, 3, 1001, 7⟩, 6)] } }
     s.m.paired = true ∧ (s.m.red.own.find? fun x => x.1.sameKey d) = some (d, 5)) ∧
    (let d : DigEntry := ⟨1, 3, 1000, 7⟩
     let s : State := st { (inst (member base .standby none) 1 0x100) with red := { (member base .standby none).red with own := [({ d with digest := 8 }, 5)] } }
     s.m.paired = true ∧ (s.m.red.own.find? fun x => x.1.sameKey d) = some ({ d with digest := 8 }, 5) ∧ 8 ≠ d.digest ∧ s.m.red.role = .standby ∧ s.m.instAdmitted 1 = true ∧ s.m.red.own = [({ d with digest := 8 }, 5)]) ∧
    (let s : State := st { ((inst (linked (member base .standby none) 10) 1 0x100).wr (R.RED_INST_SYNC_STATE 1) 1) with mode := .standby }
     s.m.standingBy = true ∧ s.m.linkUp 10 = true ∧ s.m.red.xfers.length < s.m.red.cfg.xferMax ∧ (s.m.instances.find? fun i => s.m.instSync i == 1) = some 1) ∧
    (let s : State := st (tasked (linked (member base .active none) 10))
     s.m.workingActive = true ∧ s.m.instAdmitted 1 = true ∧ s.m.linkUp 10 = true) ∧
    (let x : Xfer := ⟨base.mono, none, [], false, []⟩
     let s : State := st { (member base .standby none) with mode := .standby, red := { (member base .standby none).red with xfers := [(1, x)] } }
     s.m.red.xfers.get? 1 = some x ∧ s.m.standingBy = true ∧ x.applied = false ∧ SMap.rising s.m.red.xfers = true ∧ s.m.sys.still = false) ∧
    (let s : State := st { ((tasked (member base .standby none)).wr (R.RED_INST_SYNC_STATE 1) 3) with mode := .test, testFrom := .standby }
     s.m.standingBy = true ∧ s.m.instSync 1 = 3 ∧ s.m.taskInst 3 = 1 ∧ (s.m.task 3).lastDispatched = none) ∧
    (let s : State := st (inst (member base .active (some ⟨5, 0, 0, 50, 0⟩)) 1 0x100)
     s.m.mode ≠ .reset ∧ s.m.red.cfg.pairMode = true ∧ s.m.workingActive = true ∧ s.m.red.peer.any (fun p => bitOf p.flags 2) = true ∧ s.m.instances = [1]) :=
  ⟨by decide +kernel, by decide +kernel, by decide +kernel, by decide +kernel, by decide +kernel, by decide +kernel, by decide +kernel, by decide +kernel, by decide +kernel⟩

/-- The hypotheses of CheckUnits hold together: a state and operands for each clause. -/
theorem witness_CheckUnits :
    (let s : State := st { (((base.wr (R.CRC_OWNER_OWNER 7) 0x1FF).wr (R.CRC_CFG_WIDTH 7) 3).wr (R.CRC_CFG_IRQ_EN 7) 1) with wlatch := [(255 * 2 ^ 33 + (R.CRC_VALUE_LO_R 7).addr, 3), (255 * 2 ^ 33 + (R.CRC_TAG_LO_TAG 7).addr, 5)] }
     s.m.mode ≠ .reset ∧ s.m.ready 13 = true ∧ s.m.crcOwns 255 7 = true ∧ s.wf = true ∧ s.m.rd (R.CRC_CFG_WIDTH 7) < 4 ∧ s.m.wlatch.get? (255 * 2 ^ 33 + (R.CRC_TAG_LO_TAG 7).addr) = some 5 ∧ s.m.wlatch.get? (255 * 2 ^ 33 + (R.CRC_VALUE_LO_R 7).addr) = some 3 ∧ 7 < 8) ∧
    (let u := base.crcSet 0
     u.w ∈ ([8, 16, 32, 64] : List Nat) ∧ u.poly < 2 ^ u.w ∧ u.xorout < 2 ^ u.w ∧ 2 ^ u.w - 1 < 2 ^ u.w) :=
  ⟨by decide +kernel, by decide +kernel⟩

/-- The hypotheses of ErrorTree hold together: a state and operands for each clause. -/
theorem witness_ErrorTree :
    (let s : State := st { base with err := { base.err with scrub := [(5, 4094)] } }
     5 ≤ 5 ∧ s.m.ready 15 = true ∧ s.m.mode ≠ .reset ∧ s.m.mode ≠ .flush ∧ s.m.err.injected = [] ∧ s.m.err.scrub.getD 5 0 + 1 < codewords 5 ∧ s.m.sys.still = false ∧ s.wf = true) ∧
    (let s : State := st { base with err := { base.err with absent := [(0, 3), (7, 1023)] } }
     s.m.gone 7 1023 = true ∧ s.m.mode ≠ .reset ∧ s.m.err.badShadow.contains 99 = false) ∧
    (let s : State := st { base with err := { base.err with irqDue := true, lastIrq := some (base.mono - 5) } }
     s.m.err.irqDue = true ∧ s.m.sys.still = false) ∧
    (let s : State := st { ((base.wr R.ERR_INJECT_ARM 1).wr R.ERR_INJECT_MEM 4) with mode := .test, cul := { base.cul with code := [1, 2, 3, 4] } }
     s.m.mode = .test ∧ s.m.rd R.ERR_INJECT_ARM = 1 ∧ s.m.rd R.ERR_INJECT_MEM ≤ 4 ∧ s.wf = true ∧ 31 < 32 ∧ 0 % 4 = 0 ∧ 0 + 4 ≤ 1024 * s.m.cul.codeKib ∧ 0 < 0x80000) :=
  ⟨by decide +kernel, by decide +kernel, by decide +kernel, by decide +kernel⟩

/-- The hypotheses of TimeOrder hold together: a state and operands for each clause. -/
theorem witness_TimeOrder :
    (0xFFFFFFFF < 2 ^ 32 ∧ 0 < 2 ^ 32 ∧ ((7147483647 : Nat) : Int) - base.tns < 2 ^ 31 ∧ -(2 ^ 31) < ((2852516353 : Nat) : Int) - base.tns) := by
  decide +kernel

/-- The hypotheses of CountersSaturate hold together: a state and operands for each clause. -/
theorem witness_CountersSaturate :
    (SMap.rising base.regs = true ∧ base.rd (R.SWC_CNT_CNT 0 0) < 2 ^ (R.SWC_CNT_CNT 0 0).width) := by
  decide +kernel

end Sys2Proof.Tests
end

section
/-!
PROOFS. TS32 values as balanced remainders (R14), and the canonical form of the state after power-on.
-/

namespace Sys2Proof.Machine

/-! ### Two's complement and TS32 -/

/-- The two's complement reading of the low bits is the library's balanced remainder, so that its lemmas serve here. -/
theorem signedOf_eq_bmod (w n : Nat) : signedOf w n = (w : Int).bmod (2 ^ n) := by
  simp only [signedOf, Int.bmod_def, ← Int.natCast_emod]
  split <;> split <;> omega

/-- The difference of R14, for any two counts: their integer difference, balanced modulo 2^32. -/
theorem tsDiff_eq_bmod (b a : Nat) : tsDiff b a = ((b : Int) - a).bmod (2 ^ 32) := by
  have shift : ((b + 2 ^ 32 - a % 2 ^ 32 : Nat) : Int) = b - (a : Int) % (2 ^ 32 : Nat) + (2 ^ 32 : Nat) := by omega
  rw [tsDiff, signedOf_eq_bmod, shift, Int.add_bmod_right, Int.sub_emod_bmod]

/-- The difference looks only at the low 32 bits of each count. -/
theorem tsDiff_mod_mod (b a : Nat) : tsDiff (b % 2 ^ 32) (a % 2 ^ 32) = tsDiff b a := by
  simp only [tsDiff_eq_bmod, Int.natCast_emod, Int.sub_emod_bmod, Int.emod_sub_bmod]

theorem tsDiff_congr (b a : Nat) : (tsDiff b a - ((b : Int) - a)) % 2 ^ 32 = 0 := by
  rw [tsDiff_eq_bmod]
  exact Int.emod_eq_zero_of_dvd Int.dvd_bmod_sub_self

theorem le_tsDiff (b a : Nat) : -(2 ^ 31) ≤ tsDiff b a := by
  rw [tsDiff_eq_bmod]
  exact Int.le_bmod (by decide)

theorem tsDiff_lt (b a : Nat) : tsDiff b a < 2 ^ 31 := by
  rw [tsDiff_eq_bmod]
  exact Int.bmod_lt (by decide)

/-- Counts closer together than 2^31 ns differ by exactly what R14 reads. -/
theorem tsDiff_eq_sub {b a : Nat} (lo : -(2 ^ 31) ≤ (b : Int) - a) (hi : (b : Int) - a < 2 ^ 31) :
    tsDiff b a = (b : Int) - a := by
  rw [tsDiff_eq_bmod]
  exact Int.bmod_eq_of_le lo hi

/-- The order of R14: a later value lies 1 to 2,147,483,647 ns ahead. -/
theorem tsLater_iff (b a : Nat) : tsLater b a = true ↔ 1 ≤ tsDiff b a ∧ tsDiff b a ≤ 2147483647 := by
  have hi := tsDiff_lt b a
  rw [tsLater, decide_eq_true_iff]
  omega

/-- The TS32 value of an instant less than 2^31 ns from now names that instant. -/
theorem Module.nsOfTs_mod_of_near (m : Module) {t : Nat} (lo : -(2 ^ 31) ≤ (t : Int) - m.tns) (hi : (t : Int) - m.tns < 2 ^ 31) :
    m.nsOfTs (t % 2 ^ 32) = t := by
  rw [Module.nsOfTs, Module.ts32, tsDiff_mod_mod, tsDiff_eq_sub lo hi]
  omega

/-- Settles O37: R14's difference is the balanced remainder modulo 2^32, which the bounds, the order and the naming of an instant
are read off. -/
theorem timeOrder : Obligations.TimeOrder :=
  ⟨fun _ => rfl,
    fun a b _ _ => ⟨tsDiff_congr b a, le_tsDiff b a, tsDiff_lt b a, tsLater_iff b a⟩,
    fun m _ hi lo => m.nsOfTs_mod_of_near (Int.le_of_lt lo) hi⟩

/-! ### The state after power-on -/

/-- Every store and every memory of the module is empty right after power-on, and so in canonical form. -/
theorem Module.wf_reset : Module.reset.wf = true := by decide

/-- Settles O2: the canonical form (assumption 5) of the module after power-on, with the empty queue of assumption 1. -/
theorem resetCanonical : Obligations.ResetCanonical := ⟨Module.wf_reset, rfl⟩

end Sys2Proof.Machine
end

section
/-!
PROOFS. Curd frames from opening to visibility (R25, R208, R209, R220, R228): what the parts of a close, of an opening and of a
frame that becomes visible leave alone, and the frames as each command leaves them.
-/

namespace Sys2Proof.Machine
open Sys2Proof.Claims

/-! ### Commands and folds -/

/-- A command that runs f completes with whatever holds of f's module in canonical form. -/
theorem completes_of_upd {i : Instr} {s : State} {f : Module → Module} {p : Module → Prop}
    (runs : exec i s = s.upd f) (holds : p (f s.m).settle) : completes i s p :=
  ⟨(f s.m).settle, runs, holds⟩

/-- A fold keeps what each of its steps keeps. -/
theorem foldl_keeps {α β : Type} (p : Module → β) {f : Module → α → Module} {l : List α}
    (h : ∀ (m : Module), ∀ x ∈ l, p (f m x) = p m) (m : Module) : p (l.foldl f m) = p m :=
  List.foldlRecOn l f (motive := fun n => p n = p m) rfl fun n hn x hx => (h n x hx).trans hn

/-! ### Time -/

/-- Time runs on to an instant that is ahead, and stands at one that is past. -/
theorem Module.tns_reach {m : Module} (run : m.mode ≠ .reset) (still : m.sys.still = false) (t : Nat) :
    (m.reach t).tns = max m.tns t := by
  simp only [Module.reach, Module.adv, Module.tns, still, run, nsUnit, Bool.false_eq_true, if_false]
  omega

@[simp] theorem Module.reach_regs (m : Module) (t : Nat) : (m.reach t).regs = m.regs := m.adv_regs _
@[simp] theorem Module.reach_vat (m : Module) (t : Nat) : (m.reach t).vat = m.vat := m.adv_vat _

/-- The Vat does not run in RESET (R216). -/
theorem Module.mode_ne_reset_of_vatOn {m : Module} (on : m.vatOn = true) : m.mode ≠ .reset := by
  intro e
  simp [Module.vatOn, e] at on

@[simp] theorem Module.settle_tns (m : Module) : m.settle.tns = m.tns := rfl

/-! ### What an opening and a close leave alone -/

theorem Module.tns_of_clk {m n : Module} (h : n.clk = m.clk) : n.tns = m.tns :=
  congrArg (· / nsUnit) h

theorem Module.clk_of_events {m n : Module} (h : m.ExceptEvents n) : n.clk = m.clk := by
  obtain ⟨_, _, rfl⟩ := h
  rfl

theorem Module.clk_strmCnt (m : Module) (s k : Nat) : (m.strmCnt s k).clk = m.clk := rfl
theorem Module.clk_setStream (m : Module) (s : Nat) (x : Stream) : (m.setStream s x).clk = m.clk := rfl

theorem Module.clk_takeCfg (m : Module) (s : Nat) : (m.takeCfg s).clk = m.clk := by
  unfold Module.takeCfg
  split <;> rfl

theorem Module.regs_takeCfg (m : Module) (s : Nat) : (m.takeCfg s).regs = m.regs := by
  unfold Module.takeCfg
  split <;> rfl

/-- Closing a slot changes its stream, counters and events: not the clock. -/
theorem Module.clk_closeSlot (m : Module) (s j cfg lim : Nat) (bad : Bool) :
    (m.closeSlot s j cfg lim bad).clk = m.clk := by
  unfold Module.closeSlot
  split
  · rfl
  · split
    · split <;> rfl
    · have counted : ∀ b : Bool, (if b then (m.strmCnt s 3).strmCnt s 12 else m.strmCnt s 3).clk = m.clk := by
        intro b; cases b <;> rfl
      dsimp only
      split
      · rw [Module.clk_of_events (Module.events_raiseIf ..), Module.clk_strmCnt, Module.clk_setStream, counted]
      · rw [Module.clk_setStream, counted]

theorem Module.tns_setRate (m : Module) (v : Nat) (r : VRate) : (m.setRate v r).tns = m.tns := rfl
theorem Module.streams_setRate (m : Module) (v : Nat) (r : VRate) : (m.setRate v r).vat.streams = m.vat.streams := rfl
theorem Module.get?_setRate (m : Module) (v : Nat) (r : VRate) : (m.setRate v r).vat.rates.get? v = some r :=
  SMap.get?_set_same _ _ _

/-! ### Opening and closing (R208, R209) -/

/-- The open frame that INSTANT_OPEN puts behind the others of its rate (R208, R209). -/
theorem mInstantOpen_opens {m : Module} {v : Nat} {r : VRate} (hr : m.vat.rates.get? v = some r) (on : m.vatOn = true)
    (running : r.running = true) :
    (mInstantOpen v m).tns = (m.reach (gridNs r.f r.nextG)).tns ∧
      ∃ f : OpenFrame, f.g = r.nextG ∧ f.w = m.rd (R.VAT_WINDOW_W_NS v) ∧
        (∀ i ∈ f.expected, ((mInstantOpen v m).vat.streams.get? i).map (·.state) = some .valid) ∧
        (mInstantOpen v m).vat.rates.get? v = some { r with nextG := r.nextG + 1, opens := r.opens ++ [f] } := by
  have goes : ¬ ((!m.vatOn) = true ∨ (!r.running) = true) := by simp [on, running]
  simp only [mInstantOpen, hr]
  rw [if_neg goes]
  have sameTime := foldl_keeps Module.clk (l := (m.reach (gridNs r.f r.nextG)).feeders v) (fun n s _ => n.clk_takeCfg s)
    (m.reach (gridNs r.f r.nextG))
  have sameRegs := foldl_keeps Module.regs (l := (m.reach (gridNs r.f r.nextG)).feeders v) (fun n s _ => n.regs_takeCfg s)
    (m.reach (gridNs r.f r.nextG))
  refine ⟨(Module.tns_setRate ..).trans (Module.tns_of_clk sameTime), _, rfl, ?_, ?_, Module.get?_setRate _ _ _⟩
  · simp only [Module.rd, sameRegs, Module.reach_regs]
  · intro i hi
    have valid := (List.mem_filter.mp hi).2
    rw [Module.streams_setRate]
    split at valid
    · rename_i x hx
      simpa [hx] using valid
    · cases valid

/-- The frame that a close takes from the open ones and puts behind the closed ones of its rate (R208). -/
theorem Module.closeFrame_closes {m : Module} {v : Nat} {r : VRate} {f : OpenFrame} {rest : List OpenFrame}
    (hr : m.vat.rates.get? v = some r) (ho : r.opens = f :: rest) (cause : Nat) :
    ∃ (y : VRate) (cd : Curd), (m.closeFrame v cause).vat.rates.get? v = some y ∧ y.opens = rest ∧ y.seq = r.seq + 1 ∧
      y.closing = r.closing ++ [cd] ∧ cd.g = f.g ∧ cd.seq = r.seq ∧ cd.instant = gridNs r.f f.g ∧ cd.closeTs = m.tns ∧
      cd.cause = cause := by
  simp only [Module.closeFrame, hr, ho]
  refine ⟨_, _, Module.get?_setRate _ _ _, rfl, rfl, rfl, rfl, rfl, rfl, ?_, rfl⟩
  exact Module.tns_of_clk
    (foldl_keeps Module.clk (fun n _ _ => foldl_keeps Module.clk (fun k _ _ => k.clk_closeSlot ..) n) m)

/-- CURD_FRAME_CLOSE closes the oldest open frame once it is complete or its window has ended (R208). -/
theorem mCurdFrameClose_eq {m : Module} {v : Nat} {r : VRate} {f : OpenFrame} {rest : List OpenFrame}
    (hr : m.vat.rates.get? v = some r) (ho : r.opens = f :: rest) (on : m.vatOn = true) (reached : gridNs r.f f.g ≤ m.tns)
    (due : f.expected.all (m.slotsPresent r f.g) = true ∨ gridNs r.f f.g + f.w ≤ m.tns) :
    mCurdFrameClose v m =
      m.closeFrame v (if f.expected = [] then 3 else if f.expected.all (m.slotsPresent r f.g) = true then 0 else 1) := by
  simp only [mCurdFrameClose, hr, ho]
  refine if_neg ?_
  rintro (off | early | ⟨missing, early⟩)
  · simp [on] at off
  · omega
  · rcases due with all | ended
    · simp [all] at missing
    · omega

/-- The register store of a module in canonical form has strictly rising keys. -/
theorem Module.rising_regs_of_wf {m : Module} (wf : m.wf = true) : SMap.rising m.regs = true := by
  rw [← Module.settle_eq wf]
  exact SMap.rising_tidy m.regs

/-! ### The window register (R209) -/

/-- The two fields of VAT_WINDOW stand at different places. -/
theorem vatWindow_key_ne (v : Nat) : (R.VAT_WINDOW_W_NS v).key ≠ (R.VAT_WINDOW_W_REFUSED_STK v).key := by
  simp [Fld.key, R.VAT_WINDOW_W_NS, R.VAT_WINDOW_W_REFUSED_STK]

/-- A write of VAT_WINDOW is refused below 1,000 ns and above the loaded W_NS; another takes effect (R209). -/
theorem mWindowWrite_writes {m : Module} (h : SMap.rising m.regs = true) (run : m.mode ≠ .reset) (v w : Nat) :
    if bitsOf w 0 21 < 1000 ∨ ((m.vat.rates.get? v).map (·.wLoaded)).getD 200000 < bitsOf w 0 21 then
      (mWindowWrite v w m).rd (R.VAT_WINDOW_W_REFUSED_STK v) = 1 ∧
        (mWindowWrite v w m).rd (R.VAT_WINDOW_W_NS v) = m.rd (R.VAT_WINDOW_W_NS v)
    else (mWindowWrite v w m).rd (R.VAT_WINDOW_W_NS v) = bitsOf w 0 21 := by
  obtain ⟨k, hk, rising, same, window⟩ : ∃ k : Module,
      (if bitOf w 21 then m.wr (R.VAT_WINDOW_W_REFUSED_STK v) 0 else m) = k ∧ SMap.rising k.regs = true ∧ k.vat = m.vat ∧
        k.rd (R.VAT_WINDOW_W_NS v) = m.rd (R.VAT_WINDOW_W_NS v) := by
    cases bitOf w 21
    · exact ⟨m, rfl, h, rfl, rfl⟩
    · exact ⟨_, rfl, Module.rising_wr h _ _, rfl, m.rd_wr_other _ (vatWindow_key_ne v)⟩
  simp only [mWindowWrite, run, if_false, hk, same]
  split
  · exact ⟨k.rd_wr_same rising _ _, (k.rd_wr_other _ (vatWindow_key_ne v)).trans window⟩
  · rw [k.rd_wr_same rising]
    exact Nat.mod_mod _ _

/-! ### Outputs and visibility (R25, R220, R228) -/

/-- CHAIN_OUTPUT fills the oldest closed frame that lacks the chain's output, where no set of the chain is damaged (R228). -/
theorem mChainOutput_rates {m : Module} {c : Nat} {ch : Chan} {r : VRate} {cd : Curd} (hc : m.chan? c = some ch)
    (hr : m.vat.rates.get? ch.vrate = some r) (lacks : (r.closing.find? fun x => (x.ins.get? c).isSome) = some cd)
    (whole : ∀ st ∈ ch.stages, m.setGone st.set = false) :
    (mChainOutput c m).vat.rates.get? ch.vrate = some { r with closing := r.closing.map fun x =>
      if x.seq = cd.seq then
        { x with outs := x.outs.set c (m.chainRun c ch cd.g cd.instant (cd.ins.getD c [])).2, ins := x.ins.erase c }
      else x } := by
  have sound : (ch.stages.any fun st => m.setGone st.set) = false := by simpa using whole
  simp only [mChainOutput, hc, hr, lacks, sound, Bool.false_eq_true, if_false, Option.getD_some]
  exact Module.get?_setRate _ _ _

/-- The oldest closed frame without a missing output becomes the newest row, and is delivered as an operand (R25). -/
theorem Module.curdVisible_eq {m : Module} {v : Nat} {r : VRate} {cd : Curd} {rest : List Curd}
    (hr : m.vat.rates.get? v = some r) (hc : r.closing = cd :: rest) (hi : cd.ins = []) :
    ∃ k : Module, m.curdVisible v = some (k, cd) ∧
      k.vat.rates.get? v = some { r with closing := rest, rows := (cd :: r.rows).take r.depth } ∧
      k.ladle.arrivals = m.ladle.arrivals ++ (m.slotsFor 1 v).map (fun x => (x.1, x.2, cd.instant % 2 ^ 32)) ∧
      k.acq = m.acq := by
  simp only [Module.curdVisible, hr, hc, hi, ne_eq, not_true_eq_false, if_false]
  refine ⟨_, rfl, ?_, ?_, ?_⟩ <;> split
  · exact Module.get?_setRate _ _ _
  · exact Module.get?_setRate _ _ _
  all_goals rfl

/-- The parts of the module in which a visible frame shows. -/
def Module.vatLadleAcq (m : Module) : Vat × Ladle × Acq := (m.vat, m.ladle, m.acq)

theorem Module.vatLadleAcq_of_errors {m n : Module} (h : m.ExceptErrors n) : n.vatLadleAcq = m.vatLadleAcq := by
  obtain ⟨_, _, _, rfl⟩ := h
  rfl

/-- Where no session stands on the rate, what follows a visible frame leaves the Vat and the operands alone. -/
theorem mCurdFrameVisible_of_no_session {m k : Module} {v : Nat} {cd : Curd} (visible : m.curdVisible v = some (k, cd))
    (free : ∀ x ∈ k.acq.sessions, x.2.vrate ≠ v) (drained : List (Nat × Nat)) (err : ReadErr) (poison : List Nat) :
    (mCurdFrameVisible v drained err poison m).vat = k.vat ∧ (mCurdFrameVisible v drained err poison m).ladle = k.ladle := by
  suffices same : (mCurdFrameVisible v drained err poison m).vatLadleAcq = k.vatLadleAcq from
    ⟨congrArg Prod.fst same, congrArg (·.2.1) same⟩
  simp only [mCurdFrameVisible, visible]
  generalize hn : List.foldl _ (k.readReport err 1 8 11 0xFFF 0) _ = n
  have queued : n.vatLadleAcq = k.vatLadleAcq := by
    subst hn
    refine (foldl_keeps Module.vatLadleAcq (fun _ _ _ => ?_) _).trans (Module.vatLadleAcq_of_errors (k.errors_readReport ..))
    rfl
  have sessions : n.acq = k.acq := congrArg (·.2.2) queued
  split
  · exact queued
  · refine (foldl_keeps Module.vatLadleAcq (fun j x hx => ?_) n).trans queued
    rw [if_neg (free x (sessions ▸ hx))]

/-! ### The clauses -/

/-- R208, R209: opening, the end of a window, the close, and the window register. -/
theorem curdFramesClaim : CurdFramesClaim := by
  refine ⟨?_, ?_, ?_, ?_⟩
  · intro s v r hr on running still
    obtain ⟨time, f, opened⟩ := mInstantOpen_opens hr on running
    exact completes_of_upd rfl ⟨time.trans (Module.tns_reach (Module.mode_ne_reset_of_vatOn on) still _), f, opened⟩
  · intro s v r f rest hr ho on still ahead
    have e : mWindowEnd v s.m = s.m.reach (gridNs r.f f.g + f.w) := by simp only [mWindowEnd, hr, ho, on, if_true]
    refine completes_of_upd (f := mWindowEnd v) rfl ?_
    rw [e, Module.settle_tns, Module.tns_reach (Module.mode_ne_reset_of_vatOn on) still, Module.settle_vat, Module.reach_vat]
    exact ⟨max_eq_right (Nat.le_of_lt ahead), rfl⟩
  · intro s v r f rest hr ho on reached due
    refine completes_of_upd (f := mCurdFrameClose v) rfl ?_
    rw [mCurdFrameClose_eq hr ho on reached due]
    exact Module.closeFrame_closes hr ho _
  · intro s v w run _ wf
    refine completes_of_upd (f := mWindowWrite v w) rfl ?_
    simp only [Module.rd_settle]
    exact mWindowWrite_writes (Module.rising_regs_of_wf wf) run v w

/-- R25, R220, R228: a chain's output, and the frame that becomes visible. -/
theorem curdOutputsClaim : CurdOutputsClaim := by
  refine ⟨?_, ?_⟩
  · intro s c ch r cd hc hr lacks whole
    exact completes_of_upd rfl (mChainOutput_rates hc hr lacks whole)
  · intro s v drained err poison r cd rest hr hc hi free
    obtain ⟨k, visible, row, operands, sessions⟩ := Module.curdVisible_eq hr hc hi
    obtain ⟨vat, ladle⟩ := mCurdFrameVisible_of_no_session visible (sessions ▸ free) drained err poison
    refine completes_of_upd (f := mCurdFrameVisible v drained err poison) rfl ⟨?_, ?_⟩
    · rw [Module.settle_vat, vat, row]
    · rw [← operands, ← ladle]
      rfl

/-- Settles O49: `curdFramesClaim` for the frames from opening to close, and `curdOutputsClaim` for the outputs and the frame that
becomes visible, each clause from the lemma about its command. -/
theorem curdFlow : Obligations.CurdFlow := ⟨curdFramesClaim, curdOutputsClaim⟩

end Sys2Proof.Machine
end

section
/-!
PROOFS. Configuration transactions (R56 to R62): each command on a slot, and what it leaves in the slot's registers and in the
Press.
-/

namespace Sys2Proof.Machine
open Sys2Proof.Claims

/-! ### A slot of the Press -/

/-- Sets a transaction slot of the Press. -/
def Module.setTxn (m : Module) (n : Nat) (t : Txn) : Module :=
  { m with press := { m.press with txns := m.press.txns.set n t } }

@[simp] theorem Module.rd_setTxn (m : Module) (n : Nat) (t : Txn) (f : Fld) : (m.setTxn n t).rd f = m.rd f := rfl

theorem Module.get?_setTxn (m : Module) (n : Nat) (t : Txn) : (m.setTxn n t).press.txns.get? n = some t :=
  SMap.get?_set_same _ _ _

/-! ### The fields of a slot's status -/

theorem Module.rd_txnState_state {m : Module} (h : SMap.rising m.regs = true) (n st cause : Nat) :
    (m.txnState n st cause).rd (R.PRS_TXN_STAT_STATE n) = st % 2 ^ 3 := by
  rw [Module.txnState, Module.rd_wr_other, Module.rd_wr_same _ h]
  · rfl
  · simp [Fld.key, R.PRS_TXN_STAT_STATE, R.PRS_TXN_STAT_CAUSE]

theorem Module.rd_txnState_cause {m : Module} (h : SMap.rising m.regs = true) (n st cause : Nat) :
    (m.txnState n st cause).rd (R.PRS_TXN_STAT_CAUSE n) = cause % 2 ^ 4 :=
  Module.rd_wr_same _ (Module.rising_wr h _ _) _ _

theorem Module.rising_txnState {m : Module} (h : SMap.rising m.regs = true) (n st cause : Nat) :
    SMap.rising (m.txnState n st cause).regs = true :=
  Module.rising_wr (Module.rising_wr h _ _) _ _

/-- A slot that is not in RESET and shows OPEN takes the commands of R57 to R62. -/
theorem Module.txnOpen_of_state {m : Module} {n : Nat} (slot : n < 8) (run : m.mode ≠ .reset)
    (opened : m.rd (R.PRS_TXN_STAT_STATE n) = 1) : m.txnOpen n = true := by
  simp [Module.txnOpen, slot, run, opened]

/-! ### Time -/

/-- Elapsed time runs on to an instant that is ahead, and stands at one that is past. -/
theorem Module.mono_reachMono {m : Module} (still : m.sys.still = false) (t : Nat) :
    (m.reachMono t).mono = max m.mono t := by
  simp only [Module.reachMono, Module.adv, still, Bool.false_eq_true, if_false]
  omega

theorem Module.reachMono_regs (m : Module) (t : Nat) : (m.reachMono t).regs = m.regs := m.adv_regs _

/-! ### The commands -/

/-- BEGIN on a slot that is neither OPEN nor waiting for its epoch opens it, with nothing staged (R56). -/
theorem mTxnBegin_opens {m : Module} {n : Nat} (h : SMap.rising m.regs = true) (slot : n < 8) (run : m.mode ≠ .reset)
    (closed : m.rd (R.PRS_TXN_STAT_STATE n) ≠ 1) (idle : m.rd (R.PRS_TXN_STAT_STATE n) ≠ 2) :
    (mTxnBegin n m).rd (R.PRS_TXN_STAT_STATE n) = 1 ∧ (mTxnBegin n m).rd (R.PRS_TXN_STAT_COUNT n) = 0 ∧
      (mTxnBegin n m).press.txns.get? n = some ⟨[], none, m.mono, false, false⟩ := by
  have goes : ¬ (8 ≤ n ∨ m.mode = .reset ∨ m.rd (R.PRS_TXN_STAT_STATE n) = 1 ∨ m.rd (R.PRS_TXN_STAT_STATE n) = 2) := by
    simp [slot, run, closed, idle]
  have eq : mTxnBegin n m = ((((m.txnState n 1 0).wr (R.PRS_TXN_STAT_CONFLICT n) 0).wr (R.PRS_TXN_STAT_COUNT n) 0).wr
      (R.PRS_TXN_STAT_FAIL_INDEX n) 0).setTxn n ⟨[], none, m.mono, false, false⟩ := if_neg goes
  rw [eq]
  refine ⟨?_, ?_, Module.get?_setTxn _ _ _⟩
  · rw [Module.rd_setTxn, Module.rd_wr_other, Module.rd_wr_other, Module.rd_wr_other, Module.rd_txnState_state h]
    all_goals simp [Fld.key, R.PRS_TXN_STAT_STATE, R.PRS_TXN_STAT_CONFLICT, R.PRS_TXN_STAT_COUNT, R.PRS_TXN_STAT_FAIL_INDEX]
  · rw [Module.rd_setTxn, Module.rd_wr_other, Module.rd_wr_same _ (Module.rising_wr (Module.rising_txnState h _ _ _) _ _)]
    · exact Nat.zero_mod _
    · simp [Fld.key, R.PRS_TXN_STAT_COUNT, R.PRS_TXN_STAT_FAIL_INDEX]

/-- DATA of an OPEN slot with room stages one write at ADDR, which moves on by 4 (R57). -/
theorem mTxnDataWrite_stages {m : Module} {n : Nat} {t : Txn} (h : SMap.rising m.regs = true)
    (held : m.press.txns.get? n = some t) (takes : m.txnOpen n = true) (room : t.staged.length < 1024) (v : Nat) :
    (mTxnDataWrite n v m).rd (R.PRS_TXN_STAT_COUNT n) = t.staged.length + 1 ∧
      (mTxnDataWrite n v m).rd (R.PRS_TXN_ADDR_ADDR n) =
        (m.rd (R.PRS_TXN_ADDR_ADDR n) + 4) % 2 ^ (R.PRS_TXN_ADDR_ADDR n).width ∧
      (mTxnDataWrite n v m).press.txns.get? n = some { t with
        staged := t.staged ++ [(m.rd (R.PRS_TXN_ADDR_ADDR n) / 4 * 4, v % 2 ^ 32)], lastAccess := m.mono } := by
  have eq : mTxnDataWrite n v m = ((m.wr (R.PRS_TXN_ADDR_ADDR n) (m.rd (R.PRS_TXN_ADDR_ADDR n) + 4)).wr (R.PRS_TXN_STAT_COUNT n)
      (t.staged ++ [(m.rd (R.PRS_TXN_ADDR_ADDR n) / 4 * 4, v % 2 ^ 32)]).length).setTxn n { t with
        staged := t.staged ++ [(m.rd (R.PRS_TXN_ADDR_ADDR n) / 4 * 4, v % 2 ^ 32)], lastAccess := m.mono } := by
    simp only [mTxnDataWrite, held, takes, Bool.not_true, Bool.false_eq_true, if_false, Nat.not_le.mpr room]
    rfl
  rw [eq]
  refine ⟨?_, ?_, Module.get?_setTxn _ _ _⟩
  · rw [Module.rd_setTxn, Module.rd_wr_same _ (Module.rising_wr h _ _), List.length_append]
    exact Nat.mod_eq_of_lt (by simp only [R.PRS_TXN_STAT_COUNT, List.length_singleton]; omega)
  · rw [Module.rd_setTxn, Module.rd_wr_other, Module.rd_wr_same _ h]
    simp only [Fld.key, R.PRS_TXN_STAT_COUNT, R.PRS_TXN_ADDR_ADDR]
    omega

/-- COMMIT and COMMIT_AT of sound writes, at a time that is ahead where one is given, leave the slot waiting for its epoch
(R58, R60). -/
theorem Module.txnCommit_waits {m : Module} {n : Nat} {t : Txn} {at_ : Option Nat} (h : SMap.rising m.regs = true)
    (held : m.press.txns.get? n = some t) (takes : m.txnOpen n = true) (sound : m.txnCheck 0 [] t.staged = none)
    (ahead : ∀ x, at_ = some x → tsLater x m.ts32 = true) :
    (m.txnCommit n at_).rd (R.PRS_TXN_STAT_STATE n) = 2 ∧
      (m.txnCommit n at_).press.txns.get? n = some { t with commitAt := at_.map m.nsOfTs, lastAccess := m.mono } := by
  have early : (at_.any fun x => !tsLater x m.ts32) = false := by
    cases at_ with
    | none => rfl
    | some x => rw [Option.any_some, ahead x rfl, Bool.not_true]
  have eq : m.txnCommit n at_ = ((m.setTxn n { t with commitAt := at_.map m.nsOfTs, lastAccess := m.mono }).txnState n 2 0).wr
      (R.PRS_TXN_STAT_CONFLICT n) (b2n t.conflict) := by
    simp only [Module.txnCommit, held, takes, sound, early, Bool.not_true, Bool.false_eq_true, if_false, Module.setTxn]
  rw [eq]
  refine ⟨?_, Module.get?_setTxn _ _ _⟩
  rw [Module.rd_wr_other]
  · exact Module.rd_txnState_state (m := m.setTxn n _) h n 2 0
  · simp [Fld.key, R.PRS_TXN_STAT_STATE, R.PRS_TXN_STAT_CONFLICT]

/-- ABORT of an OPEN slot (R62). -/
theorem mTxnAbort_fails {m : Module} {n : Nat} (h : SMap.rising m.regs = true) (takes : m.txnOpen n = true) :
    (mTxnAbort n m).rd (R.PRS_TXN_STAT_STATE n) = 4 ∧ (mTxnAbort n m).rd (R.PRS_TXN_STAT_CAUSE n) = 8 := by
  rw [mTxnAbort, if_pos takes]
  exact ⟨Module.rd_txnState_state h _ _ _, Module.rd_txnState_cause h _ _ _⟩

/-- The timeout of an OPEN slot, PRS_TXN_TMO milliseconds after its last access (R62). -/
theorem mTxnTimeout_fails {m : Module} {n : Nat} {t : Txn} (h : SMap.rising m.regs = true)
    (held : m.press.txns.get? n = some t) (takes : m.txnOpen n = true) (still : m.sys.still = false) :
    (mTxnTimeout n m).rd (R.PRS_TXN_STAT_STATE n) = 4 ∧ (mTxnTimeout n m).rd (R.PRS_TXN_STAT_CAUSE n) = 5 ∧
      (mTxnTimeout n m).mono = max m.mono (t.lastAccess + m.rd R.PRS_TXN_TMO_TMO_MS * 1000000 * nsUnit) := by
  simp only [mTxnTimeout, held, takes, if_true]
  have later : SMap.rising (m.reachMono (t.lastAccess + m.rd R.PRS_TXN_TMO_TMO_MS * 1000000 * nsUnit)).regs = true := by
    rwa [Module.reachMono_regs]
  exact ⟨Module.rd_txnState_state later _ _ _, Module.rd_txnState_cause later _ _ _, Module.mono_reachMono still _⟩

/-- The time of COMMIT_AT is reached: the next apply step takes the slot (R60). -/
theorem mTxnAtReached_reaches {m : Module} {n a : Nat} {t : Txn} (held : m.press.txns.get? n = some t) (due : t.commitAt = some a)
    (run : m.mode ≠ .reset) (still : m.sys.still = false) :
    (mTxnAtReached n m).tns = max m.tns a ∧ (mTxnAtReached n m).press.txns.get? n = some { t with commitAt := none } := by
  have eq : mTxnAtReached n m = (m.reach a).setTxn n { t with commitAt := none } := by
    simp only [mTxnAtReached, held, due]
    rfl
  rw [eq]
  exact ⟨Module.tns_reach run still a, Module.get?_setTxn _ _ _⟩

/-- Settles O30, each command from the lemma about it; COMMIT and COMMIT_AT rest on what assumption 44 has them check. -/
theorem transactions : Obligations.Transactions := by
  intro s n slot run wf
  have h : SMap.rising s.m.regs = true := Module.rising_regs_of_wf wf
  refine ⟨fun closed idle => ?_, fun t held opened => ?_, fun t a held due still => ?_⟩
  · refine completes_of_upd (f := mTxnBegin n) rfl ?_
    simp only [Module.rd_settle]
    exact mTxnBegin_opens h slot run closed idle
  · have takes := Module.txnOpen_of_state slot run opened
    refine ⟨fun v room => ?_, fun sound => ?_, fun sound ahead => ?_, ?_, fun still => ?_⟩
    · refine completes_of_upd (f := mTxnDataWrite n v) rfl ?_
      simp only [Module.rd_settle]
      exact mTxnDataWrite_stages h held takes room v
    · refine completes_of_upd (f := mTxnCommit n) rfl ?_
      simp only [Module.rd_settle]
      exact Module.txnCommit_waits h held takes sound (at_ := none) nofun
    · refine completes_of_upd (f := mTxnCommitAt n) rfl ?_
      simp only [Module.rd_settle]
      exact Module.txnCommit_waits h held takes sound (fun _ given => Option.some.inj given ▸ ahead)
    · refine completes_of_upd (f := mTxnAbort n) rfl ?_
      simp only [Module.rd_settle]
      exact mTxnAbort_fails h takes
    · refine completes_of_upd (f := mTxnTimeout n) rfl ?_
      simp only [Module.rd_settle]
      exact mTxnTimeout_fails h held takes still
  · exact completes_of_upd (f := mTxnAtReached n) rfl (mTxnAtReached_reaches held due run still)

end Sys2Proof.Machine
end

section
/-!
PROOFS. The Press from hand-off to visibility (R36, R42, R43, R51, R52, R285).
-/

namespace Sys2Proof.Machine
open Sys2Proof.Claims

/-! ### What leaves the Press and the tasks alone -/

/-- The parts of the module in which a hand-off and the acts that follow it show. -/
def Module.pressTasks (m : Module) : Press × Culture × SMap TaskSt := (m.press, m.cul, m.ladle.tasks)

theorem Module.pressTasks_of_events {m n : Module} (h : m.ExceptEvents n) : n.pressTasks = m.pressTasks := by
  obtain ⟨_, _, rfl⟩ := h
  rfl

theorem Module.pressTasks_trace (m : Module) (typ cause t ct e c detail : Nat) :
    (m.trace typ cause t ct e c detail).pressTasks = m.pressTasks := by
  unfold Module.trace Module.traceWords
  split
  · rfl
  · split
    · rfl
    · split <;> rfl

theorem Module.pressTasks_noRecord (m : Module) (t ct : Nat) : (m.noRecord t ct).pressTasks = m.pressTasks := by
  unfold Module.noRecord
  split
  · split <;> rfl
  · rfl

theorem Module.pressTasks_endOnEngine (m : Module) (e : Nat) (x : Ctx) : (m.endOnEngine e x).pressTasks = m.pressTasks := by
  unfold Module.endOnEngine
  split
  · rfl
  · dsimp only
    split
    · rfl
    · refine (Module.pressTasks_of_events (Module.events_raiseIf ..)).trans ?_
      split <;> rfl

theorem Module.pressTasks_freeCtx (m : Module) (e c : Nat) : (m.freeCtx e c).pressTasks = m.pressTasks := by
  unfold Module.freeCtx
  split
  · rfl
  · exact m.pressTasks_endOnEngine e _

theorem Module.engines_of_events {m n : Module} (h : m.ExceptEvents n) : n.engines = m.engines := by
  obtain ⟨_, _, rfl⟩ := h
  rfl

/-- A cycle that ends on its engine leaves the engine's contexts as they are (R298). -/
theorem Module.ctxs_endOnEngine (m : Module) (e : Nat) (x : Ctx) :
    ((m.endOnEngine e x).engine e).ctxs = (m.engine e).ctxs := by
  have marked : ((m.setEngine e { m.engine e with prevMissed := x.missed }).engine e).ctxs = (m.engine e).ctxs := by
    rw [Module.engine_setEngine, if_pos rfl]
  have of_engines {k : Module} (same : k.engines = (m.setEngine e { m.engine e with prevMissed := x.missed }).engines) :
      (k.engine e).ctxs = (m.engine e).ctxs := by
    rw [← marked, Module.engine, same]
    rfl
  unfold Module.endOnEngine
  split
  · rfl
  · dsimp only
    split
    · exact marked
    · refine of_engines ((Module.engines_of_events (Module.events_raiseIf ..)).trans ?_)
      split <;> rfl

/-- A context that is freed is held no more (R246, R285). -/
theorem Module.ctx?_freeCtx {m : Module} {e : Nat} (rising : SMap.rising (m.engine e).ctxs = true) (c : Nat) :
    (m.freeCtx e c).ctx? e c = none := by
  unfold Module.freeCtx
  split
  · assumption
  · dsimp only
    rw [Module.ctx?, Module.engine_setEngine, if_pos rfl, Module.ctxs_endOnEngine]
    exact SMap.get?_erase_same rising c

/-! ### Tasks -/

theorem Module.task_modTask (m : Module) (t : Nat) (f : TaskSt → TaskSt) (u : Nat) :
    (m.modTask t f).task u = if u = t then f (m.task t) else m.task u := by
  unfold Module.task Module.modTask Module.setTask SMap.getD
  dsimp only
  rw [SMap.get?_set]
  split <;> rfl

theorem Module.task_of_pressTasks {m n : Module} (h : n.pressTasks = m.pressTasks) (t : Nat) : n.task t = m.task t :=
  congrArg (fun p => p.2.2.getD t (TaskSt.init false)) h

/-- A dispatched cycle that ends is held by its task no more (R306). -/
theorem Module.running_endCycle (m : Module) (t ct : Nat) : ((m.endCycle t ct).task t).running = none := by
  rw [Module.endCycle, Module.task_of_pressTasks (Module.pressTasks_of_events (Module.events_wr _ _ _)), Module.task_modTask,
    if_pos rfl]

/-! ### Hand-off (R285) -/

/-- The module in which the cycle of a context has ended with its hand-off. -/
def Module.handedOff (m : Module) (e c : Nat) (x : Ctx) : Module :=
  ((m.freeCtx e c).endCycle x.task x.ct).modTask x.task fun t => { t with handed := some x.ct, consecOvr := 0 }

/-- A record outside every group waits for admission once it is handed off; beside it, only registers change (R285). -/
theorem Module.handOff_ungrouped (m : Module) (e c : Nat) (x : Ctx) {r : CRec} (ungrouped : r.group = none) :
    ∃ k : Module, (m.handedOff e c x).ExceptEvents k ∧ m.handOff e c x r =
      { k with press := { k.press with pending := insRec { r with handed := m.mono } k.press.pending } } := by
  simp only [Module.handOff, ungrouped]
  exact ⟨_, ((Module.events_wr _ _ _).trans (Module.events_bump _ _)).trans (Module.events_bump _ _), rfl⟩

/-- A hand-off before the budget and the deadline close is carried out (R285, R303). -/
theorem mHandOff_eq {m : Module} {e c : Nat} {x : Ctx} {r : CRec} {t : TaskRec} (held : m.ctx? e c = some x)
    (handing : x.phase = .handing r) (known : m.taskRec x.task = some t) (on : m.pressOn = true)
    (free : (m.press.pending.any fun y => y.engine == e) = false)
    (budget : m.mono < x.firstAt.getD m.mono + t.budgetNs * nsUnit) (deadline : m.tns < m.nsOfTs x.ct + t.deadlineNs) :
    mHandOff e c m = m.handOff e c x r := by
  simp only [mHandOff, held, handing, known, on, free, Bool.not_true, Bool.false_eq_true, or_self, if_false,
    Nat.not_le.mpr budget, Nat.not_le.mpr deadline]

theorem Module.press_handedOff (m : Module) (e c : Nat) (x : Ctx) : (m.handedOff e c x).press = m.press :=
  congrArg Prod.fst (m.pressTasks_freeCtx e c)

theorem Module.ctx?_of_events {m n : Module} (h : m.ExceptEvents n) (e c : Nat) : n.ctx? e c = m.ctx? e c := by
  obtain ⟨_, _, rfl⟩ := h
  rfl

/-- The task of a cycle that is handed off runs nothing, waits for the cycle's record, and has no overruns in a row (R285, R303). -/
theorem Module.task_handedOff (m : Module) (e c : Nat) (x : Ctx) :
    ((m.handedOff e c x).task x.task).running = none ∧ ((m.handedOff e c x).task x.task).handed = some x.ct ∧
      ((m.handedOff e c x).task x.task).consecOvr = 0 := by
  rw [Module.handedOff, Module.task_modTask, if_pos rfl]
  exact ⟨Module.running_endCycle _ _ _, rfl, rfl⟩

/-- R285: a record of a task outside every group waits for admission once it is handed off, and its cycle has ended. -/
theorem Module.handOff_waits {m : Module} {e : Nat} (rising : SMap.rising (m.engine e).ctxs = true) (c : Nat) (x : Ctx) {r : CRec}
    (ungrouped : r.group = none) :
    (m.handOff e c x r).press.pending = insRec { r with handed := m.mono } m.press.pending ∧
      (m.handOff e c x r).ctx? e c = none ∧ ((m.handOff e c x r).task x.task).running = none ∧
      ((m.handOff e c x r).task x.task).handed = some x.ct ∧ ((m.handOff e c x r).task x.task).consecOvr = 0 := by
  obtain ⟨k, counted, eq⟩ := m.handOff_ungrouped e c x ungrouped
  have kept := Module.pressTasks_of_events counted
  have waits : k.press.pending = m.press.pending := by
    rw [show k.press = (m.handedOff e c x).press from congrArg Prod.fst kept, Module.press_handedOff]
  have freed : k.ctx? e c = none := (Module.ctx?_of_events counted e c).trans (Module.ctx?_freeCtx rising c)
  have ended := m.task_handedOff e c x
  rw [← Module.task_of_pressTasks kept] at ended
  rw [eq, ← waits]
  exact ⟨rfl, freed, ended⟩

/-! ### Acts -/

theorem Module.run_cons (k : Nat) (a : Act) (l : List Act) (m : Module) :
    Module.run (k + 1) (a :: l) m = Module.run k ((m.act a).2 ++ l) (m.act a).1 := rfl

theorem Module.run_cons_of_quiet {m : Module} {a : Act} (quiet : m.act a = (m, [])) (k : Nat) (l : List Act) :
    Module.run (k + 1) (a :: l) m = Module.run k l m := by
  rw [Module.run_cons, quiet, List.nil_append]

theorem Module.run_nil (k : Nat) (m : Module) : Module.run k [] m = m := by cases k <;> rfl

/-- Who waits on a cycle depends on the descriptors and the open cycles only (R293). -/
theorem Module.waiters_congr {m n : Module} (cul : n.cul = m.cul) (opens : ∀ u, (n.task u).opens = (m.task u).opens)
    (t ct : Nat) : n.waiters t ct = m.waiters t ct := by
  simp only [Module.waiters, cul, opens]

theorem Module.taskGroup_congr {m n : Module} (cul : n.cul = m.cul) (t : Nat) : n.taskGroup t = m.taskGroup t := by
  simp only [Module.taskGroup, Module.taskRec, cul]

/-- A group that has failed for an instant takes no report of a cycle of that instant (R51). -/
theorem Module.act_report_of_failed {m : Module} {t g ct : Nat} (member : m.taskGroup t = some g)
    (closed : m.press.groups.get? g = none) (failed : m.press.lastFailed.get? g = some ct) : m.act (.report t ct) = (m, []) := by
  simp only [Module.act, member, closed, failed, if_true]

theorem Module.act_chain_of_alone {m : Module} {t ct : Nat} (alone : m.waiters t ct = []) : m.act (.chain t ct) = (m, []) := by
  simp only [Module.act, alone, List.map_nil]

/-! ### A discarded record (R47) -/

/-- The task without a handed-off cycle of an instant. -/
def TaskSt.clearHanded (ct : Nat) (x : TaskSt) : TaskSt := { x with handed := if x.handed = some ct then none else x.handed }

theorem TaskSt.handed_clearHanded (ct : Nat) (x : TaskSt) : (x.clearHanded ct).handed ≠ some ct := by
  unfold TaskSt.clearHanded
  dsimp only
  split
  · nofun
  · assumption

theorem Module.opens_clearHanded (m : Module) (t ct u : Nat) :
    ((m.modTask t (TaskSt.clearHanded ct)).task u).opens = (m.task u).opens := by
  rw [Module.task_modTask]
  split
  · subst u; rfl
  · rfl

/-- The module in which the Press has discarded a record and the Ladle has lost its cycle. -/
def Module.loseRec (m : Module) (r : CRec) (n : Nat) : Module :=
  (((m.bump (R.PRS_DISC_CNT_CNT n)).modTask r.task (TaskSt.clearHanded r.ct)).act (.lost r.task r.ct 10 r.engine r.ctx n)).1

/-- A record discarded for another cause than its form loses its cycle, which is reported to its group and to those that wait. -/
theorem Module.run_discard (k : Nat) (r : CRec) {n : Nat} (sound : n ≠ 2) (l : List Act) (m : Module) :
    Module.run (k + 2) (.discard r n :: l) m = Module.run k (.report r.task r.ct :: .chain r.task r.ct :: l) (m.loseRec r n) := by
  have discards : m.act (.discard r n) = ((m.bump (R.PRS_DISC_CNT_CNT n)).modTask r.task (TaskSt.clearHanded r.ct),
      [.lost r.task r.ct 10 r.engine r.ctx n]) := by
    simp only [Module.act, sound, if_false]
    rfl
  rw [Module.run_cons, discards]
  rfl

theorem Module.pressTasks_loseRec (m : Module) (r : CRec) (n : Nat) : (m.loseRec r n).pressTasks =
    (((m.bump (R.PRS_DISC_CNT_CNT n)).modTask r.task (TaskSt.clearHanded r.ct)).modTask r.task
      (TaskSt.clearHanded r.ct)).pressTasks :=
  (Module.pressTasks_noRecord ..).trans
    ((Module.pressTasks_of_events (Module.events_bump _ _)).trans (Module.pressTasks_trace ..))

theorem Module.press_loseRec (m : Module) (r : CRec) (n : Nat) : (m.loseRec r n).press = m.press :=
  congrArg Prod.fst (m.pressTasks_loseRec r n)

theorem Module.cul_loseRec (m : Module) (r : CRec) (n : Nat) : (m.loseRec r n).cul = m.cul :=
  congrArg (·.2.1) (m.pressTasks_loseRec r n)

theorem Module.opens_loseRec (m : Module) (r : CRec) (n u : Nat) : ((m.loseRec r n).task u).opens = (m.task u).opens := by
  rw [Module.task_of_pressTasks (m.pressTasks_loseRec r n), Module.opens_clearHanded, Module.opens_clearHanded]
  rfl

theorem Module.handed_loseRec (m : Module) (r : CRec) (n : Nat) : ((m.loseRec r n).task r.task).handed ≠ some r.ct := by
  rw [Module.task_of_pressTasks (m.pressTasks_loseRec r n), Module.task_modTask, if_pos rfl]
  exact TaskSt.handed_clearHanded _ _

/-! ### A commit group that fails (R52) -/

/-- The module in which the collection of a group has ended with its failure. -/
def Module.failGroup (m : Module) (g : Nat) (y : GroupColl) (cause : Nat) : Module :=
  ({ m with press := { m.press with groups := m.press.groups.erase g } } : Module).grpFailed g y.ct cause

theorem Module.act_grpFail {m : Module} {g : Nat} {y : GroupColl} (collects : m.press.groups.get? g = some y) (cause : Nat) :
    m.act (.grpFail g cause) = (m.failGroup g y cause, y.recs.map fun r => .discard r 3) := by
  simp only [Module.act, collects]
  rfl

theorem Module.pressTasks_failGroup (m : Module) (g : Nat) (y : GroupColl) (cause : Nat) :
    (m.failGroup g y cause).pressTasks = ({ m.press with
      groups := m.press.groups.erase g, lastFailed := m.press.lastFailed.set g y.ct }, m.cul, m.ladle.tasks) := by
  unfold Module.failGroup Module.grpFailed
  exact Module.pressTasks_of_events (((Module.events_bump _ _).trans (Module.events_wr _ _ _)).trans (Module.events_wr _ _ _)
    |>.trans (Module.events_raise' ..))

/-- A group that collects one record fails: its collection ends, the record is discarded and its cycle lost, and nothing more
follows where no cycle waits on that one. -/
theorem Module.doActs_grpFail {m : Module} {g : Nat} {y : GroupColl} {r : CRec} (rising : SMap.rising m.press.groups = true)
    (collects : m.press.groups.get? g = some y) (one : y.recs = [r]) (same : r.ct = y.ct) (member : m.taskGroup r.task = some g)
    (alone : m.waiters r.task r.ct = []) (cause : Nat) :
    m.doActs [.grpFail g cause] = (m.failGroup g y cause).loseRec r 3 ∧
      ((m.failGroup g y cause).loseRec r 3).press = { m.press with
        groups := m.press.groups.erase g, lastFailed := m.press.lastFailed.set g y.ct } := by
  have parts := m.pressTasks_failGroup g y cause
  obtain ⟨k, hk⟩ : ∃ k, k = (m.failGroup g y cause).loseRec r 3 := ⟨_, rfl⟩
  have press : k.press = { m.press with groups := m.press.groups.erase g, lastFailed := m.press.lastFailed.set g y.ct } := by
    rw [hk, Module.press_loseRec]
    exact congrArg Prod.fst parts
  have cul : k.cul = m.cul := by
    rw [hk, Module.cul_loseRec]
    exact congrArg (·.2.1) parts
  have opens (u : Nat) : (k.task u).opens = (m.task u).opens := by
    rw [hk, Module.opens_loseRec]
    exact congrArg (fun p => (p.2.2.getD u (TaskSt.init false)).opens) parts
  have reported : k.act (.report r.task r.ct) = (k, []) := by
    refine Module.act_report_of_failed ((Module.taskGroup_congr cul _).trans member) ?_ ?_
    · rw [press]; exact SMap.get?_erase_same rising g
    · rw [press, same]; exact SMap.get?_set_same _ _ _
  have chained : k.act (.chain r.task r.ct) = (k, []) :=
    Module.act_chain_of_alone ((Module.waiters_congr cul opens _ _).trans alone)
  refine ⟨?_, hk ▸ press⟩
  -- Five acts are carried out: the failure, the discard, the loss, its report and its chain.
  rw [Module.doActs, show actFuel = 999995 + 5 from rfl, Module.run_cons, Module.act_grpFail collects, one, List.map_singleton,
    List.append_nil, Module.run_discard _ _ (by decide), ← hk, Module.run_cons_of_quiet reported,
    Module.run_cons_of_quiet chained, Module.run_nil]

/-- R51, R52: the window of a group that has collected one record ends. -/
theorem mGroupWindowEnd_fails {m : Module} {g : Nat} {y : GroupColl} {r : CRec} (rising : SMap.rising m.press.groups = true)
    (collects : m.press.groups.get? g = some y) (one : y.recs = [r]) (same : r.ct = y.ct) (member : m.taskGroup r.task = some g)
    (alone : m.waiters r.task r.ct = []) :
    (mGroupWindowEnd g m).press.groups = m.press.groups.erase g ∧ (mGroupWindowEnd g m).press.lastFailed.get? g = some y.ct ∧
      ((mGroupWindowEnd g m).task r.task).handed ≠ some r.ct := by
  have eq : mGroupWindowEnd g m = (m.reach (GroupColl.close m y.ct y.deadlineUs)).doActs [.grpFail g 1] := by
    simp only [mGroupWindowEnd, collects]
  obtain ⟨k, hk, press, cul, ladle⟩ : ∃ k, k = m.reach (GroupColl.close m y.ct y.deadlineUs) ∧ k.press = m.press ∧
    k.cul = m.cul ∧ k.ladle = m.ladle := ⟨_, rfl, Module.adv_press _ _, Module.adv_cul _ _, Module.adv_ladle _ _⟩
  have opens (u : Nat) : (k.task u).opens = (m.task u).opens := by simp only [Module.task, ladle]
  obtain ⟨ends, left⟩ := Module.doActs_grpFail (press ▸ rising) (press ▸ collects) one same
    ((Module.taskGroup_congr cul _).trans member) ((Module.waiters_congr cul opens _ _).trans alone) 1
  rw [eq, ← hk, ends, left, press]
  exact ⟨rfl, SMap.get?_set_same _ _ _, Module.handed_loseRec _ _ _⟩

/-- R285, R51, R52: the hand-off of a record outside every group, and the end of a group's window with one record. -/
theorem handOffsClaim : HandOffsClaim := by
  refine ⟨?_, ?_⟩
  · intro s e c x r t held handing known ungrouped on free budget deadline rising
    refine completes_of_upd (f := mHandOff e c) rfl ?_
    rw [mHandOff_eq held handing known on free budget deadline, Module.settle_press, Module.ctx?_settle, Module.task_settle]
    exact Module.handOff_waits rising c x ungrouped
  · intro s g y r collects one same member alone rising
    refine completes_of_upd (f := mGroupWindowEnd g) rfl ?_
    rw [Module.settle_press, Module.task_settle]
    exact mGroupWindowEnd_fails rising collects one same member alone

/-! ### Admission (R42, R43) -/

/-- Sound records that were read clean are admitted together, as one epoch whose writes end after the longest apply time. -/
theorem Module.admitList_sound {m : Module} {recs : List CRec} (waits : recs ≠ []) (sound : ∀ r ∈ recs, m.recCause r .clean = none) :
    m.admitList [] recs = m.openEpoch recs none [] (recs.foldl (fun a r => max a (recCycles r)) 2) := by
  have judged : (recs.map fun r => (r, m.recCause r .clean)) = recs.map fun r => (r, none) :=
    List.map_congr_left fun r hr => by rw [sound r hr]
  have good : ((recs.map fun r => (r, (none : Option Nat))).filter (·.2.isNone)).map (·.1) = recs := by
    simp [List.filter_map, Function.comp_def]
  have clean : recs.foldl (fun k r => k.readReport .clean 4 16 18 r.inst r.engine) m = m :=
    foldl_keeps id (fun _ _ _ => rfl) m
  simp only [Module.admitList, List.find?_nil, Option.map_none, Option.getD_none, judged, clean, good, waits, if_false]
  rw [show List.filterMap _ (recs.map fun r => (r, (none : Option Nat))) = [] by simp [List.filterMap_map]]
  exact Module.run_nil _ _

/-- The records that wait are admitted, up to eight of them, where no complete group waits. -/
theorem Module.admitRecs_of_no_group {m : Module} (alone : m.press.complete = []) (errs : List (Nat × ReadErr)) :
    m.admitRecs errs = ({ m with press := { m.press with pending := m.press.pending.drop 8 } } : Module).admitList errs
      (m.press.pending.take 8) := by
  simp only [Module.admitRecs, alone, List.foldl_nil]

/-- R42, R43: an admission of at most eight sound records. -/
theorem mAdmission_admits {m : Module} (on : m.pressOn = true) (alone : m.press.complete = []) (waits : m.press.pending ≠ [])
    (few : m.press.pending.length ≤ 8) (sound : ∀ r ∈ m.press.pending, m.recCause r .clean = none) (calm : m.dueTxn = none) :
    mAdmission [] m = ({ m with press := { m.press with pending := [] } } : Module).openEpoch m.press.pending none []
      (m.press.pending.foldl (fun a r => max a (recCycles r)) 2) := by
  have admits : m.admitRecs [] = ({ m with press := { m.press with pending := [] } } : Module).openEpoch m.press.pending none []
      (m.press.pending.foldl (fun a r => max a (recCycles r)) 2) := by
    rw [Module.admitRecs_of_no_group alone, List.drop_eq_nil_of_le few, List.take_of_length_le few]
    exact Module.admitList_sound waits sound
  have still : (m.admitRecs []).dueTxn = none := by rw [admits]; exact calm
  simp only [mAdmission, on, Bool.not_true, Bool.false_eq_true, if_false, still]
  exact admits

/-- R42, R43: one admission takes the sound records that wait into one epoch. -/
theorem admissionClaim : AdmissionClaim := by
  intro s on alone waits few sound calm
  refine completes_of_upd (f := mAdmission []) rfl ?_
  rw [mAdmission_admits on alone waits few sound calm]
  exact ⟨rfl, rfl, rfl⟩

/-! ### Visibility (R36, R43) -/

/-- Agreement outside the registers, the event recorder, the pair and what leaves the module. -/
def Module.ExceptPair (m n : Module) : Prop := ∃ r v x o, n = { m with regs := r, evr := v, red := x, out := o }

theorem Module.ExceptPair.refl (m : Module) : m.ExceptPair m := ⟨_, _, _, _, rfl⟩

theorem Module.ExceptPair.trans {a b c : Module} (h : a.ExceptPair b) (k : b.ExceptPair c) : a.ExceptPair c := by
  obtain ⟨_, _, _, _, rfl⟩ := h; obtain ⟨_, _, _, _, rfl⟩ := k; exact ⟨_, _, _, _, rfl⟩

theorem Module.ExceptPair.ite {P : Prop} [Decidable P] {a b c : Module} (h : a.ExceptPair b) (k : a.ExceptPair c) :
    a.ExceptPair (if P then b else c) := by split <;> assumption

theorem Module.ExceptEvents.pair {a b : Module} (h : a.ExceptEvents b) : a.ExceptPair b := by
  obtain ⟨_, _, rfl⟩ := h; exact ⟨_, _, _, _, rfl⟩

theorem Module.pair_redCnt (m : Module) (k : Nat) : m.ExceptPair (m.redCnt k) := ⟨_, _, _, _, rfl⟩

theorem Module.pair_redEvent (m : Module) (num cause inst data : Nat) : m.ExceptPair (m.redEvent num cause inst data) :=
  (Module.events_raiseIf ..).pair

theorem Module.pair_markUnsynced (m : Module) (i cause : Nat) : m.ExceptPair (m.markUnsynced i cause) := by
  unfold Module.markUnsynced
  exact .ite (.refl m) (Module.ExceptPair.trans ⟨_, _, _, _, rfl⟩ (Module.pair_redEvent ..))

theorem Module.pair_xferDone (m : Module) (i : Nat) : m.ExceptPair (m.xferDone i) :=
  Module.ExceptPair.trans ⟨_, _, _, _, rfl⟩ (Module.pair_redEvent ..)

theorem Module.pair_joined (m : Module) (i t ct : Nat) : m.ExceptPair (m.joined i t ct) := by
  unfold Module.joined
  split
  · exact .refl m
  · split
    · exact .refl m
    · exact .ite (.refl m) (.ite (m.pair_xferDone i) ⟨_, _, _, _, rfl⟩)

theorem Module.pair_digMet (m : Module) (a b : DigEntry) : m.ExceptPair (m.digMet a b) := by
  unfold Module.digMet
  exact .ite (.refl m) ((m.pair_redCnt 9).trans (Module.pair_markUnsynced ..))

theorem Module.pair_queueDigest (m : Module) (r : CRec) : m.ExceptPair (m.queueDigest r) := by
  unfold Module.queueDigest
  dsimp only
  refine .ite (m.pair_redCnt 8) (.ite ⟨_, _, _, _, rfl⟩ ?_)
  split
  · exact Module.ExceptPair.trans ⟨_, _, _, _, rfl⟩ (Module.pair_digMet ..)
  · exact ⟨_, _, _, _, rfl⟩

/-- What an applied record does for the pair changes registers, the recorder, the pair and what leaves the module only (R67, R408). -/
theorem Module.pair_redApplied (m : Module) (r : CRec) : m.ExceptPair (m.redApplied r) := by
  have counted {k : Module} (h : m.ExceptPair k) : m.ExceptPair (if r.kind = .cycle then k.joined r.inst r.task r.ct else k) :=
    .ite (h.trans (k.pair_joined ..)) h
  unfold Module.redApplied
  refine .ite (.refl m) (.ite ((counted ?_).trans (Module.pair_queueDigest ..)) (counted ?_)) <;>
  · split
    · exact .ite ⟨_, _, _, _, rfl⟩ (.refl m)
    · exact .refl m

/-- The parts of the module in which a visible record shows: the Press and the output images. -/
def Module.pressImages (m : Module) : Press × SMap (SMap Byte) := (m.press, m.outImg)

theorem Module.pressImages_of_pair {m n : Module} (h : m.ExceptPair n) : n.pressImages = m.pressImages := by
  obtain ⟨_, _, _, _, rfl⟩ := h
  rfl

theorem Module.pressImages_trace (m : Module) (typ cause t ct e c detail : Nat) :
    (m.trace typ cause t ct e c detail).pressImages = m.pressImages := by
  have press : (m.trace typ cause t ct e c detail).press = m.press := congrArg Prod.fst (m.pressTasks_trace ..)
  obtain ⟨_, _, _, _, _, _, eq⟩ := m.cycles_trace typ cause t ct e c detail
  rw [Module.pressImages, press, eq]
  rfl

/-- What follows a visible record of a cycle leaves the Press and the images alone. -/
theorem Module.pressImages_cycleVisible (m : Module) (recs : List CRec) (r : CRec) :
    (m.cycleVisible recs r).pressImages = m.pressImages := by
  unfold Module.cycleVisible
  refine (Module.pressImages_trace ..).trans ?_
  split <;> rfl

theorem Module.pressImages_recVisible (m : Module) (recs : List CRec) {r : CRec} (cycle : r.kind = .cycle) :
    (m.recVisible recs r).pressImages = m.pressImages := by
  simp only [Module.recVisible, cycle]
  exact (Module.pressImages_of_pair (Module.pair_redApplied ..)).trans (Module.pressImages_cycleVisible ..)

/-! ### The bytes of an image -/

theorem SMap.getD_set_same {α : Type} (l : SMap α) (k : Nat) (v d : α) : (l.set k v).getD k d = v := by
  rw [SMap.getD, SMap.get?_set_same, Option.getD_some]

/-- A byte that is put into a memory stands there, and every other byte stays; a byte 0 is not listed. -/
theorem SMap.getD_putByte {l : SMap Byte} (h : SMap.rising l = true) (off : Nat) (b : Byte) (x : Nat) :
    SMap.getD (if b = 0 then l.erase off else l.set off b) x 0 = if x = off then b else l.getD x 0 := by
  by_cases zero : b = 0
  · rw [if_pos zero]
    split
    · subst x; rw [SMap.getD, SMap.get?_erase_same h, zero]; rfl
    · rename_i away; rw [SMap.getD, SMap.get?_erase_other l away]; rfl
  · rw [if_neg zero]
    split
    · subst x; exact SMap.getD_set_same l off b 0
    · rename_i away; rw [SMap.getD, SMap.get?_set_other l b away]; rfl

theorem SMap.rising_putByte {l : SMap Byte} (h : SMap.rising l = true) (off : Nat) (b : Byte) :
    SMap.rising (if b = 0 then l.erase off else l.set off b) = true := by
  split
  · exact SMap.rising_erase h off
  · exact SMap.rising_set h off b

/-- Bytes that are put into a memory stand from their offset on, and every other byte stays. -/
theorem getD_memPut {l : SMap Byte} (h : SMap.rising l = true) (off : Nat) (d : Bytes) (x : Nat) :
    (memPut l off d).getD x 0 = if off ≤ x ∧ x < off + d.length then d.getD (x - off) 0 else l.getD x 0 := by
  induction d generalizing l off with
  | nil => rw [if_neg (by simp)]; rfl
  | cons b r ih =>
    rw [memPut, ih (SMap.rising_putByte h off b), SMap.getD_putByte h, List.length_cons]
    by_cases here : x = off
    · subst x
      rw [if_neg (by omega), if_pos rfl, if_pos (by omega), Nat.sub_self, List.getD_cons_zero]
    · by_cases later : off + 1 ≤ x ∧ x < off + 1 + r.length
      · rw [if_pos later, if_pos (by omega), show x - off = x - (off + 1) + 1 by omega, List.getD_cons_succ]
      · rw [if_neg later, if_neg here, if_neg (by omega)]

theorem SMap.get?_map {α β : Type} (l : SMap α) (f : α → β) (x : Nat) :
    SMap.get? (l.map fun p => (p.1, f p.2)) x = (l.get? x).map f := by
  induction l with
  | nil => rfl
  | cons p r ih =>
    rw [List.map_cons, SMap.get?, SMap.get?, ih]
    split <;> rfl

/-- A memory of a family in canonical form. -/
theorem SMap.getD_tidyMems (l : SMap (SMap Byte)) (k : Nat) : (SMap.tidyMems l).getD k [] = SMap.tidyMem (l.getD k []) := by
  unfold SMap.getD SMap.tidyMems
  rw [SMap.get?_map, SMap.get?_tidy]
  cases l.get? k <;> rfl

theorem SMap.mem_of_get? {α : Type} {l : SMap α} {k : Nat} {v : α} (h : l.get? k = some v) : (k, v) ∈ l := by
  induction l with
  | nil => cases h
  | cons p r ih =>
    rw [SMap.get?] at h
    split at h
    · rename_i here
      cases h
      subst here
      exact List.mem_cons_self
    · exact List.mem_cons_of_mem _ (ih h)

/-- Each memory of a family in canonical form has strictly rising keys. -/
theorem SMap.rising_of_memsWf {l : SMap (SMap Byte)} (h : SMap.memsWf l = true) (k : Nat) : SMap.rising (l.getD k []) = true := by
  rw [SMap.getD]
  cases found : l.get? k with
  | none => rfl
  | some memory =>
    have sound := List.all_eq_true.mp (Bool.and_eq_true_iff.mp h).2 _ (SMap.mem_of_get? found)
    exact (Bool.and_eq_true_iff.mp sound).1

theorem Module.memsWf_outImg_of_wf {m : Module} (wf : m.wf = true) : SMap.memsWf m.outImg = true := by
  rw [← Module.settle_eq wf]
  exact SMap.memsWf_tidyMems m.outImg

/-! ### The visibility point (R36, R43) -/

/-- Without a force the written bytes go into the image as they are (R44, R310). -/
theorem Module.putOut_unforced {m : Module} (unforced : m.press.forces = []) (t off : Nat) (d : Bytes) :
    m.putOut t off d = { m with outImg := m.outImg.set t (memPut (m.outImg.getD t []) off d) } := by
  simp only [Module.putOut, Module.forcedBytes, Module.governors, unforced, List.filter_nil, List.foldl_nil]

/-- An epoch of one record that writes its task's image once: the writes of the epoch. -/
theorem Module.applyRecs_outWrite {m : Module} {r : CRec} {off : Nat} {d : Bytes} (unforced : m.press.forces = [])
    (writes : r.entries = [.outWrite off d]) :
    m.applyRecs [r] = { m with outImg := m.outImg.set r.task (memPut (m.outImg.getD r.task []) off d) } := by
  simp only [Module.applyRecs, writes, List.foldl_cons, List.foldl_nil, Module.applyEntry, Module.overlapCheck, List.any_nil,
    Bool.false_eq_true, if_false, Module.putOut_unforced unforced]

/-- R36, R43: the epoch becomes visible, and the bytes of its one record stand in the image of its task. -/
theorem Module.makeVisible_outWrite {m : Module} {ep : Epoch} {r : CRec} {off : Nat} {d : Bytes} (one : ep.recs = [r])
    (writes : r.entries = [.outWrite off d]) (cycle : r.kind = .cycle) (plain : ep.txn = none) (calm : ep.forces = [])
    (unforced : m.press.forces = []) :
    (m.makeVisible ep).pressImages =
      ({ m.press with applying := m.press.applying.drop 1, visible := ep.num, visibleTs := m.ts32 },
        m.outImg.set r.task (memPut (m.outImg.getD r.task []) off d)) := by
  have applied := Module.applyRecs_outWrite (m := { m with press := { m.press with applying := m.press.applying.drop 1 } })
    unforced writes
  simp only [Module.makeVisible, one, plain, calm, List.foldl_nil, List.foldl_cons, applied]
  refine (Module.pressImages_recVisible _ _ cycle).trans ?_
  simp only [Module.releaseRecs, writes, List.foldl_cons, List.foldl_nil, Module.release]
  rfl

/-- R36, R43: the visibility point of such an epoch. -/
theorem mVisibilityPoint_outWrite {m : Module} {ep : Epoch} {rest : List Epoch} {r : CRec} {off : Nat} {d : Bytes}
    (lowest : m.press.applying = ep :: rest) (free : m.sys.held = false) (run : m.mode ≠ .reset) (one : ep.recs = [r])
    (writes : r.entries = [.outWrite off d]) (cycle : r.kind = .cycle) (plain : ep.txn = none) (calm : ep.forces = [])
    (unforced : m.press.forces = []) :
    (mVisibilityPoint .clean m).press.visible = ep.num ∧ (mVisibilityPoint .clean m).press.applying = rest ∧
      (mVisibilityPoint .clean m).outImg = m.outImg.set r.task (memPut (m.outImg.getD r.task []) off d) := by
  have eq : mVisibilityPoint .clean m = (m.reachMono ep.ends).makeVisible ep := by
    simp only [mVisibilityPoint, lowest, free, run, Bool.false_eq_true, or_self, if_false]
    rfl
  have press : (m.reachMono ep.ends).press = m.press := m.adv_press _
  have images : (m.reachMono ep.ends).outImg = m.outImg := m.adv_outImg _
  have visible := Module.makeVisible_outWrite (m := m.reachMono ep.ends) one writes cycle plain calm (press ▸ unforced)
  rw [press, images, lowest] at visible
  rw [eq]
  exact ⟨congrArg (·.1.visible) visible, congrArg (·.1.applying) visible, congrArg Prod.snd visible⟩

/-- R36, R43: the lowest epoch becomes visible with the bytes of its record. -/
theorem visibilityClaim : VisibilityClaim := by
  intro s ep rest r off d lowest free run one writes cycle plain calm unforced wf
  obtain ⟨visible, applying, images⟩ := mVisibilityPoint_outWrite lowest free run one writes cycle plain calm unforced
  refine completes_of_upd (f := mVisibilityPoint .clean) rfl ⟨visible, applying, fun i hi => ?_⟩
  have rising := SMap.rising_of_memsWf (Module.memsWf_outImg_of_wf wf) r.task
  calc
    _ = (memPut (s.m.outImg.getD r.task []) off d).getD (off + i) 0 := by
      show ((SMap.tidyMems (mVisibilityPoint .clean s.m).outImg).getD r.task []).getD (off + i) 0 = _
      rw [SMap.getD_tidyMems, SMap.getD_tidyMem, images, SMap.getD_set_same]
    _ = d.getD i 0 := by rw [getD_memPut rising, if_pos (by omega), Nat.add_sub_cancel_left]

/-- Settles O55: `handOffsClaim`, `admissionClaim` (one admission as assumption 38 reads R42) and `visibilityClaim`. -/
theorem pressFlow : Obligations.PressFlow := ⟨handOffsClaim, admissionClaim, visibilityClaim⟩

end Sys2Proof.Machine
end

section
/-!
PROOFS. Snapshots and record reads (R64 to R66, R368).
-/

namespace Sys2Proof.Machine
open Sys2Proof.Claims

/-! ### Writes to host memory (R334) -/

/-- The write that a page's part of some bytes is. -/
def Module.pageWrite (m : Module) (i addr : Nat) (b : Bytes) (p : Nat) : Emission :=
  let ps := m.pageSize i
  let lo := max addr (p * ps)
  let hi := min (addr + b.length) ((p + 1) * ps)
  .hostWrite (m.owner i - 0x100) (m.host.xlt.getD (xltKey i p) 0 / ps * ps + lo % ps) (slice b (lo - addr) (hi - lo))

/-- The writes, by page, of bytes that go to host memory. -/
def Module.hostWrites (m : Module) (i addr : Nat) (b : Bytes) : List Emission :=
  (m.pagesOf i addr b.length).map (m.pageWrite i addr b)

/-- Bytes put into host memory leave the module as their writes, and change nothing else. -/
theorem Module.hostPut_eq (m : Module) (i addr : Nat) (b : Bytes) :
    m.hostPut i addr b = { m with out := m.out ++ m.hostWrites i addr b } := by
  have writes (l : List Nat) (o : List Emission) :
      l.foldl (fun k p => k.emit (.hostWrite (k.owner i - 0x100)
          (k.host.xlt.getD (xltKey i p) 0 / m.pageSize i * m.pageSize i + max addr (p * m.pageSize i) % m.pageSize i)
          (slice b (max addr (p * m.pageSize i) - addr)
            (min (addr + b.length) ((p + 1) * m.pageSize i) - max addr (p * m.pageSize i))))) ({ m with out := o } : Module) =
        { m with out := o ++ l.map (m.pageWrite i addr b) } := by
    induction l generalizing o with
    | nil => rw [List.map_nil, List.append_nil]; rfl
    | cons p r ih => rw [List.map_cons, List.append_cons]; exact ih _
  exact writes _ m.out

theorem Module.rd_congr {m n : Module} (regs : n.regs = m.regs) (f : Fld) : n.rd f = m.rd f := by
  simp only [Module.rd, regs]

theorem Module.pageSize_congr {m n : Module} (regs : n.regs = m.regs) (i : Nat) : n.pageSize i = m.pageSize i := by
  rw [Module.pageSize, Module.isOn, Module.rd_congr regs]
  rfl

/-- What is reachable, and where it lies, depends on the registers and the translation only. -/
theorem Module.reachable_congr {m n : Module} (regs : n.regs = m.regs) (host : n.host = m.host) (i addr len : Nat) (write : Bool) :
    n.reachable i addr len write = m.reachable i addr len write := by
  rw [Module.reachable, Module.pagesOf, Module.pageSize_congr regs, Module.rd_congr regs, host]
  rfl

theorem Module.hostWrites_congr {m n : Module} (regs : n.regs = m.regs) (host : n.host = m.host) (i addr : Nat) (b : Bytes) :
    n.hostWrites i addr b = m.hostWrites i addr b := by
  have page (p : Nat) : n.pageWrite i addr b p = m.pageWrite i addr b p := by
    simp only [Module.pageWrite, Module.pageSize_congr regs, Module.owner, Module.rd_congr regs, host]
  simp only [Module.hostWrites, Module.pagesOf, Module.pageSize_congr regs, List.map_map, Function.comp_def, page]

theorem length_leBytes (k w : Nat) : (leBytes k w).length = k := by
  induction k generalizing w with
  | zero => rfl
  | succ k ih => rw [leBytes, List.length_cons, ih]

/-! ### Snapshots (R64 to R66) -/

/-- A field reads as written where that is not its reset value. -/
theorem Module.rd_wr_of_listed (m : Module) {f : Fld} {v : Nat} (listed : v % 2 ^ f.width ≠ f.dflt) :
    (m.wr f v).rd f = v % 2 ^ f.width := by
  rw [Module.rd, Module.wr, if_neg listed]
  simp only [SMap.getD, SMap.get?_set_same, Option.getD_some]

theorem fnReg_width (fn pf vf lsb width : Nat) : (fnReg fn pf vf lsb width).width = width := by
  unfold fnReg; split <;> rfl

theorem fnReg_dflt (fn pf vf lsb width : Nat) : (fnReg fn pf vf lsb width).dflt = 0 := by
  unfold fnReg; split <;> rfl

/-- A one-bit field of a function's register reads 1 once it is set. -/
theorem Module.rd_fnReg_one (m : Module) (fn pf vf lsb : Nat) : (m.wr (fnReg fn pf vf lsb 1) 1).rd (fnReg fn pf vf lsb 1) = 1 := by
  rw [Module.rd_wr_of_listed _ (by rw [fnReg_width, fnReg_dflt]; decide), fnReg_width, Nat.pow_one]

/-- Two fields of one register of a function stand at different places. -/
theorem fnReg_key_ne (fn pf vf : Nat) {k l : Nat} (w u : Nat) (ne : k ≠ l) : (fnReg fn pf vf k w).key ≠ (fnReg fn pf vf l u).key := by
  unfold fnReg Fld.key
  split <;> simpa using ne

/-- The module with another list of waiting snapshot requests. -/
def Module.setSnaps (m : Module) (l : List (Nat × Nat × Nat)) : Module := { m with press := { m.press with snaps := l } }

/-- GO of a function that is not BUSY: its request waits. -/
theorem mSnapshotGo_waits {m : Module} {fn : Nat} (function : fn < 256) (ready : m.ready 7 = true) (run : m.mode ≠ .reset)
    (loaded : m.mode ≠ .load) (up : m.mode ≠ .flush) (idle : m.rd (fnReg fn 0x900314 0x24 0 1) = 0) :
    mSnapshotGo fn m = (m.setSnaps (m.press.snaps ++ [(fn,
      m.rd64 (fnReg fn 0x900300 0x10 0 32) (fnReg fn 0x900304 0x14 0 32),
      m.rd64 (fnReg fn 0x900308 0x18 0 32) (fnReg fn 0x90030c 0x1c 0 32))])).wr (fnReg fn 0x900314 0x24 0 1) 1 := by
  refine if_neg ?_
  simp [ready, run, loaded, up, Module.isOn, idle]
  omega

/-- A descriptor of one sound item of at most 4,096 bytes is served. -/
theorem Module.snapJudge_one {m : Module} {fn : Nat} {b : Bytes} (sound : m.snapStatus fn b 0 = 0) (short : (snapItem b 0).len ≤ 4096) :
    m.snapJudge fn b 1 = (0, 0) := by
  simp [Module.snapJudge, List.range_one, sound, Nat.not_lt.mpr short]

/-- The result of a snapshot that has succeeded: the epoch and its commit instant, STATUS 0, the items. -/
def Module.snapBlock (m : Module) (items : Bytes) : Bytes :=
  leBytes 8 m.press.visible ++ leBytes 4 m.press.visibleTs ++ [0, 0, 0, 0] ++ List.replicate 16 0 ++ items

theorem Module.length_snapBlock (m : Module) (items : Bytes) : (m.snapBlock items).length = 32 + items.length := by
  simp only [Module.snapBlock, List.length_append, length_leBytes, List.length_replicate, List.length_cons, List.length_nil]

/-- R65, R66: the oldest request, of the PF and with a sound descriptor of one item, is served from the module as it stands, in
the time that its bytes take. -/
theorem mSnapshotServe_serves {m : Module} {i d res : Nat} {b : Bytes} {rest : List (Nat × Nat × Nat)}
    (oldest : m.press.snaps = (0, d, res) :: rest) (on : m.pressOn = true) (calm : m.press.pending = []) (done : m.press.complete = [])
    (inst : leAt b 2 2 = i) (small : i % 4096 = i) (owned : m.hostOwned i = true) (free : m.isolated i = false)
    (read : m.reachable i d 32 false = true) (one : leAt b 0 2 = 1) (zero : leAt b 4 12 = 0) (desc : d % 16 = 0)
    (aligned : res % 32 = 0) (sound : m.snapStatus 0 b 0 = 0) (short : (snapItem b 0).len ≤ 4096) :
    mSnapshotServe (some b) m = (({ m.setSnaps rest with freeIdx := m.freeIdx + (snapItem b 0).len / 4 } : Module).adv
      (fabric (2 + ceilDiv (snapItem b 0).len 32))).snapResult 0 i res 0 0 (m.snapBytes 0 (snapItem b 0)) := by
  have alone : ¬ ((!m.pressOn) = true ∨ (m.press.pending ≠ [] ∨ m.press.complete ≠ []) ∧ m.press.snapAt = some m.press.visible) := by
    simp [on, calm, done]
  have judged : (m.setSnaps rest).snapJudge 0 b 1 = (0, 0) := Module.snapJudge_one sound short
  change (m.setSnaps rest).hostOwned i = true at owned
  change (m.setSnaps rest).isolated i = false at free
  change (m.setSnaps rest).reachable i d 32 false = true at read
  change _ = (({ m.setSnaps rest with freeIdx := (m.setSnaps rest).freeIdx + (snapItem b 0).len / 4 } : Module).adv
    (fabric (2 + ceilDiv (snapItem b 0).len 32))).snapResult 0 i res 0 0 ((m.setSnaps rest).snapBytes 0 (snapItem b 0))
  simp only [mSnapshotServe, oldest]
  rw [if_neg alone]
  unfold Module.setSnaps at owned free read judged ⊢
  generalize ({ m with press := { m.press with snaps := rest } } : Module) = k at owned free read judged ⊢
  simp only [one, inst, small, owned, free, read, zero, desc, aligned, judged,
    Bool.not_true, Bool.false_eq_true, ne_eq, not_true_eq_false, or_self, false_and, if_false, Nat.reduceMul, Nat.reduceAdd,
    Nat.reduceEqDiff, Nat.reduceLT, List.range_one, List.map_cons, List.map_nil, List.foldl_cons, List.foldl_nil,
    List.nil_append, Nat.zero_add]

/-- The end of a snapshot: BUSY falls and DONE rises, whichever function asked. -/
theorem Module.snapEnd_ends {m : Module} (h : SMap.rising m.regs = true) (fn : Nat) :
    (m.snapEnd fn).rd (fnReg fn 0x900314 0x24 0 1) = 0 ∧ (m.snapEnd fn).rd (fnReg fn 0x900314 0x24 1 1) = 1 := by
  unfold Module.snapEnd
  constructor
  · rw [Module.rd_wr_other _ _ (fnReg_key_ne _ _ _ _ _ (by decide)), Module.rd_wr_same (h := by exact h)]
    exact Nat.zero_mod _
  · exact Module.rd_fnReg_one _ _ _ _ _

/-- R64, R65: a result that can be written leaves as its writes, and the snapshot ends. -/
theorem Module.snapResult_writes {m : Module} {i res : Nat} {items : Bytes} (h : SMap.rising m.regs = true)
    (written : m.reachable i res (32 + items.length) true = true) (fn : Nat) :
    (m.snapResult fn i res 0 0 items).press.snaps = m.press.snaps ∧
      (m.snapResult fn i res 0 0 items).out = m.out ++ m.hostWrites i res (m.snapBlock items) ∧
      (m.snapResult fn i res 0 0 items).rd (fnReg fn 0x900314 0x24 0 1) = 0 ∧
      (m.snapResult fn i res 0 0 items).rd (fnReg fn 0x900314 0x24 1 1) = 1 := by
  have block : leBytes 8 m.press.visible ++ leBytes 4 m.press.visibleTs ++ leBytes 2 0 ++ leBytes 2 0 ++ List.replicate 16 0 ++
      items = m.snapBlock items := by
    rw [Module.snapBlock, List.append_assoc (leBytes 8 _ ++ leBytes 4 _)]
    rfl
  have eq : m.snapResult fn i res 0 0 items = (m.hostPut i res (m.snapBlock items)).snapEnd fn := by
    simp only [Module.snapResult, block, Module.length_snapBlock, written, if_true]
  rw [eq, Module.hostPut_eq]
  exact ⟨rfl, rfl, Module.snapEnd_ends h fn⟩

/-! ### Record reads (R368) -/

/-- RECORD_READ of a region: the read is in progress, with GEN and the registers as they stand. -/
theorem mRecordRead_starts {m : Module} {region : Nat} (ready : m.ready 8 = true) (run : m.mode ≠ .reset) (loaded : m.mode ≠ .load)
    (up : m.mode ≠ .flush) (idle : m.acq.read = none) (exist : region < 3) (k e inst : Nat) :
    mRecordRead k e region inst m = { m with acq := { m.acq with read := some ⟨k % 16, e % 64, region, inst % 4096,
      m.gen (inst % 4096), m.rd64 R.ACQ_RD_ADDR_LO_ADDR R.ACQ_RD_ADDR_HI_ADDR, m.rd R.ACQ_RD_OFF_VALUE,
      m.rd R.ACQ_RD_LEN_VALUE⟩ } }.flag R.ACQ_RD_STAT_BUSY := by
  have named : region % 4 = region := Nat.mod_eq_of_lt (by omega)
  have goes : ¬ ((!m.ready 8) = true ∨ m.mode = .reset ∨ m.mode = .load ∨ m.mode = .flush ∨ m.acq.read.isSome = true ∨ region = 3) := by
    simp [ready, run, loaded, up, idle]
    omega
  simp only [mRecordRead, named, goes, if_false]

/-- The end of a read in progress: what it shows, and that nothing leaves the module. -/
theorem Module.readEnd_ends {m : Module} {q : AcqRead} (h : SMap.rising m.regs = true) (reading : m.acq.read = some q) :
    (m.readEnd 0).acq.read = none ∧ (m.readEnd 0).rd R.ACQ_RD_STAT_BUSY = 0 ∧ (m.readEnd 0).rd R.ACQ_RD_STAT_STATUS = 0 ∧
      (m.readEnd 0).rd R.ACQ_RD_STAT_DONE_FLG = 1 ∧ (m.readEnd 0).out = m.out := by
  have released (k : Module) (f : Session → Session) : (k.modSess q.session f).regs = k.regs ∧
      (k.modSess q.session f).acq.read = k.acq.read ∧ (k.modSess q.session f).out = k.out := by
    unfold Module.modSess
    split <;> exact ⟨rfl, rfl, rfl⟩
  simp only [Module.readEnd, reading]
  generalize hk : Module.modSess _ _ _ = k
  obtain ⟨regs, ended, out⟩ := hk ▸ released { m with acq := { m.acq with read := none } } _
  have rising : SMap.rising k.regs = true := by rw [regs]; exact h
  refine ⟨ended, ?_, ?_, ?_, out⟩
  · rw [Module.flag, Module.rd_wr_other _ _ (by decide), Module.rd_wr_other _ _ (by decide), Module.rd_wr_same _ rising]
    rfl
  · rw [Module.flag, Module.rd_wr_other _ _ (by decide), Module.rd_wr_same _ (Module.rising_wr rising _ _)]
    rfl
  · exact Module.rd_wr_of_listed _ (by decide)

/-- READ_DONE of a sound record, read clean: the bytes named leave the module, and the read ends with STATUS 0. -/
theorem mReadDone_copies {m : Module} {q : AcqRead} {x : Session} {r : AcqRec} (reading : m.acq.read = some q)
    (owned : m.hostOwned q.inst = true) (free : m.isolated q.inst = false) (generation : m.gen q.inst = q.gen)
    (session : m.acq.sessions.get? q.session = some x) (entry : x.recs.get? q.entry = some r) (valid : bitOf r.flags 0 = true)
    (kept : bitOf r.flags 1 = false) (positive : 0 < q.len) (few : q.len ≤ 16777216)
    (inside : q.off + q.len ≤ (x.region q.session m.freeIdx q.region r []).length)
    (written : m.reachable q.inst q.addr q.len true = true) (poison : List (Nat × Nat)) :
    mReadDone .clean poison m = ((({ m with freeIdx := m.freeIdx + 1 } : Module).hostPut q.inst q.addr
      (slice (x.region q.session m.freeIdx q.region r []) q.off q.len)).acqCnt 15).readEnd 0 := by
  have sound : ¬ ((!m.hostOwned q.inst) = true ∨ m.isolated q.inst = true ∨ m.gen q.inst ≠ q.gen) := by
    simp [owned, free, generation]
  have readable : ¬ ((!bitOf r.flags 0) = true ∨ bitOf r.flags 1 = true) := by simp [valid, kept]
  have fits : ¬ (q.len = 0 ∨ 16777216 < q.len ∨ (x.region q.session m.freeIdx q.region r []).length < q.off + q.len) := by omega
  have reaches : ¬ ((!({ m with freeIdx := m.freeIdx + 1 } : Module).reachable q.inst q.addr q.len true) = true) := by
    rw [show ({ m with freeIdx := m.freeIdx + 1 } : Module).reachable q.inst q.addr q.len true = true from written]
    exact Bool.false_ne_true
  simp only [mReadDone, reading, sound, session, entry, readable, Option.bind_some, Option.map_some, if_false, ReadErr.isUe,
    Bool.false_eq_true, Module.readReport, Module.freshIdx, fits, reaches, if_true]

/-- R368: what the completed read leaves. -/
theorem mReadDone_ends {m : Module} {q : AcqRead} (h : SMap.rising m.regs = true)
    (reading : m.acq.read = some q) (b : Bytes) :
    let n := ((({ m with freeIdx := m.freeIdx + 1 } : Module).hostPut q.inst q.addr b).acqCnt 15).readEnd 0
    n.acq.read = none ∧ n.rd R.ACQ_RD_STAT_BUSY = 0 ∧ n.rd R.ACQ_RD_STAT_STATUS = 0 ∧ n.rd R.ACQ_RD_STAT_DONE_FLG = 1 ∧
      n.out = (m.hostPut q.inst q.addr b).out := by
  rw [Module.hostPut_eq, Module.hostPut_eq]
  exact Module.readEnd_ends (Module.rising_wr h _ _) reading

/-- Settles O34, each command from the lemma about it: the judgement of the items is that of assumption 84, the reading of a record
at its end that of assumption 88, and the descriptor comes as the operand of assumption 8. -/
theorem snapshotsAndReads : Obligations.SnapshotsAndReads := by
  refine ⟨?_, ?_, ?_, ?_⟩
  · intro s fn function ready run loaded up idle
    refine completes_of_upd (f := mSnapshotGo fn) rfl ?_
    rw [mSnapshotGo_waits function ready run loaded up idle, Module.rd_settle, Module.settle_press]
    exact ⟨Module.rd_fnReg_one _ _ _ _ _, rfl⟩
  · intro s d res b rest oldest on calm done wf i owned free read one inst zero desc aligned sound short items written
    have h := Module.rising_regs_of_wf wf
    refine completes_of_upd (f := mSnapshotServe (some b)) rfl ?_
    rw [mSnapshotServe_serves oldest on calm done inst (Nat.mod_mod _ _) owned free read one zero desc aligned sound short,
      Module.rd_settle, Module.rd_settle, Module.settle_press, Module.settle_out, Module.hostPut_eq]
    generalize hk : Module.adv _ _ = k
    have regs : k.regs = s.m.regs := hk ▸ Module.adv_regs _ _
    have host : k.host = s.m.host := hk ▸ Module.adv_host _ _
    have press : k.press = { s.m.press with snaps := rest } := hk ▸ Module.adv_press _ _
    have out : k.out = s.m.out := hk ▸ Module.adv_out _ _
    obtain ⟨waiting, result, busy, ended⟩ :=
      Module.snapResult_writes (regs ▸ h) ((Module.reachable_congr regs host ..).trans written) 0
    refine ⟨waiting.trans (congrArg Press.snaps press), busy, ended, result.trans ?_⟩
    rw [out, Module.hostWrites_congr regs host, Module.snapBlock, press]
  · intro s k e region inst ready run loaded up idle exist
    refine completes_of_upd (f := mRecordRead k e region inst) rfl ?_
    rw [mRecordRead_starts ready run loaded up idle exist, Module.rd_settle]
    exact ⟨Module.rd_wr_of_listed _ (by decide), rfl⟩
  · intro s q x r poison reading wf owned free generation session entry valid kept b positive few inside written
    refine completes_of_upd (f := mReadDone .clean poison) rfl ?_
    rw [mReadDone_copies reading owned free generation session entry valid kept positive few inside written, Module.rd_settle,
      Module.rd_settle, Module.rd_settle]
    exact mReadDone_ends (Module.rising_regs_of_wf wf) reading _

end Sys2Proof.Machine
end

section
/-!
PROOFS. Chains of register writes: what they leave alone, and what each field reads after them.
-/

namespace Sys2Proof.Machine
open Sys2Proof.Claims

/-! ### Registers and the rest of the module -/

/-- The module without its registers: what a change of registers alone leaves as it is. -/
def Module.besideRegs (m : Module) : Module := { m with regs := [] }

@[simp] theorem Module.besideRegs_host (m : Module) : m.besideRegs.host = m.host := rfl
@[simp] theorem Module.besideRegs_sys (m : Module) : m.besideRegs.sys = m.sys := rfl

/-- A fold of register writes, whatever fields and values they take, changes registers only. -/
theorem Module.besideRegs_foldl_wr {α : Type} (f : α → Fld) (v : Module → α → Nat) (l : List α) (m : Module) :
    (l.foldl (fun k x => k.wr (f x) (v k x)) m).besideRegs = m.besideRegs :=
  foldl_keeps Module.besideRegs (f := fun k x => k.wr (f x) (v k x)) (fun _ _ _ => rfl) m

theorem Module.rising_foldl_wr {m : Module} (h : SMap.rising m.regs = true) (v : Fld → Nat) (l : List Fld) :
    SMap.rising (l.foldl (fun k g => k.wr g (v g)) m).regs = true :=
  List.foldlRecOn l _ (motive := fun k : Module => SMap.rising k.regs = true) h fun _ hk _ _ => Module.rising_wr hk _ _

/-- A fold stays at or above an address where each of its steps does. -/
theorem Module.from_foldl {α : Type} {a : Nat} {f : Module → α → Module} {l : List α}
    (h : ∀ (m : Module), ∀ x ∈ l, m.From a (f m x)) (m : Module) : m.From a (l.foldl f m) :=
  List.foldlRecOn l f (motive := m.From a) (.refl a m) fun n hn x hx => hn.trans (h n x hx)

/-- Writes to a list of fields leave a field at another place alone. -/
theorem Module.rd_foldl_wr_other (m : Module) {l : List Fld} {f : Fld} (v : Fld → Nat) (apart : ∀ g ∈ l, f.key ≠ g.key) :
    (l.foldl (fun k g => k.wr g (v g)) m).rd f = m.rd f :=
  foldl_keeps (Module.rd · f) (fun k g hg => k.rd_wr_other _ (apart g hg)) m

/-- After writes to fields at places of their own, each field reads as it was written. -/
theorem Module.rd_foldl_wr {m : Module} (h : SMap.rising m.regs = true) {l : List Fld} (v : Fld → Nat)
    (apart : (l.map Fld.key).Nodup) {f : Fld} (written : f ∈ l) :
    (l.foldl (fun k g => k.wr g (v g)) m).rd f = v f % 2 ^ f.width := by
  induction l generalizing m with
  | nil => cases written
  | cons g r ih =>
    obtain ⟨once, rest⟩ := List.nodup_cons.mp apart
    rcases List.mem_cons.mp written with rfl | later
    · refine (Module.rd_foldl_wr_other (m.wr f (v f)) v fun g hg same => once ?_).trans (m.rd_wr_same h _ _)
      exact same ▸ List.mem_map_of_mem hg
    · exact ih (Module.rising_wr h _ _) rest later

/-! ### One field through a chain of changes -/

/-- n reads the field as m does, and has a canonical register store where m has one. -/
def Module.Keeps (f : Fld) (m n : Module) : Prop := (SMap.rising m.regs = true → SMap.rising n.regs = true) ∧ n.rd f = m.rd f

theorem Module.Keeps.refl (f : Fld) (m : Module) : m.Keeps f m := ⟨id, rfl⟩
theorem Module.Keeps.trans {f : Fld} {a b c : Module} (h : a.Keeps f b) (k : b.Keeps f c) : a.Keeps f c :=
  ⟨fun r => k.1 (h.1 r), k.2.trans h.2⟩
theorem Module.Keeps.ite {P : Prop} [Decidable P] {f : Fld} {a b c : Module} (h : a.Keeps f b) (k : a.Keeps f c) :
    a.Keeps f (if P then b else c) := by split <;> assumption
theorem Module.Keeps.same {f : Fld} {m n : Module} (regs : n.regs = m.regs) : m.Keeps f n :=
  ⟨fun r => regs ▸ r, Module.rd_congr regs f⟩

theorem Module.keeps_wr {f : Fld} (m : Module) {g : Fld} (v : Nat) (apart : f.key ≠ g.key) : m.Keeps f (m.wr g v) :=
  ⟨fun r => Module.rising_wr r g v, m.rd_wr_other v apart⟩

/-- What stays at or above an address keeps a field below it. -/
theorem Module.From.keeps {a : Nat} {m n : Module} (h : m.From a n) {f : Fld} (below : f.addr < a) (place : f.lsb < 32) :
    m.Keeps f n :=
  ⟨h.1, h.2 f below place⟩

theorem Module.Keeps.foldl {α : Type} {f : Fld} {g : Module → α → Module} {l : List α}
    (h : ∀ (m : Module), ∀ x ∈ l, m.Keeps f (g m x)) (m : Module) : m.Keeps f (l.foldl g m) :=
  List.foldlRecOn l g (motive := m.Keeps f) (.refl f m) fun n hn x hx => hn.trans (h n x hx)

/-! ### What a fold reaches -/

/-- A fold reaches what one of its steps reaches and every step keeps. -/
theorem foldl_reaches {α β : Type} {p : β → Prop} {f : β → α → β} {l : List α} {x : α} (mem : x ∈ l)
    (reaches : ∀ b, p (f b x)) (keeps : ∀ b y, p b → p (f b y)) (b : β) : p (l.foldl f b) := by
  obtain ⟨before, after, rfl⟩ := List.append_of_mem mem
  rw [List.foldl_append, List.foldl_cons]
  exact List.foldlRecOn after f (reaches _) fun c hc y _ => keeps c y hc

end Sys2Proof.Machine
end

section
/-!
PROOFS. Power-on, module reset, SYS_RESET and the end of the hold-up (R85, R87, R89, R90), and the causes that SYS_RESET_CAUSE
keeps through them (R94).
-/

namespace Sys2Proof.Machine
open Sys2Proof.Claims

/-! ### What every reset keeps (R85, R94) -/

theorem Module.besideRegs_keepCages (m n : Module) :
    (m.keepCages n).besideRegs = ({ n with sw := { n.sw with declared := m.sw.declared } } : Module).besideRegs :=
  (Module.besideRegs_foldl_wr R.MAC_STATUS_RATE_MISMATCH (fun k p => b2n (k.mismatch p)) _ _).trans
    (Module.besideRegs_foldl_wr id (fun _ f => m.rd f) _ _)

/-- A field of a port's status register stands in the block of the ports. -/
theorem macStatus_place (p : Nat) {f : Fld} (status : f ∈ [R.MAC_STATUS_MOD_PRESENT p, R.MAC_STATUS_TX_FAULT p,
    R.MAC_STATUS_RX_LOS p, R.MAC_STATUS_COPPER p, R.MAC_STATUS_RATE_MISMATCH p]) : 0x300000 ≤ f.addr ∧ f.lsb < 32 := by
  simp only [List.mem_cons, List.not_mem_nil, or_false] at status
  obtain rfl | rfl | rfl | rfl | rfl := status <;> refine ⟨?_, Nat.le_of_ble_eq_true rfl⟩ <;>
    exact Nat.le_trans (by decide) (Nat.le_add_right 0x300004 (0x10000 * p))

theorem Module.from_showMismatch (m : Module) : m.From 0x300000 m.showMismatch :=
  Module.from_foldl (fun k p _ => k.from_wr _ _ (macStatus_place p (by simp)).1 (macStatus_place p (by simp)).2) m

/-- Keeping the cages' pins writes fields of the ports only. -/
theorem Module.from_keepCages (m n : Module) : n.From 0x300000 (m.keepCages n) := by
  unfold Module.keepCages
  refine Module.From.trans ?_ (Module.from_showMismatch _)
  refine Module.From.trans (y := { n with sw := { n.sw with declared := m.sw.declared } }) (.same rfl) ?_
  refine Module.from_foldl (fun k f pin => ?_) _
  obtain ⟨p, -, pins⟩ := List.mem_flatMap.mp pin
  have status := macStatus_place p (List.mem_append_left [_] pins)
  exact k.from_wr f _ status.1 status.2

/-- Outside the registers, what a reset keeps is the time, what has been sent, the free values drawn, flash and OTP, the Cave's
bytes and the fitted modules; all else is as right after power-on. -/
theorem Module.besideRegs_keepOver (m : Module) : m.keepOver.besideRegs = { Module.reset with
    mono := m.mono, out := m.out, freeIdx := m.freeIdx, persist := m.persist
    evr := { Evr.init with cave := m.evr.cave }, sw := { Sw.init with declared := m.sw.declared } } :=
  m.besideRegs_keepCages _

theorem Module.rising_keepOver (m : Module) : SMap.rising m.keepOver.regs = true := (m.from_keepCages _).1 rfl

/-- Below the ports' registers a reset leaves every field at its Reset value (R16). -/
theorem Module.rd_keepOver (m : Module) {f : Fld} (below : f.addr < 0x300000) (place : f.lsb < 32) : m.keepOver.rd f = f.dflt :=
  (m.from_keepCages _).2 f below place

/-- Sets the host interface and the power state, the two parts in which the resets differ. -/
def Module.setPower (m : Module) (h : HostSt) (y : SysSt) : Module := { m with host := h, sys := y }

theorem Module.setPower_self (m : Module) : m.setPower m.host m.sys = m := rfl

theorem Module.besideRegs_setPower (m : Module) (h : HostSt) (y : SysSt) :
    (m.setPower h y).besideRegs = m.besideRegs.setPower h y := rfl

theorem Module.rising_setPower {m : Module} (rising : SMap.rising m.regs = true) (h : HostSt) (y : SysSt) :
    SMap.rising (m.setPower h y).regs = true := rising

@[simp] theorem Module.rd_setPower (m : Module) (h : HostSt) (y : SysSt) (f : Fld) : (m.setPower h y).rd f = m.rd f := rfl

/-- A module that is what `keepOver` leaves, but for its registers and the two parts, is rebooted once SYS_READY reads 0. -/
theorem rebooted_settle {m n : Module} {h : HostSt} {y : SysSt} (rest : n.besideRegs = (m.keepOver.setPower h y).besideRegs)
    (ready : n.rd R.SYS_READY_READY = 0) : rebooted m n.settle := by
  rw [Module.besideRegs_setPower, Module.besideRegs_keepOver] at rest
  have field {α : Type} (p : Module → α) : p n.besideRegs = p _ := congrArg p rest
  have cave : n.evr.cave = m.evr.cave := field (·.evr.cave)
  refine ⟨field (·.mode), field (·.clk), field (·.cul), ?_, field (·.press), field (·.evr.queue), field (·.persist),
    fun a => ?_, (n.rd_settle _).trans ready⟩
  · exact congrArg SMap.tidy (field (·.engines))
  · exact (SMap.getD_tidyMem n.evr.cave a).trans (by rw [cave])

/-! ### SYS_RESET_CAUSE (R85, R94) -/

/-- Each cause is the bit of SYS_RESET_CAUSE that its place in the list says; only POWER_ON has Reset value 1. -/
theorem causeBit_eq {k : Nat} {f : Fld} (cause : causeBits[k]? = some f) :
    f = ⟨0xc, k, 1, if k = 0 then 1 else 0⟩ ∧ k < 32 := by
  have places : ∀ j : Fin causeBits.length, causeBits[j] = ⟨0xc, j, 1, if j.val = 0 then 1 else 0⟩ ∧ j.val < 32 := by decide
  obtain ⟨hk, rfl⟩ := List.getElem?_eq_some_iff.mp cause
  exact places ⟨k, hk⟩

theorem Module.rd_setResetCause {m : Module} (h : SMap.rising m.regs = true) (c : Nat) {k : Nat} {f : Fld}
    (cause : causeBits[k]? = some f) : (m.setResetCause c).rd f = bitsOf c k 1 := by
  refine (Module.rd_foldl_wr h (fun f => bitsOf c f.lsb 1) (l := causeBits) (by decide) (List.mem_of_getElem? cause)).trans ?_
  rw [(causeBit_eq cause).1]
  exact Nat.mod_mod _ _

/-- The word of SYS_RESET_CAUSE is its six causes. -/
theorem Module.word_resetCause (m : Module) : m.word 0xc =
    m.rd R.SYS_RESET_CAUSE_POWER_ON_STK + m.rd R.SYS_RESET_CAUSE_SW_STK * 2 + m.rd R.SYS_RESET_CAUSE_PLL_STK * 4 +
      m.rd R.SYS_RESET_CAUSE_THERMAL_STK * 8 + m.rd R.SYS_RESET_CAUSE_FLUSH_STK * 16 + m.rd R.SYS_RESET_CAUSE_STEWARD_STK * 32 := by
  have found : findReg 0xc = some ⟨0xc, [], [⟨0, 1, .w1c, 1, false⟩, ⟨1, 1, .w1c, 0, false⟩, ⟨2, 1, .w1c, 0, false⟩,
    ⟨3, 1, .w1c, 0, false⟩, ⟨4, 1, .w1c, 0, false⟩, ⟨5, 1, .w1c, 0, false⟩]⟩ := by decide
  have stored (lsb dflt : Nat) : m.fieldView 0xc ⟨lsb, 1, .w1c, dflt, false⟩ = m.rd ⟨0xc, lsb, 1, dflt⟩ := rfl
  have shown : ¬ (m.mode = .reset ∧ 0x100000 ≤ 0xc) := fun h => absurd h.2 (by decide)
  rw [Module.word, if_neg shown, found]
  simp only [List.foldl_cons, List.foldl_nil, stored, Nat.zero_add, Nat.pow_zero, Nat.mul_one]
  rfl

/-- A cause that the register holds as one bit is that bit of what a reset finds of the causes. -/
theorem Module.bitsOf_resetCause {m : Module} (bits : ∀ f ∈ causeBits, m.rd f < 2) {k : Nat} {f : Fld}
    (cause : causeBits[k]? = some f) : bitsOf m.resetCause k 1 = m.rd f := by
  rw [Module.resetCause, Module.word_resetCause]
  simp only [causeBits, List.forall_mem_cons, List.not_mem_nil, false_imp_iff, implies_true, and_true] at bits
  obtain ⟨b0, b1, b2, b3, b4, b5⟩ := bits
  obtain ⟨hk, rfl⟩ := List.getElem?_eq_some_iff.mp cause
  match k, hk with
  | 0, _ | 1, _ | 2, _ | 3, _ | 4, _ | 5, _ => simp only [bitsOf, causeBits, List.getElem_cons_zero, List.getElem_cons_succ]; omega

/-- A bit of what two words hold together. -/
theorem bitsOf_or (a b k : Nat) : bitsOf (a ||| b) k 1 = if bitOf b k then 1 else bitsOf a k 1 := by
  have bit (w : Nat) : bitsOf w k 1 = (w.testBit k).toNat := (Nat.toNat_testBit w k).symm
  have test : bitOf b k = b.testBit k := (Nat.testBit_eq_decide_div_mod_eq ..).symm
  rw [bit, bit, test, Nat.testBit_or]
  cases b.testBit k <;> simp

/-! ### Module reset (R85, R94) -/

/-- Takes over the registers that a module reset leaves as they are: those of the PCIe block, and REFCLK_OK. -/
def Module.keepPcie (from_ m : Module) : Module :=
  [R.INS_STATUS_NUM_VFS, R.INS_STATUS_LINK_W, R.INS_STATUS_LINK_RATE, R.INS_DMA_CAP_MBPS, R.SYS_CLK_STAT_REFCLK_OK].foldl
    (fun k f => k.wr f (from_.rd f)) m

theorem Module.besideRegs_keepPcie (m n : Module) : (m.keepPcie n).besideRegs = n.besideRegs :=
  Module.besideRegs_foldl_wr id (fun _ f => m.rd f) _ n

theorem Module.rising_keepPcie (m : Module) {n : Module} (h : SMap.rising n.regs = true) : SMap.rising (m.keepPcie n).regs = true :=
  Module.rising_foldl_wr h m.rd _

theorem Module.besideRegs_setResetCause (m : Module) (c : Nat) : (m.setResetCause c).besideRegs = m.besideRegs :=
  Module.besideRegs_foldl_wr id (fun _ f => bitsOf c f.lsb 1) causeBits m

theorem Module.rd_setResetCause_other (m : Module) (c : Nat) {f : Fld} (apart : ∀ g ∈ causeBits, f.key ≠ g.key) :
    (m.setResetCause c).rd f = m.rd f :=
  Module.rd_foldl_wr_other m (fun f => bitsOf c f.lsb 1) apart

theorem Module.moduleReset_eq (m : Module) (causes : Nat) :
    m.moduleReset causes = (m.keepPcie (m.keepOver.setPower { HostSt.init with mps := m.host.mps }
      { SysSt.init with off := m.sys.off })).setResetCause (m.resetCause ||| causes) := by
  unfold Module.moduleReset Module.setPower
  generalize m.keepOver = k
  rfl

theorem Module.besideRegs_moduleReset (m : Module) (causes : Nat) : (m.moduleReset causes).besideRegs =
    (m.keepOver.setPower { HostSt.init with mps := m.host.mps } { SysSt.init with off := m.sys.off }).besideRegs := by
  rw [Module.moduleReset_eq, Module.besideRegs_setResetCause, Module.besideRegs_keepPcie]

/-- A module reset sets the bits of its own causes and keeps the others. -/
theorem Module.rd_moduleReset_cause (m : Module) (causes : Nat) {k : Nat} {f : Fld} (cause : causeBits[k]? = some f) :
    (m.moduleReset causes).rd f = if bitOf causes k then 1 else bitsOf m.resetCause k 1 := by
  rw [Module.moduleReset_eq, Module.rd_setResetCause (m.rising_keepPcie (Module.rising_setPower m.rising_keepOver _ _)) _ cause,
    bitsOf_or]

theorem Module.rd_moduleReset_ready (m : Module) (causes : Nat) : (m.moduleReset causes).rd R.SYS_READY_READY = 0 := by
  rw [Module.moduleReset_eq, Module.rd_setResetCause_other _ _ (by decide), Module.keepPcie,
    Module.rd_foldl_wr_other _ m.rd (by decide), Module.rd_setPower, m.rd_keepOver (by decide) (by decide)]
  rfl

/-- A module reset leaves the module rebooted. -/
theorem rebooted_moduleReset (m : Module) (causes : Nat) : rebooted m (m.moduleReset causes).settle :=
  rebooted_settle (m.besideRegs_moduleReset causes) (m.rd_moduleReset_ready causes)

/-- The max payload size belongs to the PCIe link, which a module reset leaves alone. -/
theorem Module.mps_moduleReset (m : Module) (causes : Nat) : (m.moduleReset causes).host.mps = m.host.mps := by
  rw [← Module.besideRegs_host, Module.besideRegs_moduleReset, Module.besideRegs_host]
  rfl

/-! ### Power-on, SYS_RESET and the end of the hold-up -/

/-- What is kept through a reset, in a power state of its own, is a rebooted module. -/
theorem rebooted_setPower (m : Module) (h : HostSt) (y : SysSt) : rebooted m (m.keepOver.setPower h y).settle :=
  rebooted_settle rfl ((m.keepOver.rd_setPower ..).trans (m.rd_keepOver (by decide) (by decide)))

theorem rebooted_keepOver (m : Module) : rebooted m m.keepOver.settle := by
  have same := rebooted_setPower m m.keepOver.host m.keepOver.sys
  rwa [Module.setPower_self] at same

theorem Module.sys_keepOver (m : Module) : m.keepOver.sys = SysSt.init := by
  rw [← Module.besideRegs_sys, Module.besideRegs_keepOver]
  rfl

theorem Module.powerOff_eq (m : Module) (latch : Bool) :
    m.powerOff latch = m.keepOver.setPower m.keepOver.host { SysSt.init with off := true, latched := latch } := by
  unfold Module.powerOff Module.setPower
  generalize m.keepOver = k
  rfl

/-- Power-on acts unless the trip latch holds the regulators off (R90). -/
theorem mPowerOn_eq {m : Module} {rested : Bool} (free : m.sys.latched = true → rested = true) : mPowerOn rested m = m.keepOver :=
  if_neg (by simpa using free)

theorem mModuleReset_eq {m : Module} (on : m.sys.off = false) (causes : Nat) : mModuleReset causes m = m.moduleReset causes :=
  if_neg (by simp [on])

/-- The first word of SYS_RESET is held with its time (R87). -/
theorem mSysReset_first {m : Module} (on : m.sys.off = false) (first : m.sys.resetWord = none) :
    mSysReset 0xA5C3 m = { m with sys := { m.sys with resetWord := some m.mono } } := by
  simp only [mSysReset, on, first, Bool.false_eq_true, false_and, if_false, and_self, if_true]

/-- The second word of SYS_RESET in time resets the module at the next edge of the slow clock (R87). -/
theorem mSysReset_second {m : Module} {t : Nat} (on : m.sys.off = false) (first : m.sys.resetWord = some t)
    (inTime : m.mono ≤ t + 1000000 * nsUnit) :
    mSysReset 0x3C5A m = (m.reachMono (ceilDiv m.mono (8 * nsUnit) * 8 * nsUnit)).moduleReset 2 := by
  simp only [mSysReset, on, first, inTime, Bool.false_eq_true, decide_true, and_self, if_false, if_true]

/-- What a module is rebooted from counts by its flash, OTP and Cave only. -/
theorem rebooted_congr {a b m : Module} (persist : b.persist = a.persist) (evr : b.evr = a.evr) (h : rebooted b m) :
    rebooted a m := by
  unfold rebooted at h ⊢
  rwa [← persist, ← evr]

/-- A command that runs f, which makes m of the module, becomes m. -/
theorem becomes_of_upd {i : Instr} {s : State} {f : Module → Module} {m : Module} (runs : exec i s = s.upd f)
    (makes : f s.m = m) : becomes i s m := by
  rw [becomes, runs, State.upd_eq, makes]

/-- Settles O12, from what every reset keeps: the power states are those of assumption 12, the causes' mask and the edge of the
second word of SYS_RESET those of assumption 100. -/
theorem resets : Obligations.Resets := by
  refine ⟨?_, ?_, ?_, ?_, ?_⟩
  · intro s rested free
    refine completes_of_upd (f := mPowerOn rested) rfl ?_
    rw [mPowerOn_eq free, Module.rd_settle, Module.settle_sys]
    exact ⟨rebooted_keepOver s.m, s.m.rd_keepOver (by decide) (by decide), s.m.sys_keepOver⟩
  · intro s causes on
    refine completes_of_upd (f := mModuleReset causes) rfl ?_
    rw [mModuleReset_eq on]
    exact ⟨rebooted_moduleReset s.m causes, s.m.mps_moduleReset causes⟩
  · intro s on first
    exact becomes_of_upd (f := mSysReset 0xA5C3) rfl (mSysReset_first on first)
  · intro s t on first inTime
    refine completes_of_upd (f := mSysReset 0x3C5A) rfl ?_
    rw [mSysReset_second on first inTime, Module.rd_settle, Module.rd_moduleReset_cause (k := 1) _ _ rfl]
    exact ⟨rebooted_congr (Module.adv_persist ..) (Module.adv_evr ..) (rebooted_moduleReset _ _), if_pos (by decide)⟩
  · intro s flush
    have ends : mHoldupExhausted s.m = s.m.powerOff s.m.sys.trip := if_pos flush
    refine completes_of_upd (f := mHoldupExhausted) rfl ?_
    rw [ends, Module.powerOff_eq, Module.settle_sys]
    exact ⟨rebooted_setPower s.m _ _, rfl, rfl⟩

/-- Settles O13: what a reset keeps leaves SYS_RESET_CAUSE at its Reset values, and MODULE_RESET adds the mask of causes of
assumption 100. -/
theorem resetCauses : Obligations.ResetCauses := by
  refine ⟨?_, ?_⟩
  · intro s rested free
    refine completes_of_upd (f := mPowerOn rested) rfl fun k f cause => ?_
    obtain ⟨rfl, place⟩ := causeBit_eq cause
    rw [mPowerOn_eq free, Module.rd_settle, s.m.rd_keepOver (show 0xc < 0x300000 by decide) place]
  · intro s causes on bits
    refine completes_of_upd (f := mModuleReset causes) rfl fun k f cause => ?_
    rw [mModuleReset_eq on, Module.rd_settle, Module.rd_moduleReset_cause _ _ cause, Module.bitsOf_resetCause bits cause]

end Sys2Proof.Machine
end

section
/-!
PROOFS. The exit from RESET (R76, R78, R169).
-/

namespace Sys2Proof.Machine
open Sys2Proof.Claims

/-! ### The recorder at entry to LOAD (R383, R385) -/

theorem Module.events_ownRecord (m : Module) (typ data : Nat) (front : Bool) : m.ExceptEvents (m.ownRecord typ data front) :=
  ⟨_, _, rfl⟩

/-- Entry to LOAD changes registers and the recorder only. -/
theorem Module.events_evrLoadEntry (m : Module) : m.ExceptEvents m.evrLoadEntry := by
  unfold Module.evrLoadEntry
  refine Module.ExceptEvents.trans ?_ (Module.events_ownRecord ..)
  split
  · exact ⟨_, _, rfl⟩
  · exact .ite ⟨_, _, rfl⟩ ⟨_, _, rfl⟩

theorem Module.keeps_ownRecord {f : Fld} (m : Module) (typ data : Nat) (front : Bool) : m.Keeps f (m.ownRecord typ data front) :=
  .same rfl
theorem Module.keeps_setEvr {f : Fld} (m : Module) (e : Evr) : m.Keeps f { m with evr := e } := .same rfl

/-- Entry to LOAD keeps every field below the recorder's but SYS_RESET_CAUSE, where THERMAL_STK is set. -/
theorem Module.keeps_evrLoadEntry (m : Module) {f : Fld} (below : f.addr < 0xb00000) (place : f.lsb < 32) (apart : f.addr ≠ 0xc) :
    m.Keeps f m.evrLoadEntry := by
  have init : f.key ≠ R.EVR_STATUS_INIT_STK.key :=
    Fld.key_ne place (by decide) (.inl (by simp only [R.EVR_STATUS_INIT_STK]; omega))
  have thermal : f.key ≠ R.SYS_RESET_CAUSE_THERMAL_STK.key := Fld.key_ne place (by decide) (.inl apart)
  cases hv : validHeader m.evr.cave <;> simp only [Module.evrLoadEntry, hv] <;>
    refine Module.Keeps.trans ?_ (Module.keeps_ownRecord ..)
  case none =>
    exact ((m.keeps_setEvr _).trans (Module.keeps_wr _ _ init)).trans (Module.keeps_ownRecord ..)
  case some off =>
    exact .ite ((m.keeps_setEvr _).trans (Module.keeps_wr _ _ thermal)) (m.keeps_setEvr _)

/-! ### The mode, the boot identity and the nonce -/

theorem Module.from_setMode {a : Nat} (m : Module) (md : Mode) : m.From a { m with mode := md } := .same rfl

/-- A change of mode writes CFG_RIPEN_STAT and the recorder's counters. -/
theorem Module.from_toMode (m : Module) (md : Mode) : m.From 0x100000 (m.toMode md) := by
  have shown : m.From 0x100000 (if m.mode = .ripen then
      m.wr R.CFG_RIPEN_STAT_ELAPSED_MS ((m.mono - m.sys.upAt) / (1000000 * nsUnit)) else m) :=
    .ite (m.from_wr _ _ (by decide) (by decide)) (.refl _ m)
  exact (shown.trans (Module.from_setMode _ md)).trans ((Module.from_raise' ..).mono (by decide))

/-- The mode, the primary clock, and what survives a reset. -/
def Module.modeClkPersist (m : Module) : Mode × Nat × Persist := (m.mode, m.clk, m.persist)

theorem Module.modeClkPersist_of_events {m n : Module} (h : m.ExceptEvents n) : n.modeClkPersist = m.modeClkPersist := by
  obtain ⟨_, _, rfl⟩ := h
  rfl

theorem Module.modeClkPersist_toMode (m : Module) (md : Mode) : (m.toMode md).modeClkPersist = (md, m.clk, m.persist) := by
  unfold Module.toMode
  refine (Module.modeClkPersist_of_events (Module.events_raise' ..)).trans ?_
  by_cases ripen : m.mode = .ripen
  · rw [if_pos ripen]; rfl
  · rw [if_neg ripen]; rfl

/-- Random bytes take free values and nothing else. -/
theorem Module.freshBytes_module (n : Nat) (m : Module) : (Module.freshBytes n m).2 = { m with freeIdx := m.freeIdx + n } := by
  induction n generalizing m with
  | zero => rfl
  | succ n ih =>
    rw [Module.freshBytes]
    exact (ih _).trans (by simp only [Module.freshIdx, Nat.add_right_comm, Nat.add_assoc])

/-- What a new BOOT_ID and a new owner nonce leave alone: the registers but for KEY_OTP_NONCE, and the mode, the clock and what
survives a reset (R396, R456). -/
theorem Module.from_newBootId (m : Module) : m.From 0xb00000 m.newBootId := by
  unfold Module.newBootId
  exact .ite (.same rfl) (.same rfl)

theorem Module.modeClkPersist_newBootId (m : Module) : m.newBootId.modeClkPersist = m.modeClkPersist := by
  unfold Module.newBootId
  split <;> rfl

theorem Module.newNonce_eq (m : Module) : m.newNonce = if m.rngFailed then m else
    ({ m with freeIdx := m.freeIdx + 8 } : Module).wrWords R.KEY_OTP_NONCE_NONCE 8 (Module.freshBytes 8 m).1 := by
  rw [← Module.freshBytes_module]
  unfold Module.newNonce
  generalize Module.freshBytes 8 m = x
  rfl

theorem Module.from_newNonce (m : Module) : m.From 0xb00000 m.newNonce := by
  have drawn : m.From 0xb00000 { m with freeIdx := m.freeIdx + 8 } := .same rfl
  have word (w : Nat) : 0xb00000 ≤ (R.KEY_OTP_NONCE_NONCE w).addr ∧ (R.KEY_OTP_NONCE_NONCE w).lsb < 32 :=
    ⟨by simp only [R.KEY_OTP_NONCE_NONCE]; omega, by simp [R.KEY_OTP_NONCE_NONCE]⟩
  rw [Module.newNonce_eq]
  exact .ite (.refl _ m) (drawn.trans (Module.from_foldWr _ (List.range 8) R.KEY_OTP_NONCE_NONCE _ word))

theorem Module.modeClkPersist_wrWords (m : Module) (f : Nat → Fld) (n : Nat) (b : Bytes) :
    (m.wrWords f n b).modeClkPersist = m.modeClkPersist :=
  foldl_keeps Module.modeClkPersist (f := fun k w => k.wr (f w) (leAt b (4 * w) 4)) (fun _ _ _ => rfl) m

theorem Module.modeClkPersist_newNonce (m : Module) : m.newNonce.modeClkPersist = m.modeClkPersist := by
  rw [Module.newNonce_eq]
  split
  · rfl
  · exact Module.modeClkPersist_wrWords ..

/-! ### RESET_EXIT (R76, R78) -/

/-- Samples the Seal Bank (R76). -/
def Module.sampleSeal (m : Module) (sw : Nat) : Module := (m.wr R.SYS_SEAL_AT_RESET sw).wr R.SYS_SEAL_NOW sw

/-- Shows the clocks and the supplies as RESET_EXIT found them. -/
def Module.showSupplies (m : Module) (bank slot aux : Nat) : Module :=
  [(R.SYS_CLK_STAT_PLL_LOCK, 1), (R.SYS_CLK_STAT_OSC_OK, 1), (R.SYS_HOLDUP_OK, 1), (R.SYS_HOLDUP_BANK_MV, bank),
    (R.SYS_PWR_IN_SLOT_MV, slot), (R.SYS_PWR_IN_AUX_MV, aux)].foldl (fun k x => k.wr x.1 x.2) m

theorem Module.persist_showSupplies (m : Module) (bank slot aux : Nat) : (m.showSupplies bank slot aux).persist = m.persist :=
  foldl_keeps Module.persist (f := fun k (x : Fld × Nat) => k.wr x.1 x.2) (fun _ _ _ => rfl) m

/-- Enters LOAD from RESET: the primary clock starts at 0. -/
def Module.enterLoad (m : Module) : Module := ((({ m with clk := 0 } : Module).evrLoadEntry.toMode .load).newBootId).newNonce

theorem Module.modeClkPersist_enterLoad (m : Module) : m.enterLoad.modeClkPersist = (.load, 0, m.persist) := by
  rw [Module.enterLoad, Module.modeClkPersist_newNonce, Module.modeClkPersist_newBootId, Module.modeClkPersist_toMode]
  exact congrArg (fun x => (Mode.load, x.2)) (Module.modeClkPersist_of_events (Module.events_evrLoadEntry _))

/-- Entering LOAD keeps both fields of SYS_SEAL. -/
theorem Module.keeps_enterLoad (m : Module) {f : Fld} (addr : f.addr = 0x24) (place : f.lsb < 32) : m.Keeps f m.enterLoad := by
  have started : m.Keeps f { m with clk := 0 } := .same rfl
  have recorder := Module.keeps_evrLoadEntry { m with clk := 0 } (by omega) place (by omega)
  have low : ({ m with clk := 0 } : Module).evrLoadEntry.From 0x100000 m.enterLoad :=
    (Module.from_toMode ..).trans (((Module.from_newBootId _).trans (Module.from_newNonce _)).mono (by decide))
  exact (started.trans recorder).trans (low.keeps (by omega) place)

theorem Module.rd_showSupplies (m : Module) (bank slot aux : Nat) {f : Fld} (addr : f.addr = 0x24) (place : f.lsb < 32) :
    (m.showSupplies bank slot aux).rd f = m.rd f := by
  refine foldl_keeps (Module.rd · f) (fun k x hx => k.rd_wr_other _ ?_) m
  have apart : x.1.addr ≠ 0x24 ∧ x.1.lsb < 32 := by
    simp only [List.mem_cons, List.not_mem_nil, or_false] at hx
    rcases hx with rfl | rfl | rfl | rfl | rfl | rfl <;> dsimp only <;> decide
  exact Fld.key_ne place apart.2 (.inl (addr ▸ apart.1.symm))

/-- The reads of SYS_SEAL after RESET_EXIT are the switches as sampled. -/
theorem Module.rd_seal_enterLoad {m : Module} (h : SMap.rising m.regs = true) (sw bank slot aux : Nat) {f : Fld}
    (sealed : f = R.SYS_SEAL_AT_RESET ∨ f = R.SYS_SEAL_NOW) :
    ((m.sampleSeal sw).showSupplies bank slot aux).enterLoad.rd f = sw % 256 := by
  have place : f.addr = 0x24 ∧ f.lsb < 32 := by rcases sealed with rfl | rfl <;> decide
  rw [(Module.keeps_enterLoad _ place.1 place.2).2, Module.rd_showSupplies _ _ _ _ place.1 place.2]
  rcases sealed with rfl | rfl
  · exact (Module.rd_wr_other _ _ (by decide)).trans (m.rd_wr_same h _ _)
  · exact Module.rd_wr_same _ (Module.rising_wr h _ _) _ _

/-- RESET_EXIT with the conditions of R78 met. -/
theorem mResetExit_eq {m : Module} {sw bank slot aux : Nat} (inReset : m.mode = .reset) (on : m.sys.off = false)
    (free : m.sys.held = false) (charged : 34500 ≤ bank) (good : inputsGood slot aux = true) :
    mResetExit sw bank slot aux m = ((m.sampleSeal sw).showSupplies bank slot aux).enterLoad := by
  have goes : ¬ (m.mode ≠ .reset ∨ m.sys.off ∨ m.sys.held ∨ bank < 34500 ∨ !inputsGood slot aux) := by
    simp [inReset, on, free, good, charged]
  unfold mResetExit
  rw [if_neg goes]
  rfl

/-- Settles O14: the switches are those sampled, since nothing that follows in RESET_EXIT writes SYS_SEAL. -/
theorem resetExit : Obligations.ResetExit := by
  intro s sw bank slot aux inReset on free charged slotLow slotHigh auxLow auxHigh rising
  have good : inputsGood slot aux = true := by simp [inputsGood, slotLow, slotHigh, auxLow, auxHigh]
  obtain ⟨mode, rest⟩ := Prod.mk.inj ((s.m.sampleSeal sw).showSupplies bank slot aux).modeClkPersist_enterLoad
  obtain ⟨clk, persist⟩ := Prod.mk.inj rest
  refine completes_of_upd (f := mResetExit sw bank slot aux) rfl ?_
  rw [mResetExit_eq inReset on free charged good, Module.rd_settle, Module.rd_settle,
    Module.rd_seal_enterLoad rising _ _ _ _ (.inl rfl), Module.rd_seal_enterLoad rising _ _ _ _ (.inr rfl),
    Module.settle_mode, Module.settle_clk, Module.settle_persist, mode, clk, persist,
    Module.persist_showSupplies]
  exact ⟨rfl, rfl, rfl, rfl, rfl⟩

end Sys2Proof.Machine
end

section
/-!
PROOFS. The PCIe resets and the training of the link (R86, R320, R340).
-/

namespace Sys2Proof.Machine
open Sys2Proof.Claims

/-! ### What the recorder keeps of the fields above it -/

/-- Taking an event leaves the fields above the recorder's counters alone (R372, R381). -/
theorem Module.keeps_takeEvent (m : Module) {f : Fld} (above : 0x1000000 ≤ f.addr) (place : f.lsb < 32) (s c i t d x : Nat) :
    m.Keeps f (m.takeEvent s c i t d x) := by
  have bump (k : Module) {n : Nat} (few : n < 8) : k.Keeps f (k.bump (R.EVR_CNT_CNT n)) :=
    k.keeps_wr _ (Fld.key_ne place (by simp [R.EVR_CNT_CNT]) (.inl (by simp only [R.EVR_CNT_CNT]; omega)))
  have lostOne (k : Module) : k.Keeps f (k.bump R.EVR_LOST_CNT_CNT) :=
    k.keeps_wr _ (Fld.key_ne place (by decide) (.inl (by simp only [R.EVR_LOST_CNT_CNT]; omega)))
  have lost (k : Module) : k.Keeps f k.enqueueLost := by
    unfold Module.enqueueLost
    exact .ite (.refl f k) (Module.Keeps.trans (.same rfl) (bump _ (by decide)))
  have lose (k : Module) : k.Keeps f k.loseEvent :=
    ((k.keeps_setEvr _).trans (lostOne _)).trans (bump _ (by decide))
  unfold Module.takeEvent
  refine .ite (.refl f m) (.ite ((bump m (by decide)).trans (bump _ (by decide))) ?_)
  exact ((bump m (by decide)).trans (lost _)).trans (.ite (lose _) (.same rfl))

theorem Module.keeps_raiseIf (m : Module) {f : Fld} (above : 0x1000000 ≤ f.addr) (place : f.lsb < 32) (en : Fld)
    (s n c i t d : Nat) : m.Keeps f (m.raiseIf en s n c i t d) :=
  .ite (m.keeps_takeEvent above place ..) (.refl f m)

/-! ### The load of the curd rings (R320) -/

/-- The fields that show the link: they stand in the INS block, below those of the curd rings' load. -/
def linkFields : List Fld := [R.INS_STATUS_NUM_VFS, R.INS_STATUS_LINK_W, R.INS_STATUS_LINK_RATE, R.INS_DMA_CAP_MBPS]

theorem linkFields_place {f : Fld} (link : f ∈ linkFields) : 0x1000000 ≤ f.addr ∧ f.addr < 0x100000c ∧ f.lsb < 16 := by
  have places : ∀ f ∈ linkFields, 0x1000000 ≤ f.addr ∧ f.addr < 0x100000c ∧ f.lsb < 16 := by decide
  exact places f link

/-- Shows the load of the curd rings of all instances. -/
def Module.showExports (m : Module) : Module :=
  m.instances.foldl (fun k i => k.wr (R.INS_INST_USE_EXPORT_MBPS i) (k.exportOf i)) m

/-- What showing the load of the curd rings does: it writes the loads and CAP_SHORT, and where that turns to 1 its sticky bit and
event. -/
theorem Module.exportShown_eq (m : Module) : ∃ load short,
    m.exportShown = (m.showExports.wr R.INS_EXPORT_LOAD_MBPS load).wr R.INS_STATUS_CAP_SHORT short ∨
      m.exportShown = (((m.showExports.wr R.INS_EXPORT_LOAD_MBPS load).wr R.INS_STATUS_CAP_SHORT short).flag
        R.INS_STATUS_CAP_SHORT_STK).raiseIf R.INS_CTRL_LOG_EN 15 3 0 0xFFFF 0xFFFF 0 :=
  ⟨_, _, (ite_eq_or_eq _ _ _).symm⟩

/-- Showing the load of the curd rings changes registers and the recorder only. -/
theorem Module.events_exportShown (m : Module) : m.ExceptEvents m.exportShown := by
  have rings : m.ExceptEvents m.showExports :=
    List.foldlRecOn m.instances _ (motive := m.ExceptEvents) (.refl m) fun n hn i _ => hn.trans (n.events_wr _ _)
  obtain ⟨load, short, eq | eq⟩ := m.exportShown_eq <;> rw [eq]
  · exact (rings.trans (Module.events_wr ..)).trans (Module.events_wr ..)
  · exact (((rings.trans (Module.events_wr ..)).trans (Module.events_wr ..)).trans (Module.events_wr ..)).trans
      (Module.events_raiseIf ..)

/-- Showing the load of the curd rings keeps the fields that show the link. -/
theorem Module.keeps_exportShown (m : Module) {f : Fld} (link : f ∈ linkFields) : m.Keeps f m.exportShown := by
  obtain ⟨above, below, low⟩ := linkFields_place link
  have place : f.lsb < 32 := by omega
  have wr (k : Module) {g : Fld} (v : Nat) (apart : 0x100000c ≤ g.addr ∨ 16 ≤ g.lsb) (lsb : g.lsb < 32) :
      k.Keeps f (k.wr g v) := k.keeps_wr v (Fld.key_ne place lsb (by omega))
  have rings : m.Keeps f m.showExports :=
    .foldl (fun k i _ => wr k _ (.inl (by simp only [R.INS_INST_USE_EXPORT_MBPS]; omega)) (by simp [R.INS_INST_USE_EXPORT_MBPS])) m
  have shown (load short : Nat) :
      m.Keeps f ((m.showExports.wr R.INS_EXPORT_LOAD_MBPS load).wr R.INS_STATUS_CAP_SHORT short) :=
    (rings.trans (wr _ _ (by decide) (by decide))).trans (wr _ _ (by decide) (by decide))
  obtain ⟨load, short, eq | eq⟩ := m.exportShown_eq <;> rw [eq]
  · exact shown load short
  · exact ((shown load short).trans (wr _ _ (by decide) (by decide))).trans (Module.keeps_raiseIf _ above place ..)

/-- A canonical register store stays canonical where the load of the curd rings is shown. -/
theorem Module.rising_exportShown {m : Module} (h : SMap.rising m.regs = true) : SMap.rising m.exportShown.regs = true :=
  (m.keeps_exportShown (f := R.INS_STATUS_NUM_VFS) (by decide)).1 h

theorem Module.host_exportShown (m : Module) : m.exportShown.host = m.host := by
  obtain ⟨_, _, eq⟩ := m.events_exportShown
  rw [eq]

theorem Module.press_exportShown (m : Module) : m.exportShown.press = m.press := by
  obtain ⟨_, _, eq⟩ := m.events_exportShown
  rw [eq]

/-! ### The host interface and the Press -/

/-- The parts of the module that a PCIe reset changes beside registers: the host interface, and the Press with the snapshot
requests. -/
def Module.hostPress (m : Module) : HostSt × Press := (m.host, m.press)

theorem Module.host_of_hostPress {m n : Module} (same : m.hostPress = n.hostPress) : m.host = n.host := congrArg Prod.fst same
theorem Module.press_of_hostPress {m n : Module} (same : m.hostPress = n.hostPress) : m.press = n.press := congrArg Prod.snd same

theorem Module.hostPress_keyEnd (m : Module) (result : Nat) : (m.keyEnd result).hostPress = m.hostPress := by
  unfold Module.keyEnd
  split
  · rfl
  · dsimp only
    split <;> rfl

theorem Module.hostPress_stageFail (m : Module) (cause check : Nat) : (m.stageFail cause check).hostPress = m.hostPress := rfl

theorem Module.hostPress_endThrough (m : Module) (i : Nat) : (m.endThrough i).hostPress = m.hostPress := by
  unfold Module.endThrough
  dsimp only
  split <;> split
  · rw [Module.hostPress_stageFail, Module.hostPress_keyEnd]
  · rw [Module.hostPress_keyEnd]
  · rw [Module.hostPress_stageFail]
  · rfl

/-! ### Queues (R340) -/

/-- A queue as a PCIe reset leaves it: its configuration cleared, disabled with cause 4. -/
def pcieQueue : HQueue := { HQueue.init with cause := 4 }

theorem Module.hq_setHq (m : Module) (i q : Nat) (x : HQueue) (j r : Nat) :
    (m.setHq i q x).hq j r = if 8 * j + r = 8 * i + q then x else m.hq j r := by
  simp only [Module.hq, Module.setHq, SMap.getD, SMap.get?_set]
  split <;> rfl

theorem Module.hq_congr {m n : Module} (host : n.host.queues = m.host.queues) (i q : Nat) : n.hq i q = m.hq i q := by
  rw [Module.hq, host]
  rfl

/-- The codes of the queues that the host has of one of its instances (R324). -/
def queueCodes : List Nat := [0, 1, 2, 4, 5, 6, 7]

/-- Leaves every queue of i as a PCIe reset does. -/
def Module.clearQueues (m : Module) (i : Nat) : Module := queueCodes.foldl (fun k q => k.setHq i q pcieQueue) m

theorem Module.hq_clearQueues (m : Module) (i : Nat) {q : Nat} (code : q ∈ queueCodes) :
    (m.clearQueues i).hq i q = pcieQueue := by
  refine foldl_reaches (p := fun k : Module => k.hq i q = pcieQueue) code (fun b => ?_) (fun b r h => ?_) m
  · rw [Module.hq_setHq, if_pos rfl]
  · rw [Module.hq_setHq, h, ite_self]

/-- A queue that is as a PCIe reset leaves it stays so, whichever of the instances is cleared next. -/
theorem Module.hq_clearQueues_keeps {m : Module} {j q : Nat} (h : m.hq j q = pcieQueue) (i : Nat) :
    (m.clearQueues i).hq j q = pcieQueue := by
  refine List.foldlRecOn queueCodes _ (motive := fun k : Module => k.hq j q = pcieQueue) h fun b hb r _ => ?_
  rw [Module.hq_setHq, hb, ite_self]

theorem Module.press_clearQueues (m : Module) (i : Nat) : (m.clearQueues i).press = m.press :=
  foldl_keeps Module.press (f := fun k q => k.setHq i q pcieQueue) (fun _ _ _ => rfl) m

theorem Module.regs_clearQueues (m : Module) (i : Nat) : (m.clearQueues i).regs = m.regs :=
  foldl_keeps Module.regs (f := fun k q => k.setHq i q pcieQueue) (fun _ _ _ => rfl) m

/-- Drops the fetched commands and the receive buffers of i. -/
def Module.dropFetched (m : Module) (i : Nat) : Module :=
  { m with host := { m.host with cmds := m.host.cmds.erase i, bufs := m.host.bufs.erase i } }

theorem Module.queues_dropFetched (m : Module) (i : Nat) : (m.dropFetched i).host.queues = m.host.queues := rfl
theorem Module.press_dropFetched (m : Module) (i : Nat) : (m.dropFetched i).press = m.press := rfl
theorem Module.regs_dropFetched (m : Module) (i : Nat) : (m.dropFetched i).regs = m.regs := rfl

/-- Drops the host reads in flight of i. -/
def Module.dropReads (m : Module) (i : Nat) : Module :=
  { m with host := { m.host with reads := m.host.reads.filter fun r => r.inst != i } }

theorem Module.queues_dropReads (m : Module) (i : Nat) : (m.dropReads i).host.queues = m.host.queues := rfl
theorem Module.press_dropReads (m : Module) (i : Nat) : (m.dropReads i).press = m.press := rfl
theorem Module.regs_dropReads (m : Module) (i : Nat) : (m.dropReads i).regs = m.regs := rfl

theorem Module.host_flushHp (m : Module) (i : Nat) : (m.flushHp i).host = m.host := rfl
theorem Module.press_flushHp (m : Module) (i : Nat) : (m.flushHp i).press = m.press := rfl

theorem Module.rising_flushHp {m : Module} (h : SMap.rising m.regs = true) (i : Nat) : SMap.rising (m.flushHp i).regs = true :=
  Module.rising_wr (m := m.setQueue (.hp i) []) h _ _

theorem Module.queuesOff_clear (m : Module) (i : Nat) :
    m.queuesOff i 4 true = ((m.clearQueues i).dropFetched i).exportShown := rfl

theorem Module.pcieInst_eq (m : Module) (i : Nat) :
    m.pcieInst i = ((((m.clearQueues i).dropFetched i).exportShown).flushHp i).dropReads i := by
  rw [← Module.queuesOff_clear]
  rfl

theorem Module.press_pcieInst (m : Module) (i : Nat) : (m.pcieInst i).press = m.press := by
  rw [Module.pcieInst_eq, Module.press_dropReads, Module.press_flushHp, Module.press_exportShown, Module.press_dropFetched,
    Module.press_clearQueues]

/-- Of the host interface's queues the PCIe reset of i changes those of i only. -/
theorem Module.hq_pcieInst (m : Module) (i j q : Nat) : (m.pcieInst i).hq j q = (m.clearQueues i).hq j q := by
  refine Module.hq_congr ?_ j q
  rw [Module.pcieInst_eq, Module.queues_dropReads, Module.host_flushHp, Module.host_exportShown, Module.queues_dropFetched]

theorem Module.rising_pcieInst {m : Module} (h : SMap.rising m.regs = true) (i : Nat) : SMap.rising (m.pcieInst i).regs = true := by
  rw [Module.pcieInst_eq, Module.regs_dropReads]
  refine Module.rising_flushHp (Module.rising_exportShown ?_) i
  rwa [Module.regs_dropFetched, Module.regs_clearQueues]

/-! ### Key commands and staging (R340) -/

theorem Module.rising_keyEnd {m : Module} (h : SMap.rising m.regs = true) (result : Nat) :
    SMap.rising (m.keyEnd result).regs = true := by
  unfold Module.keyEnd
  split
  · exact h
  · refine Module.rising_wr (Module.rising_wr (Module.rising_wr ?_ _ _) _ _) _ _
    dsimp only
    split <;> exact h

theorem Module.rising_stageFail {m : Module} (h : SMap.rising m.regs = true) (cause check : Nat) :
    SMap.rising (m.stageFail cause check).regs = true := by
  unfold Module.stageFail
  exact Module.rising_wr (Module.rising_wr (Module.rising_wr (Module.rising_wr (Module.rising_wr h _ _) _ _) _ _) _ _) _ _

theorem Module.rising_endThrough {m : Module} (h : SMap.rising m.regs = true) (i : Nat) :
    SMap.rising (m.endThrough i).regs = true := by
  unfold Module.endThrough
  dsimp only
  split <;> split
  · exact Module.rising_stageFail (Module.rising_keyEnd h _) _ _
  · exact Module.rising_keyEnd h _
  · exact Module.rising_stageFail h _ _
  · exact h

/-! ### Transactions and snapshots (R62, R66) -/

theorem Module.hostPress_abortTxns (m : Module) : m.abortTxns.hostPress = m.hostPress := by
  refine foldl_keeps Module.hostPress (fun k n _ => ?_) m
  split <;> rfl

theorem Module.rising_abortTxns {m : Module} (h : SMap.rising m.regs = true) : SMap.rising m.abortTxns.regs = true := by
  refine List.foldlRecOn _ _ (motive := fun k : Module => SMap.rising k.regs = true) h fun k hk n _ => ?_
  split
  · exact Module.rising_txnState hk _ _ _
  · exact hk

/-- The snapshot requests of other functions wait on. -/
theorem Module.hostPress_abortSnaps (m : Module) (p : Nat → Bool) :
    (m.abortSnaps p).hostPress = (m.setSnaps (m.press.snaps.filter fun x => !p x.1)).hostPress :=
  foldl_keeps Module.hostPress (l := m.press.snaps.filter fun x => p x.1)
    (f := fun k (x : Nat × Nat × Nat) => (k.wr (fnReg x.1 0x900314 0x24 0 1) 0).wr (fnReg x.1 0x900314 0x24 1 1) 1)
    (fun _ _ _ => rfl) _

theorem Module.host_abortSnaps (m : Module) (p : Nat → Bool) : (m.abortSnaps p).host = m.host :=
  (Module.host_of_hostPress (m.hostPress_abortSnaps p)).trans rfl

theorem Module.snaps_abortSnaps (m : Module) (p : Nat → Bool) :
    (m.abortSnaps p).press.snaps = m.press.snaps.filter fun x => !p x.1 :=
  (congrArg Press.snaps (Module.press_of_hostPress (m.hostPress_abortSnaps p))).trans rfl

theorem Module.rising_abortSnaps {m : Module} (h : SMap.rising m.regs = true) (p : Nat → Bool) :
    SMap.rising (m.abortSnaps p).regs = true :=
  List.foldlRecOn _ _ (motive := fun k : Module => SMap.rising k.regs = true) h fun _ hk _ _ =>
    Module.rising_wr (Module.rising_wr hk _ _) _ _

/-! ### The resets (R86, R340) -/

/-- Resets the host-owned instances' PCIe state, and what reaches host memory through them. -/
def Module.pcieInsts (m : Module) : Module :=
  (m.instances.filter m.hostOwned).foldl (fun k i => (k.pcieInst i).endThrough i) m

/-- The translation entries after a PCIe reset. -/
def Module.pcieXlt (m : Module) : SMap Nat := (m.instances.filter m.hostOwned).foldl (fun x i => invalAll i x) m.pcieInsts.host.xlt

/-- Drops every host read in flight, and leaves other translation entries. -/
def Module.dropAccesses (m : Module) (x : SMap Nat) : Module := { m with host := { m.host with reads := [], xlt := x } }

theorem Module.queues_dropAccesses (m : Module) (x : SMap Nat) : (m.dropAccesses x).host.queues = m.host.queues := rfl
theorem Module.reads_dropAccesses (m : Module) (x : SMap Nat) : (m.dropAccesses x).host.reads = [] := rfl
theorem Module.regs_dropAccesses (m : Module) (x : SMap Nat) : (m.dropAccesses x).regs = m.regs := rfl

theorem Module.pcieReset_eq (m : Module) : m.pcieReset =
    (((m.pcieInsts.dropAccesses m.pcieXlt).abortTxns).abortSnaps fun _ => true).wr R.INS_STATUS_NUM_VFS 0 := rfl

/-- The PF's reset ends every host access. -/
theorem Module.reads_pcieReset (m : Module) : m.pcieReset.host.reads = [] := by
  rw [Module.pcieReset_eq, Module.wr_host, Module.host_abortSnaps, Module.host_of_hostPress (Module.hostPress_abortTxns _),
    Module.reads_dropAccesses]

/-- The PF's reset aborts every snapshot request that waits (R66). -/
theorem Module.snaps_pcieReset (m : Module) : m.pcieReset.press.snaps = [] := by
  rw [Module.pcieReset_eq, Module.wr_press, Module.snaps_abortSnaps, Bool.not_true, List.filter_false]

theorem Module.rising_pcieInsts {m : Module} (h : SMap.rising m.regs = true) : SMap.rising m.pcieInsts.regs = true :=
  List.foldlRecOn _ _ (motive := fun k : Module => SMap.rising k.regs = true) h fun _ hk i _ =>
    Module.rising_endThrough (Module.rising_pcieInst hk i) i

/-- The PF's reset shows no VFs (R340). -/
theorem Module.rd_pcieReset_numVfs {m : Module} (h : SMap.rising m.regs = true) :
    SMap.rising m.pcieReset.regs = true ∧ m.pcieReset.rd R.INS_STATUS_NUM_VFS = 0 := by
  have insts : SMap.rising (m.pcieInsts.dropAccesses m.pcieXlt).regs = true := by
    rw [Module.regs_dropAccesses]
    exact Module.rising_pcieInsts h
  have aborted := Module.rising_abortSnaps (Module.rising_abortTxns insts) fun _ => true
  rw [Module.pcieReset_eq]
  exact ⟨Module.rising_wr aborted _ _, Module.rd_wr_same _ aborted _ _⟩

theorem Module.hq_endThrough (m : Module) (i j q : Nat) : (m.endThrough i).hq j q = m.hq j q := by
  refine Module.hq_congr ?_ j q
  rw [Module.host_of_hostPress (m.hostPress_endThrough i)]

/-- Resetting some instances leaves the queues of each of them cleared. -/
theorem Module.hq_pcieInsts (m : Module) {i q : Nat} (known : i ∈ m.instances) (owned : m.hostOwned i = true)
    (code : q ∈ queueCodes) : m.pcieInsts.hq i q = pcieQueue := by
  refine foldl_reaches (p := fun k : Module => k.hq i q = pcieQueue) (List.mem_filter.mpr ⟨known, owned⟩)
    (fun k => ?_) (fun k j h => ?_) m
  · rw [Module.hq_endThrough, Module.hq_pcieInst, Module.hq_clearQueues _ _ code]
  · rw [Module.hq_endThrough, Module.hq_pcieInst, Module.hq_clearQueues_keeps h]

@[simp] theorem Module.hq_settle (m : Module) (i q : Nat) : m.settle.hq i q = m.hq i q := SMap.getD_tidy _ _ _

/-- The PF's reset disables and clears the queues of all host-owned instances. -/
theorem Module.hq_pcieReset (m : Module) {i q : Nat} (known : i ∈ m.instances) (owned : m.hostOwned i = true)
    (code : q ∈ queueCodes) : m.pcieReset.hq i q = pcieQueue := by
  rw [← m.hq_pcieInsts known owned code]
  refine Module.hq_congr ?_ i q
  rw [Module.pcieReset_eq, Module.wr_host, Module.host_abortSnaps, Module.host_of_hostPress (Module.hostPress_abortTxns _),
    Module.queues_dropAccesses]

/-! ### The link (R320) -/

/-- Shows no link. -/
def Module.linkDown (m : Module) : Module := ((m.wr R.INS_STATUS_LINK_W 0).wr R.INS_STATUS_LINK_RATE 0).wr R.INS_DMA_CAP_MBPS 0

theorem Module.host_linkDown (m : Module) : m.linkDown.host = m.host := rfl
theorem Module.press_linkDown (m : Module) : m.linkDown.press = m.press := rfl

theorem mPcieReset_eq (m : Module) : mPcieReset m = m.pcieReset.linkDown.exportShown := by
  unfold mPcieReset Module.linkDown
  generalize m.pcieReset = k
  rfl

theorem Module.rd_linkDown_numVfs (m : Module) : m.linkDown.rd R.INS_STATUS_NUM_VFS = m.rd R.INS_STATUS_NUM_VFS := by
  rw [Module.linkDown, Module.rd_wr_other _ _ (by decide), Module.rd_wr_other _ _ (by decide), Module.rd_wr_other _ _ (by decide)]

theorem Module.rd_linkDown_width {m : Module} (h : SMap.rising m.regs = true) : m.linkDown.rd R.INS_STATUS_LINK_W = 0 := by
  rw [Module.linkDown, Module.rd_wr_other _ _ (by decide), Module.rd_wr_other _ _ (by decide), m.rd_wr_same h, Nat.zero_mod]

/-- What PCIE_RESET and a function-level reset of the PF both leave (R340): no host access, no VF, no waiting snapshot request, the
queues of the host-owned instances cleared. -/
def Module.pcieCleared (m n : Module) : Prop :=
  n.host.reads = [] ∧ n.rd R.INS_STATUS_NUM_VFS = 0 ∧ n.press.snaps = [] ∧
    ∀ i ∈ m.instances, m.hostOwned i = true → ∀ q ∈ queueCodes, n.hq i q = pcieQueue

theorem Module.pcieCleared_pcieReset {m : Module} (h : SMap.rising m.regs = true) : m.pcieCleared m.pcieReset :=
  ⟨m.reads_pcieReset, (Module.rd_pcieReset_numVfs h).2, m.snaps_pcieReset,
    fun _ known owned _ code => m.hq_pcieReset known owned code⟩

theorem Module.pcieCleared_settle {m n : Module} (h : m.pcieCleared n) : m.pcieCleared n.settle := by
  obtain ⟨reads, vfs, snaps, queues⟩ := h
  exact ⟨reads, (n.rd_settle _).trans vfs, snaps,
    fun i known owned q code => (n.hq_settle i q).trans (queues i known owned q code)⟩

/-- PCIE_RESET leaves what the PF's function-level reset does, and no link (R320). -/
theorem pcieCleared_mPcieReset {m : Module} (h : SMap.rising m.regs = true) :
    m.pcieCleared (mPcieReset m) ∧ (mPcieReset m).rd R.INS_STATUS_LINK_W = 0 := by
  obtain ⟨reads, vfs, snaps, queues⟩ := Module.pcieCleared_pcieReset h
  have rising := (Module.rd_pcieReset_numVfs h).1
  rw [mPcieReset_eq]
  refine ⟨⟨?_, ?_, ?_, fun i known owned q code => ?_⟩, ?_⟩
  · rw [Module.host_exportShown, Module.host_linkDown, reads]
  · rw [(Module.keeps_exportShown _ (by decide)).2, Module.rd_linkDown_numVfs, vfs]
  · rw [Module.press_exportShown, Module.press_linkDown, snaps]
  · rw [← queues i known owned q code]
    refine Module.hq_congr ?_ i q
    rw [Module.host_exportShown, Module.host_linkDown]
  · rw [(Module.keeps_exportShown _ (by decide)).2, Module.rd_linkDown_width rising]

/-- A function-level reset of a VF aborts its snapshot requests (R66). -/
theorem snaps_mVfFunctionLevelReset (m : Module) (fn : Nat) :
    (mVfFunctionLevelReset fn m).press.snaps = m.press.snaps.filter fun x => x.1 != fn := by
  rw [mVfFunctionLevelReset, Module.snaps_abortSnaps, foldl_keeps Module.press fun k i _ => k.press_pcieInst i]
  rfl

/-- A function-level reset of a VF clears the queues of the instances that it owns (R340). -/
theorem hq_mVfFunctionLevelReset (m : Module) {fn i q : Nat} (known : i ∈ m.instances) (owned : m.owns fn i = true)
    (code : q ∈ queueCodes) : (mVfFunctionLevelReset fn m).hq i q = pcieQueue := by
  rw [mVfFunctionLevelReset, Module.hq_congr (congrArg HostSt.queues (Module.host_abortSnaps ..))]
  refine foldl_reaches (p := fun k : Module => k.hq i q = pcieQueue) (List.mem_filter.mpr ⟨known, owned⟩)
    (fun k => ?_) (fun k j h => ?_) m
  · rw [Module.hq_pcieInst, Module.hq_clearQueues _ _ code]
  · rw [Module.hq_pcieInst, Module.hq_clearQueues_keeps h]

/-- Takes a max payload size. -/
def Module.setMps (m : Module) (mps : Nat) : Module := { m with host := { m.host with mps := mps } }

theorem Module.mps_settle (m : Module) : m.settle.host.mps = m.host.mps := rfl
theorem Module.rd_setMps (m : Module) (mps : Nat) (f : Fld) : (m.setMps mps).rd f = m.rd f := rfl

/-- Shows a link and the VFs. -/
def Module.showLink (m : Module) (w rate vfs : Nat) : Module :=
  ((m.wr R.INS_STATUS_LINK_W w).wr R.INS_STATUS_LINK_RATE rate).wr R.INS_STATUS_NUM_VFS vfs

theorem Module.rising_showLink {m : Module} (h : SMap.rising m.regs = true) (w rate vfs : Nat) :
    SMap.rising (m.showLink w rate vfs).regs = true :=
  Module.rising_wr (Module.rising_wr (Module.rising_wr h _ _) _ _) _ _

theorem Module.rd_showLink_width {m : Module} (h : SMap.rising m.regs = true) (w rate vfs : Nat) :
    (m.showLink w rate vfs).rd R.INS_STATUS_LINK_W = w % 2 ^ R.INS_STATUS_LINK_W.width := by
  rw [Module.showLink, Module.rd_wr_other _ _ (by decide), Module.rd_wr_other _ _ (by decide), m.rd_wr_same h]

theorem Module.rd_showLink_numVfs {m : Module} (h : SMap.rising m.regs = true) (w rate vfs : Nat) :
    (m.showLink w rate vfs).rd R.INS_STATUS_NUM_VFS = vfs % 2 ^ R.INS_STATUS_NUM_VFS.width :=
  Module.rd_wr_same _ (Module.rising_wr (Module.rising_wr h _ _) _ _) _ _

theorem mPcieLinkTrained_eq (m : Module) (w rate mps vfs : Nat) : mPcieLinkTrained w rate mps vfs m =
    (((m.showLink w rate vfs).setMps mps).wr R.INS_DMA_CAP_MBPS (dmaCap w rate mps)).exportShown := rfl

/-- Link training shows the link, its capacity and NumVFs (R320). -/
theorem mPcieLinkTrained_shows {m : Module} (h : SMap.rising m.regs = true) (w rate mps vfs : Nat) :
    let n := mPcieLinkTrained w rate mps vfs m
    n.host.mps = mps ∧ n.rd R.INS_STATUS_LINK_W = w % 2 ^ R.INS_STATUS_LINK_W.width ∧
      n.rd R.INS_STATUS_NUM_VFS = vfs % 2 ^ R.INS_STATUS_NUM_VFS.width ∧
      n.rd R.INS_DMA_CAP_MBPS = dmaCap w rate mps % 2 ^ R.INS_DMA_CAP_MBPS.width := by
  have shown : SMap.rising ((m.showLink w rate vfs).setMps mps).regs = true := Module.rising_showLink h w rate vfs
  rw [mPcieLinkTrained_eq]
  refine ⟨congrArg HostSt.mps (Module.host_exportShown _), ?_, ?_, ?_⟩ <;> rw [(Module.keeps_exportShown _ (by decide)).2]
  · rw [Module.rd_wr_other _ _ (by decide), Module.rd_setMps, Module.rd_showLink_width h]
  · rw [Module.rd_wr_other _ _ (by decide), Module.rd_setMps, Module.rd_showLink_numVfs h]
  · rw [Module.rd_wr_same _ shown]

/-- Settles O33, each reset and the training of the link from the lemma about it: the aborted snapshot requests are those of
assumption 81, the rounding of the capacity that of assumption 83, and of the link the block holds what assumption 118 leaves it. -/
theorem pcieResets : Obligations.PcieResets := by
  refine ⟨?_, ?_, ?_⟩
  · intro s wf c hc
    have h := Module.rising_regs_of_wf wf
    simp only [List.mem_cons, List.not_mem_nil, or_false] at hc
    rcases hc with rfl | rfl
    · obtain ⟨cleared, width⟩ := pcieCleared_mPcieReset h
      obtain ⟨reads, vfs, snaps, queues⟩ := Module.pcieCleared_settle cleared
      exact completes_of_upd (f := mPcieReset) rfl ⟨reads, vfs, snaps, fun _ => (Module.rd_settle ..).trans width, queues⟩
    · obtain ⟨reads, vfs, snaps, queues⟩ := Module.pcieCleared_settle (Module.pcieCleared_pcieReset h)
      exact completes_of_upd (f := mPfFunctionLevelReset) rfl ⟨reads, vfs, snaps, nofun, queues⟩
  · intro s fn
    exact completes_of_upd (f := mVfFunctionLevelReset fn) rfl ⟨snaps_mVfFunctionLevelReset s.m fn, fun i known owned q code =>
      (Module.hq_settle ..).trans (hq_mVfFunctionLevelReset s.m known owned code)⟩
  · intro s w rate mps vfs wf
    refine completes_of_upd (f := mPcieLinkTrained w rate mps vfs) rfl ?_
    simp only [Module.rd_settle, Module.mps_settle]
    exact mPcieLinkTrained_shows (Module.rising_regs_of_wf wf) w rate mps vfs

end Sys2Proof.Machine
end

section
/-!
PROOFS. Test mode (R120, R121) and the staging of an image (R122 to R124).
-/

namespace Sys2Proof.Machine
open Sys2Proof.Claims

/-! ### A change of mode (R118, R119) -/

/-- A change of mode changes, beside the mode, registers and the recorder only. -/
theorem Module.events_toMode (m : Module) (md : Mode) : ({ m with mode := md } : Module).ExceptEvents (m.toMode md) := by
  unfold Module.toMode
  refine Module.ExceptEvents.trans ?_ (Module.events_raise' ..)
  by_cases ripen : m.mode = .ripen
  · simp only [ripen, if_true]
    exact ⟨_, _, rfl⟩
  · simp only [ripen, if_false]
    exact .refl _

theorem Module.mode_of_events {m n : Module} (h : m.ExceptEvents n) : n.mode = m.mode := by
  obtain ⟨_, _, rfl⟩ := h
  rfl

theorem Module.testFrom_of_events {m n : Module} (h : m.ExceptEvents n) : n.testFrom = m.testFrom := by
  obtain ⟨_, _, rfl⟩ := h
  rfl

@[simp] theorem Module.mode_toMode (m : Module) (md : Mode) : (m.toMode md).mode = md :=
  Module.mode_of_events (m.events_toMode md)

@[simp] theorem Module.testFrom_toMode (m : Module) (md : Mode) : (m.toMode md).testFrom = m.testFrom :=
  (Module.testFrom_of_events (m.events_toMode md) : _ = ({ m with mode := md } : Module).testFrom)

theorem Module.keeps_setMode {f : Fld} (m : Module) (md : Mode) : m.Keeps f { m with mode := md } := .same rfl

/-- A change of mode keeps every field below the recorder's but the time that RIPEN took. -/
theorem Module.keeps_toMode (m : Module) (md : Mode) {f : Fld} (below : f.addr < 0xb00000) (place : f.lsb < 32)
    (apart : f.key ≠ R.CFG_RIPEN_STAT_ELAPSED_MS.key) : m.Keeps f (m.toMode md) := by
  have shown : m.Keeps f (if m.mode = .ripen then
      m.wr R.CFG_RIPEN_STAT_ELAPSED_MS ((m.mono - m.sys.upAt) / (1000000 * nsUnit)) else m) :=
    .ite (m.keeps_wr _ apart) (.refl f m)
  exact (shown.trans (Module.keeps_setMode _ md)).trans ((Module.from_raise' ..).keeps below place)

/-! ### Test mode (R120, R121) -/

/-- RESULT, written before a change of mode, stands after it. -/
theorem Module.rd_result_toMode (m : Module) (md : Mode) :
    ((m.wr R.CFG_MODE_STAT_RESULT 1).toMode md).rd R.CFG_MODE_STAT_RESULT = 1 :=
  (Module.keeps_toMode _ md (by decide) (by decide) (by decide)).2.trans (m.rd_wr_of_listed (by decide))

/-- ENTER_TEST in ACTIVE or STANDBY, allowed by its switch (R120). -/
theorem mEnterTest_enters {m : Module} (serves : m.mode = .active ∨ m.mode = .standby) (allowed : m.sealOn 1 = true) :
    mEnterTest m = (({ m with testFrom := m.mode } : Module).wr R.CFG_MODE_STAT_RESULT 1).toMode .test := by
  rcases serves with h | h <;> simp [mEnterTest, h, allowed]

/-- LEAVE_TEST in TEST (R121). -/
theorem mLeaveTest_returns {m : Module} (test : m.mode = .test) :
    mLeaveTest m = (m.leaveTest.wr R.CFG_MODE_STAT_RESULT 1).toMode m.testFrom := by
  simp [mLeaveTest, test]

/-! ### The start of staging (R122) -/

/-- Takes up a write of CFG_STAGE_CMD with GO: the target, the instance, and a status of nothing done yet. -/
def Module.stageAsked (m : Module) (target inst : Nat) : Module :=
  [(R.CFG_STAGE_CMD_GO, 1), (R.CFG_STAGE_CMD_TARGET, target), (R.CFG_STAGE_CMD_INST, inst), (R.CFG_STAGE_STAT_STATE, 1),
    (R.CFG_STAGE_STAT_CAUSE, 0), (R.CFG_STAGE_STAT_CHECK, 0), (R.CFG_STAGE_STAT_PROGRESS, 0)].foldl (fun k x => k.wr x.1 x.2) m

/-- Taking up GO leaves every field above the staging registers alone. -/
theorem Module.rd_stageAsked_above (m : Module) (target inst : Nat) {f : Fld} (above : 0x100054 ≤ f.addr) (place : f.lsb < 32) :
    (m.stageAsked target inst).rd f = m.rd f := by
  refine foldl_keeps (Module.rd · f) (fun k x hx => k.rd_wr_other _ ?_) m
  have apart : x.1.addr < 0x100054 ∧ x.1.lsb < 32 := by
    simp only [List.mem_cons, List.not_mem_nil, or_false] at hx
    rcases hx with rfl | rfl | rfl | rfl | rfl | rfl | rfl <;> dsimp only <;> decide
  exact Fld.key_ne place apart.2 (.inl (by omega))

theorem Module.rd_stageAsked (m : Module) (target inst : Nat) :
    (m.stageAsked target inst).rd R.CFG_STAGE_STAT_STATE = 1 ∧ (m.stageAsked target inst).rd R.CFG_STAGE_CMD_GO = 1 := by
  constructor <;>
    simp (disch := decide) only [Module.stageAsked, List.foldl_cons, List.foldl_nil, Module.rd_wr_other, Module.rd_wr_of_listed] <;>
    decide

/-- The registers of an instance stand above those of staging. -/
theorem Module.rd_stageAsked_inst (m : Module) (target inst i : Nat) {f : Fld} (of : f ∈ [R.INS_INST_STAT_STATE i, R.INS_INST_STAT_OWNER i,
    R.INS_INST_STAT_GEN i]) : (m.stageAsked target inst).rd f = m.rd f := by
  have place : f.addr = 0x1010000 + 0x20 * i ∧ f.lsb < 32 := by
    simp only [List.mem_cons, List.not_mem_nil, or_false] at of
    rcases of with rfl | rfl | rfl <;> exact ⟨rfl, Nat.le_of_ble_eq_true rfl⟩
  exact m.rd_stageAsked_above target inst (by omega) place.2

/-- GO from the PF with an instance of its own, while nothing is staged (R122). -/
theorem mStageGo_starts {m : Module} {i : Nat} (allowed : m.sealOn 0 = true) (may : m.mayStage = true) (idle : m.sys.staging = none)
    (small : i < 4096) (admitted : m.instAdmitted i = true) (owned : m.owner i = 0x100) (target : Nat) :
    mStageGo target i m = { m.stageAsked target i with
      sys := { m.sys with staging := some ⟨target % 2, i, m.gen i⟩ } } := by
  have run : m.mode ≠ .reset := by
    rintro inReset
    simp [Module.mayStage, inReset] at may
  have admitted' : (m.stageAsked target i).instAdmitted i = true := by
    rw [Module.instAdmitted, Module.rd_stageAsked_inst _ _ _ i (by simp)]
    exact admitted
  have owned' : (m.stageAsked target i).owner i = 0x100 := (m.rd_stageAsked_inst _ _ i (by simp)).trans owned
  have gen : (m.stageAsked target i).gen i = m.gen i := m.rd_stageAsked_inst _ _ i (by simp)
  have starts : mStageGo target i m = if !(m.stageAsked target i).instAdmitted (i % 4096) ∨ (m.stageAsked target i).owner (i % 4096) ≠ 0x100
      then (m.stageAsked target i).stageFail 4 0 else { m.stageAsked target i with
        sys := { m.sys with staging := some ⟨target % 2, i % 4096, (m.stageAsked target i).gen (i % 4096)⟩ } } := by
    simp only [mStageGo, Module.sealed, run, allowed, may, idle, ne_eq, not_true_eq_false, or_self, Bool.not_true,
      Option.isSome_none, Bool.false_eq_true, if_true, if_false]
    rfl
  rw [starts, Nat.mod_eq_of_lt small, gen]
  simp [admitted', owned']

/-! ### The end of staging (R123, R124) -/

theorem Module.flash_setFlash_same (m : Module) (copy : Nat) (b : Bytes) : (m.setFlash copy b).flash copy = b := by
  unfold Module.setFlash Module.flash
  split <;> rfl

theorem Module.flash_setFlash_other (m : Module) {copy : Nat} (two : copy < 2) (b : Bytes) :
    (m.setFlash copy b).flash (1 - copy) = m.flash (1 - copy) := by
  obtain rfl | rfl : copy = 0 ∨ copy = 1 := by omega
  all_goals rfl

theorem Module.ownerSlot_setFlash (m : Module) (copy : Nat) (b : Bytes) (n : Nat) :
    (m.setFlash copy b).ownerSlot n = m.ownerSlot n := by
  unfold Module.setFlash
  split <;> rfl

/-- The checks of a copy's bytes depend on the owner slots, not on what flash holds. -/
theorem Module.copyCheck_setFlash (m : Module) (copy : Nat) (b x : Bytes) : (m.setFlash copy b).copyCheck x = m.copyCheck x := by
  have owner : (m.setFlash copy b).ownerOk x = m.ownerOk x := by
    simp only [Module.ownerOk, Module.owned, Module.ownerSlot_setFlash]
  rw [Module.copyCheck, Module.headerCheck, owner]
  rfl

theorem Module.regs_setFlash (m : Module) (copy : Nat) (b : Bytes) : (m.setFlash copy b).regs = m.regs := by
  unfold Module.setFlash
  split <;> rfl

theorem Module.flash_congr {m n : Module} (persist : n.persist = m.persist) (copy : Nat) : n.flash copy = m.flash copy := by
  rw [Module.flash, Module.flash, persist]

theorem Module.flash_settle (m : Module) (copy : Nat) : m.settle.flash copy = m.flash copy := Module.flash_congr m.settle_persist copy

/-- Shows a staging that has ended with a good image of a SERIAL in its copy. -/
def Module.stageEnded (m : Module) (copy serial : Nat) : Module :=
  ((((({ m with sys := { m.sys with staging := none } } : Module).wr R.CFG_STAGE_CMD_GO 0).showCopy copy 0 serial).wr
    R.CFG_STAGE_STAT_STATE 5).wr R.CFG_STAGE_STAT_PROGRESS 100).flag R.CFG_STAGE_STAT_DONE_FLG

/-- The place of a field that shows the header check of a copy. -/
abbrev Fld.showsCopy (g : Fld) : Prop := (g.addr = 0x100000 ∨ 0x100060 ≤ g.addr) ∧ g.lsb < 32

/-- What is shown of a copy stands in CFG_STATUS and in the SERIALs of the copies. -/
theorem Module.keeps_showCopy (m : Module) (copy check serial : Nat) {f : Fld} (above : 0x100000 < f.addr) (below : f.addr < 0x100060)
    (place : f.lsb < 32) : m.Keeps f (m.showCopy copy check serial) := by
  have shown (k : Module) {g : Fld} (v : Nat) (shows : g.showsCopy) : k.Keeps f (k.wr g v) :=
    k.keeps_wr v (Fld.key_ne place shows.2 (.inl (by have := shows.1; omega)))
  have serials : (R.CFG_COPY_SERIAL_LO_SERIAL copy).showsCopy ∧ (R.CFG_COPY_SERIAL_HI_SERIAL copy).showsCopy := by
    simp only [Fld.showsCopy, R.CFG_COPY_SERIAL_LO_SERIAL, R.CFG_COPY_SERIAL_HI_SERIAL]
    omega
  have a : R.CFG_STATUS_A_HDR.showsCopy ∧ R.CFG_STATUS_A_CHECK.showsCopy := by decide
  have b : R.CFG_STATUS_B_HDR.showsCopy ∧ R.CFG_STATUS_B_CHECK.showsCopy := by decide
  exact (Module.Keeps.ite ((shown m _ a.1).trans (shown _ _ a.2)) ((shown m _ b.1).trans (shown _ _ b.2))).trans
    ((shown _ _ serials.1).trans (shown _ _ serials.2))

@[simp] theorem Module.besideRegs_wr (m : Module) (f : Fld) (v : Nat) : (m.wr f v).besideRegs = m.besideRegs := rfl

theorem Module.besideRegs_showCopy (m : Module) (copy check serial : Nat) :
    (m.showCopy copy check serial).besideRegs = m.besideRegs := by
  simp only [Module.showCopy, Module.wr64, Module.besideRegs_wr, apply_ite Module.besideRegs, ite_self]

theorem Module.staging_stageEnded (m : Module) (copy serial : Nat) : (m.stageEnded copy serial).sys.staging = none := by
  exact congrArg (·.sys.staging) (Module.besideRegs_showCopy _ copy 0 serial)

theorem Module.flash_stageEnded (m : Module) (target serial copy : Nat) : (m.stageEnded target serial).flash copy = m.flash copy :=
  Module.flash_congr (congrArg (·.persist) (Module.besideRegs_showCopy _ target 0 serial)) copy

/-- The status of a staging that has ended well. -/
theorem Module.rd_stageEnded {m : Module} (h : SMap.rising m.regs = true) (copy serial : Nat) :
    (m.stageEnded copy serial).rd R.CFG_STAGE_STAT_STATE = 5 ∧ (m.stageEnded copy serial).rd R.CFG_STAGE_STAT_DONE_FLG = 1 ∧
      (m.stageEnded copy serial).rd R.CFG_STAGE_CMD_GO = 0 := by
  unfold Module.stageEnded Module.flag
  refine ⟨?_, Module.rd_wr_of_listed _ (by decide), ?_⟩
  · simp (disch := decide) only [Module.rd_wr_other, Module.rd_wr_of_listed]
    rfl
  · simp (disch := decide) only [Module.rd_wr_other]
    exact (Module.keeps_showCopy _ copy 0 serial (by decide) (by decide) (by decide)).2.trans (Module.rd_wr_same _ h _ _)

/-- STAGE_DONE of a good image, with the other copy good and flash programmed (R123, R124). -/
theorem mStageDone_ends {m : Module} {g : Staging} {b : Bytes} (staging : m.sys.staging = some g)
    (read : m.reachable g.inst (m.rd64 R.CFG_STAGE_ADDR_LO_ADDR R.CFG_STAGE_ADDR_HI_ADDR) (m.rd R.CFG_STAGE_LEN_LEN) false = true)
    (header : m.headerCheck b = 0) (len : m.rd R.CFG_STAGE_LEN_LEN = leAt b 8 4) (other : m.copyCheck (m.flash (1 - g.target)) = none)
    (good : m.copyCheck (b.take (leAt b 8 4)) = none) (left : Bytes) :
    mStageDone (some b) true left m = (m.setFlash g.target (b.take (leAt b 8 4))).stageEnded g.target (leAt b 16 8) := by
  rw [len] at read
  have programmed : (m.setFlash g.target (b.take (leAt b 8 4))).copyCheck
      ((m.setFlash g.target (b.take (leAt b 8 4))).flash g.target) = none := by
    rw [Module.flash_setFlash_same, Module.copyCheck_setFlash, good]
  simp only [mStageDone, staging, len, read, header, other, programmed, Bool.not_true, Bool.false_eq_true, ne_eq, not_true_eq_false,
    if_false]
  rfl

/-- Settles O28, each command from the lemma about it: host memory is read and the other copy checked at the end of staging
(assumption 103), and the host's bytes come as the operand of assumption 8. -/
theorem testAndStaging : Obligations.TestAndStaging := by
  refine ⟨?_, ?_, ?_, ?_⟩
  · intro s serves allowed _
    refine completes_of_upd (f := mEnterTest) rfl ?_
    rw [mEnterTest_enters serves allowed, Module.rd_settle, Module.rd_result_toMode, Module.settle_mode, Module.settle_testFrom,
      Module.mode_toMode, Module.testFrom_toMode]
    exact ⟨rfl, rfl, rfl⟩
  · intro s test _
    refine completes_of_upd (f := mLeaveTest) rfl ?_
    rw [mLeaveTest_returns test, Module.rd_settle, Module.rd_result_toMode, Module.settle_mode, Module.mode_toMode]
    exact ⟨rfl, rfl⟩
  · intro s target i allowed may idle small admitted owned _
    refine completes_of_upd (f := mStageGo target i) rfl ?_
    rw [mStageGo_starts allowed may idle small admitted owned, Module.rd_settle, Module.rd_settle, Module.settle_sys]
    exact ⟨rfl, s.m.rd_stageAsked target i⟩
  · intro s g b left staging two read header len other good wf
    refine completes_of_upd (f := mStageDone (some b) true left) rfl ?_
    rw [mStageDone_ends staging read header len other good, Module.rd_settle, Module.rd_settle, Module.rd_settle,
      Module.settle_sys, Module.staging_stageEnded, Module.flash_settle, Module.flash_settle, Module.flash_stageEnded,
      Module.flash_stageEnded, Module.flash_setFlash_same, Module.flash_setFlash_other _ two]
    refine ⟨rfl, rfl, rfl, Module.rd_stageEnded ?_ _ _⟩
    rw [Module.regs_setFlash]
    exact Module.rising_regs_of_wf wf

end Sys2Proof.Machine
end

section
/-!
PROOFS. The loader's reading of an image keeps the mode (R102 to R106, R109, R110).
-/

namespace Sys2Proof.Machine
open Sys2Proof.Claims

/-! ### What keeps the mode, step by step -/

/-- Every run of a part of the loader leaves the module in its mode. -/
def LdM.KeepsMode {α : Type} (x : LdM α) : Prop := ∀ s : Ld, (x.run s).2.m.mode = s.m.mode

theorem LdM.KeepsMode.bind {α β : Type} {x : LdM α} {f : α → LdM β} (hx : LdM.KeepsMode x) (hf : ∀ a, LdM.KeepsMode (f a)) :
    LdM.KeepsMode (x >>= f) := fun s => (hf (x.run s).1 (x.run s).2).trans (hx s)

theorem LdM.KeepsMode.ite {α : Type} {c : Prop} [Decidable c] {x y : LdM α} (hx : LdM.KeepsMode x) (hy : LdM.KeepsMode y) :
    LdM.KeepsMode (if c then x else y) := by
  split <;> assumption

theorem LdM.KeepsMode.forM {α : Type} {l : List α} {f : α → LdM PUnit} (h : ∀ a, LdM.KeepsMode (f a)) :
    LdM.KeepsMode (l.forM f) := by
  induction l with
  | nil => exact fun _ => rfl
  | cons a l ih => exact .bind (h a) fun _ => ih

theorem LdM.KeepsMode.mapM {α β : Type} {l : List α} {f : α → LdM β} (h : ∀ a, LdM.KeepsMode (f a)) :
    LdM.KeepsMode (l.mapM f) := by
  induction l with
  | nil => exact fun _ => rfl
  | cons a l ih =>
    rw [List.mapM_cons]
    exact .bind (h a) fun _ => .bind ih fun _ _ => rfl

theorem LdM.KeepsMode.foldlM {α β : Type} {f : β → α → LdM β} (h : ∀ b a, (f b a).KeepsMode) (l : List α) (b : β) :
    LdM.KeepsMode (l.foldlM f b) := by
  induction l generalizing b with
  | nil => exact fun _ => rfl
  | cons a l ih => exact .bind (h b a) fun _ => ih _

@[simp] theorem LdM.keepsMode_map {α β : Type} {f : α → β} {x : LdM α} : (f <$> x).KeepsMode ↔ x.KeepsMode := Iff.rfl

theorem LdM.KeepsMode.forIn {α β : Type} {f : α → β → LdM (ForInStep β)} (h : ∀ a b, (f a b).KeepsMode) (l : List α) (b : β) :
    LdM.KeepsMode (forIn l b f) := by
  induction l generalizing b with
  | nil => exact fun _ => rfl
  | cons a l ih =>
    rw [List.forIn_cons]
    refine .bind (h a b) fun r => ?_
    cases r with
    | done b => exact fun _ => rfl
    | yield b => exact ih b

/-! ### The loader's own steps (R106, R110) -/

@[simp] theorem LdM.keepsMode_pure {α : Type} (a : α) : LdM.KeepsMode (pure a : LdM α) := fun _ => rfl
@[simp] theorem LdM.keepsMode_get : LdM.KeepsMode (get : LdM Ld) := fun _ => rfl

@[simp] theorem Ld.m_note (s : Ld) (a b c d e : Nat) : (s.note a b c d e).m = s.m := by
  unfold Ld.note; split <;> rfl

theorem Ld.mode_note (s : Ld) (field offered applied reason bit : Nat) : (s.note field offered applied reason bit).m.mode = s.m.mode :=
  congrArg Module.mode (s.m_note ..)

@[simp] theorem keepsMode_ldNote (a b c d e : Nat) : LdM.KeepsMode (ldNote a b c d e) := fun s => congrArg Module.mode (s.m_note _ _ _ _ _)
@[simp] theorem keepsMode_ldReg (f : Fld) (v : Nat) : LdM.KeepsMode (ldReg f v) := fun _ => rfl
@[simp] theorem keepsMode_ldFlag (f : Fld) (v : Bool) : LdM.KeepsMode (ldFlag f v) := fun _ => rfl
@[simp] theorem keepsMode_ldImg (f : Img → Img) : LdM.KeepsMode (ldImg f) := fun _ => rfl
@[simp] theorem keepsMode_ldMod (f : Module → Module) : LdM.KeepsMode (ldMod f) ↔ ∀ s : Ld, (f s.m).mode = s.m.mode := Iff.rfl

@[simp] theorem keepsMode_ldField (off lsb w : Nat) (d : Int) (r : Rng) (sgn : Bool) : LdM.KeepsMode (ldField off lsb w d r sgn) := by
  unfold ldField
  refine .bind (by simp) fun s => ?_
  cases s.body with
  | none => exact LdM.keepsMode_pure _
  | some b => exact .ite (fun _ => rfl) (.bind (by simp) fun _ _ => rfl)

@[simp] theorem keepsMode_ldNat (off n d : Nat) (r : Rng) : (ldNat off n d r).KeepsMode := .bind (by simp) fun _ => by simp
@[simp] theorem keepsMode_ldNum (off n lo hi d : Nat) : (ldNum off n lo hi d).KeepsMode := keepsMode_ldNat _ _ _ _
@[simp] theorem keepsMode_ldEnum (off n d : Nat) : (ldEnum off n d).KeepsMode := keepsMode_ldNat _ _ _ _
@[simp] theorem keepsMode_ldBits (off lsb w d : Nat) (r : Rng) : (ldBits off lsb w d r).KeepsMode := .bind (by simp) fun _ => by simp
@[simp] theorem keepsMode_ldBit (off lsb : Nat) (d : Bool) : (ldBit off lsb d).KeepsMode := .bind (by simp) fun _ => by simp
@[simp] theorem keepsMode_ldBool (off : Nat) (d : Bool) : (ldBool off d).KeepsMode := .bind (by simp) fun _ => by simp
@[simp] theorem keepsMode_ldBytes (off n : Nat) : (ldBytes off n).KeepsMode := .bind (by simp) fun s => by cases s.body <;> simp
@[simp] theorem keepsMode_ldMac (off d : Nat) : (ldMac off d).KeepsMode := .bind (by simp) fun s => by cases s.body <;> simp
@[simp] theorem keepsMode_ldCount (off n hi : Nat) : (ldCount off n hi).KeepsMode :=
  .bind (by simp) fun _ => .bind (by simp) fun s => by cases s.body <;> simp
@[simp] theorem keepsMode_ldLen (off n hi : Nat) : (ldLen off n hi).KeepsMode :=
  .bind (by simp) fun _ => .bind (by simp) fun s => by cases s.body <;> simp
theorem LdM.KeepsMode.ldRecs {α : Type} {f : Nat → Nat → LdM α} (h : ∀ i o, (f i o).KeepsMode) (n base size : Nat) :
    (ldRecs n base size f).KeepsMode := .mapM fun _ => h _ _

/-! ### The sections (R102 to R105, R109)

A section is taken apart along its own binds, branches and loops: the head of what is left picks the rule, and what remains are the
loader's own steps. -/

@[simp] theorem keepsMode_applyModule : applyModule.KeepsMode := by
  unfold applyModule
  repeat' with_reducible refine .bind ?_ fun _ => ?_
  all_goals simp

@[simp] theorem keepsMode_applyTime : applyTime.KeepsMode := by
  unfold applyTime
  repeat' with_reducible first | refine .bind ?_ fun _ => ?_ | refine .forM fun _ => ?_
  all_goals simp

@[simp] theorem keepsMode_applyPorts : applyPorts.KeepsMode := by
  unfold applyPorts applyPort
  repeat' with_reducible first | refine .bind ?_ fun _ => ?_ | refine .ite ?_ ?_ | refine .forM fun _ => ?_
  all_goals simp

@[simp] theorem keepsMode_applySwitch : applySwitch.KeepsMode := by
  unfold applySwitch applySwPort applyClass
  repeat' with_reducible first | refine .bind ?_ fun _ => ?_ | refine .ite ?_ ?_ | refine .forM fun _ => ?_ |
    refine .foldlM (fun _ _ => ?_) _ _
  all_goals simp

@[simp] theorem keepsMode_applyInstances : applyInstances.KeepsMode := by
  unfold applyInstances applyInst
  repeat' with_reducible first | refine .bind ?_ fun _ => ?_ | refine .ldRecs (fun _ _ => ?_) _ _ _
  all_goals simp

@[simp] theorem keepsMode_applyVat : applyVat.KeepsMode := by
  unfold applyVat applyRate applyStream applyChan ldFloat
  repeat' with_reducible first | refine .bind ?_ fun _ => ?_ | refine .ite ?_ ?_ | refine .ldRecs (fun _ _ => ?_) _ _ _
  all_goals simp

@[simp] theorem keepsMode_applyCode : applyCode.KeepsMode := by
  unfold applyCode
  repeat' with_reducible first | refine .bind ?_ fun _ => ?_ | refine .ldRecs (fun _ _ => ?_) _ _ _
  all_goals simp

@[simp] theorem keepsMode_applyTasks : applyTasks.KeepsMode := by
  unfold applyTasks applyTask applyOperand applyMap applyVar applyRegion
  repeat' with_reducible first | refine .bind ?_ fun _ => ?_ | refine .ite ?_ ?_ | refine .ldRecs (fun _ _ => ?_) _ _ _ |
    refine .mapM fun _ => ?_
  all_goals simp

@[simp] theorem keepsMode_applyGoose : applyGoose.KeepsMode := by
  unfold applyGoose applyPub applyGsub
  repeat' with_reducible first | refine .bind ?_ fun _ => ?_ | refine .ldRecs (fun _ _ => ?_) _ _ _
  all_goals simp

@[simp] theorem keepsMode_applyLst : applyLst.KeepsMode := by
  unfold applyLst applyConn
  repeat' with_reducible first | refine .bind ?_ fun _ => ?_ | refine .ldRecs (fun _ _ => ?_) _ _ _
  all_goals simp

@[simp] theorem keepsMode_applyPair : applyPair.KeepsMode := by
  unfold applyPair
  repeat' with_reducible first | refine .bind ?_ fun _ => ?_ | refine .mapM fun _ => ?_
  all_goals simp

@[simp] theorem keepsMode_applyRecord : applyRecord.KeepsMode := by
  unfold applyRecord applySess applyAchan applyCond applyOp ldHyst ldFloat
  repeat' with_reducible first | refine .bind ?_ fun _ => ?_ | refine .ite ?_ ?_ | refine .ldRecs (fun _ _ => ?_) _ _ _
  all_goals simp

@[simp] theorem keepsMode_applyEvents : applyEvents.KeepsMode := by
  unfold applyEvents applyList applyRule
  repeat' with_reducible first | refine .bind ?_ fun _ => ?_ | refine .ldRecs (fun _ _ => ?_) _ _ _ | refine .mapM fun _ => ?_
  all_goals simp

@[simp] theorem keepsMode_applyKeys : applyKeys.KeepsMode := by
  unfold applyKeys applyKeyPort applyKeySlot
  repeat' with_reducible first | refine .bind ?_ fun _ => ?_ | refine .ldRecs (fun _ _ => ?_) _ _ _
  all_goals simp

@[simp] theorem keepsMode_applyMemerr : applyMemerr.KeepsMode := by
  unfold applyMemerr
  repeat' with_reducible refine .bind ?_ fun _ => ?_
  all_goals simp

/-- A record of REGINIT is a case of the report, or sets its fields one by one (R109). -/
@[simp] theorem keepsMode_applyRegRecord (b : Bytes) (o : Nat) : (applyRegRecord b o).KeepsMode := by
  unfold applyRegRecord
  refine .ite (by simp) (.bind (.forIn (fun f _ => ?_) _ _) fun _ => by simp)
  exact .ite (.bind (by simp) fun _ => .bind (by simp) fun _ => by simp) (.bind (by simp) fun _ => by simp)

@[simp] theorem keepsMode_applyReginit : applyReginit.KeepsMode := by
  refine .bind (by simp) fun s => ?_
  cases s.body with
  | none => exact LdM.keepsMode_pure _
  | some b => exact .forM fun _ => by simp

@[simp] theorem keepsMode_applyFilter : applyFilter.KeepsMode := by
  have chains (n base : Nat) : (ldRecs n base 32 applyChain).KeepsMode := by
    unfold applyChain applyStage ldTaps
    repeat' with_reducible first | refine .bind ?_ fun _ => ?_ | refine .ldRecs (fun _ _ => ?_) _ _ _ | refine .mapM fun _ => ?_
    all_goals simp
  have sets (n base : Nat) : (ldRecs n base 16 applySet).KeepsMode := by
    unfold applySet
    repeat' with_reducible first | refine .bind ?_ fun _ => ?_ | refine .ldRecs (fun _ _ => ?_) _ _ _
    all_goals simp
  unfold applyFilter
  repeat' with_reducible refine .bind ?_ fun _ => ?_
  case refine_2 s =>
    cases s.body <;>
    repeat' with_reducible refine .bind ?_ fun _ => ?_
    all_goals simp [chains]
  all_goals simp [sets]

/-- Every section keeps the mode: it only reads fields, reports cases and sets what the module holds beside the mode. -/
theorem keepsMode_applySection (typ : Nat) : (applySection typ).KeepsMode := by
  unfold applySection
  split <;> simp

theorem Ld.mode_section (s : Ld) (b : Bytes) (typ : Nat) : (s.section b typ).m.mode = s.m.mode := by
  unfold Ld.section
  split
  · exact keepsMode_applySection typ _
  · next e _ =>
    by_cases why : (sectionFault e (slice b e.offset e.length)).1 = 0
    · simp only [why, if_true]
      exact keepsMode_applySection typ _
    · simp only [why, if_false]
      refine (keepsMode_applySection typ _).trans ?_
      simp only [Ld.whole]
      split <;> simp

end Sys2Proof.Machine
end

section
/-!
PROOFS. The link step, what it sets up, and LOAD as a whole keep the mode (R96, R101, R107).
-/

namespace Sys2Proof.Machine
open Sys2Proof.Claims

/-! ### The link step (R107) -/

/-- A fold keeps what each of its steps keeps, whatever it runs over. -/
theorem foldl_fixed_of {σ α β : Type} (p : σ → β) {f : σ → α → σ} (h : ∀ s a, p (f s a) = p s) (l : List α) (s : σ) :
    p (l.foldl f s) = p s :=
  List.foldlRecOn l f (motive := fun t => p t = p s) rfl fun t ht a _ => (h t a).trans ht

/-- The mode of the module that is being linked. -/
def Lk.mode (s : Lk) : Mode := s.ld.m.mode

@[simp] theorem Lk.mode_kill (s : Lk) (k : ObjKind) (i typ off reason : Nat) : (s.kill k i typ off reason).mode = s.mode :=
  s.ld.mode_note ..

theorem Lk.mode_judge {α β : Type} (s : Lk) (k : ObjKind) (typ base size : Nat) (l : List α) (acc : β)
    (why : Lk → β → Nat → α → Nat × β) : (s.judge k typ base size l acc why).1.mode = s.mode := by
  refine foldl_fixed_of (fun x : Lk × β => x.1.mode) (fun x a => ?_) l.zipIdx (s, acc)
  by_cases stands : x.1.alive k a.2
  · by_cases sound : (why x.1 x.2 a.2 a.1).1 = 0 <;> simp [stands, sound]
  · simp [stands]

@[simp] theorem Lk.mode_judge' {α : Type} (s : Lk) (k : ObjKind) (typ base size : Nat) (l : List α) (why : Lk → Nat → α → Nat) :
    (s.judge' k typ base size l why).mode = s.mode := s.mode_judge ..

theorem Lk.mode_forwardEp (s : Lk) (dst vid : Nat) : (s.forwardEp dst vid).1.mode = s.mode := by
  unfold Lk.forwardEp
  dsimp only
  split <;> rfl

@[simp] theorem Lk.mode_linkInsts (s : Lk) : s.linkInsts.mode = s.mode := by
  unfold Lk.linkInsts
  refine (foldl_fixed_of (fun x : Lk × InstUse => x.1.mode) (fun x a => ?_) _ _).trans (Lk.mode_judge' ..)
  dsimp only
  split <;> simp

@[simp] theorem Lk.mode_linkVat (s : Lk) : s.linkVat.mode = s.mode := by
  unfold Lk.linkVat
  refine (Lk.mode_judge ..).trans ((foldl_fixed_of Lk.mode (fun x a => ?_) _ _).trans (Lk.mode_judge' ..))
  dsimp only
  split
  · simp
  · have fwd := x.mode_forwardEp a.1.dst a.1.vid
    split <;> simp_all

theorem Lk.mode_linkChain (s : Lk) (u : FltUse) (c : Nat) (ch : ChanR) : (s.linkChain u c ch).1.mode = s.mode := by
  unfold Lk.linkChain
  split
  · simp only [apply_ite Lk.mode, Lk.mode_kill, ite_self]
  · simp only [apply_ite Prod.fst, apply_ite Lk.mode, Lk.mode_kill, ite_self]

@[simp] theorem Lk.mode_linkFilter (s : Lk) : s.linkFilter.mode = s.mode := by
  unfold Lk.linkFilter
  refine (foldl_fixed_of (fun x : Lk × FltUse => x.1.mode) (fun x a => x.1.mode_linkChain ..) _ _).trans ((Lk.mode_judge' ..).trans
    (foldl_fixed_of Lk.mode (fun x a => ?_) _ _))
  simp only [apply_ite Lk.mode, Lk.mode_kill, ite_self]

@[simp] theorem Lk.mode_linkCode (s : Lk) : s.linkCode.mode = s.mode := Lk.mode_judge' ..

@[simp] theorem Lk.mode_linkTasks (s : Lk) : s.linkTasks.mode = s.mode := by
  simp [Lk.linkTasks, Lk.mode_judge]

@[simp] theorem Lk.mode_linkGoose (s : Lk) : s.linkGoose.mode = s.mode := by
  unfold Lk.linkGoose
  refine (foldl_fixed_of Lk.mode (fun x a => ?_) _ _).trans (Lk.mode_judge' ..)
  dsimp only
  split
  · simp
  · have fwd := x.mode_forwardEp a.1.dst a.1.vid
    split <;> simp_all

@[simp] theorem Lk.mode_linkLst (s : Lk) : s.linkLst.mode = s.mode := by
  unfold Lk.linkLst
  refine foldl_fixed_of Lk.mode (fun x a => ?_) _ _
  dsimp only
  split
  · simp
  · split
    · rfl
    · have fwd := x.mode_forwardEp a.1.dst a.1.vid
      split <;> simp_all

@[simp] theorem Lk.mode_linkPair (s : Lk) : s.linkPair.mode = s.mode := by
  unfold Lk.linkPair
  dsimp only
  split
  · rfl
  · split
    · exact s.ld.mode_note ..
    · split
      · exact s.mode_forwardEp ..
      · rfl

@[simp] theorem Lk.mode_linkConds (s : Lk) (x : SessR) : (s.linkConds x).mode = s.mode := by
  unfold Lk.linkConds
  refine (foldl_fixed_of Lk.mode (fun x a => ?_) _ _).trans (foldl_fixed_of Lk.mode (fun x a => ?_) _ _)
  · dsimp only
    split
    · exact x.ld.mode_note ..
    · split
      · exact x.ld.mode_note ..
      · rfl
  · dsimp only
    split
    · exact x.ld.mode_note ..
    · rfl

@[simp] theorem Lk.mode_linkRecord (s : Lk) : s.linkRecord.mode = s.mode := by
  unfold Lk.linkRecord
  refine foldl_fixed_of (fun x : Lk × AcqUse => x.1.mode) (fun x a => ?_) _ _
  dsimp only
  split
  · rfl
  · generalize whyNot _ _ _ = why
    by_cases sound : why = 0 <;> simp [sound]

@[simp] theorem Lk.mode_linkEvents (s : Lk) : s.linkEvents.mode = s.mode := by
  unfold Lk.linkEvents
  refine (Lk.mode_judge' ..).trans (foldl_fixed_of Lk.mode (fun x a => foldl_fixed_of Lk.mode (fun y b => ?_) _ _) _ _)
  dsimp only
  split
  · rfl
  · exact y.ld.mode_note ..

@[simp] theorem Lk.mode_linkKeys (s : Lk) : s.linkKeys.mode = s.mode := by
  unfold Lk.linkKeys
  refine (foldl_fixed_of Lk.mode (fun x a => ?_) _ _).trans (foldl_fixed_of Lk.mode (fun x a => ?_) _ _)
  · dsimp only
    split <;> simp
  · dsimp only
    split
    · rfl
    · exact x.ld.mode_note ..

@[simp] theorem Lk.mode_sweep (s : Lk) : s.sweep.mode = s.mode := by simp [Lk.sweep]

@[simp] theorem Lk.mode_close (n : Nat) (s : Lk) : (Lk.close n s).mode = s.mode := by
  induction n generalizing s with
  | zero => rfl
  | succ n ih =>
    rw [Lk.close]
    split
    · rfl
    · rw [ih, Lk.mode_sweep]

@[simp] theorem Lk.mode_run (s : Lk) : s.run.mode = s.mode := by simp [Lk.run]

@[simp] theorem Lk.mode_linkGroups (s : Lk) : s.linkGroups.mode = s.mode := by
  unfold Lk.linkGroups
  refine foldl_fixed_of (fun x : Lk × Nat × Bool => x.1.mode) (fun x a => ?_) _ _
  dsimp only
  split
  · rfl
  · split
    · rfl
    · exact x.1.ld.mode_note ..

/-! ### What the linked objects set up -/

-- Proved through what a write leaves alone and not by `rfl`, so that a long chain of writes is checked write by write.
theorem Module.mode_wr (m : Module) (f : Fld) (v : Nat) : (m.wr f v).mode = m.mode := Module.mode_of_events (m.events_wr f v)
theorem Module.mode_flag (m : Module) (f : Fld) : (m.flag f).mode = m.mode := m.mode_wr f 1
theorem Module.mode_wr64 (m : Module) (lo hi : Fld) (v : Nat) : (m.wr64 lo hi v).mode = m.mode :=
  (Module.mode_wr _ _ _).trans (m.mode_wr _ _)

/-- A fold over what has been admitted keeps the mode where each of its steps does. -/
@[simp] theorem Module.mode_foldl {α : Type} {f : Module → α → Module} (h : ∀ (m : Module) (a : α), (f m a).mode = m.mode)
    (m : Module) (l : List α) : (l.foldl f m).mode = m.mode := foldl_keeps Module.mode (fun m a _ => h m a) m

@[simp] theorem Module.mode_commitInst (m : Module) (x : InstR) : (m.commitInst x).mode = m.mode := by
  simp only [Module.commitInst, Module.mode_wr, Module.mode_flag]

@[simp] theorem Module.mode_commitInsts (m : Module) (l : List (Nat × InstR)) : (m.commitInsts l).mode = m.mode := by
  simp only [Module.commitInsts, Module.mode_wr, Module.mode_foldl, Module.mode_commitInst, implies_true]

@[simp] theorem Module.mode_commitStream (m : Module) (s : Nat) (x : StreamR) (depth : Nat) : (m.commitStream s x depth).mode = m.mode := by
  simp only [Module.commitStream, Module.mode_wr]

@[simp] theorem Lk.mode_commitVat (s : Lk) (m : Module) : (s.commitVat m).mode = m.mode := by
  simp only [Lk.commitVat, Lk.commitRates, Module.mode_wr, Module.mode_foldl, Module.mode_commitStream, implies_true]

@[simp] theorem Lk.mode_commitChan (s : Lk) (m : Module) (c : Nat) (x : ChanR) : (s.commitChan m c x).mode = m.mode := by
  unfold Lk.commitChan
  split <;> simp only [Module.mode_wr]

@[simp] theorem Lk.mode_commitFilter (s : Lk) (m : Module) : (s.commitFilter m).mode = m.mode := by
  simp only [Lk.commitFilter, Module.mode_wr, Module.mode_foldl, Lk.mode_commitChan, apply_ite Module.mode, ite_self, implies_true]

@[simp] theorem Module.mode_commitConn (m : Module) (c : Nat) (x : ConnR) : (m.commitConn c x).mode = m.mode := by
  simp only [Module.commitConn, Module.mode_wr, Module.mode_wr64]

theorem Lk.mode_commit (s : Lk) : s.commit.mode = s.mode := by
  simp only [Lk.commit, Lk.commitKeys, Lk.commitEvents, Lk.commitRecord, Lk.commitSess, Lk.commitLst, Lk.commitTasks, Module.mode_wr,
    Module.mode_foldl, Module.mode_commitConn, Lk.mode_commitFilter, Lk.mode_commitVat, Module.mode_commitInsts, implies_true]
  rfl

theorem Module.mode_applyMinimal (m : Module) : m.applyMinimal.mode = m.mode := by
  simp only [Module.applyMinimal, Module.mode_wr, Module.mode_flag, Module.mode_foldl, implies_true]

/-! ### LOAD -/

/-- The report of an unlisted TYPE keeps the mode, and so does every section. -/
theorem Ld.mode_sections (s : Ld) (b : Bytes) : (s.sections b).m.mode = s.m.mode := by
  have unknown (l : List SectionEntry) (t : Ld) : (l.foldl (fun t e => t.whole e.typ e.typ 0 8) t).m.mode = t.m.mode :=
    foldl_fixed_of (fun t : Ld => t.m.mode) (fun t _ => t.mode_note ..) l t
  unfold Ld.sections
  rw [unknown, foldl_fixed_of (fun t : Ld => t.m.mode) (fun t i => t.mode_section b (i + 1)), unknown]

theorem Module.mode_showCopy (m : Module) (copy check serial : Nat) : (m.showCopy copy check serial).mode = m.mode := by
  simp only [Module.showCopy, Module.mode_wr64, apply_ite Module.mode, Module.mode_wr, ite_self]

theorem Ld.mode_header (s : Ld) (copy : Nat) : (s.header copy).1.m.mode = s.m.mode := by
  unfold Ld.header
  refine (Module.mode_showCopy ..).trans ?_
  simp only [apply_ite Ld.m, apply_ite Module.mode, Ld.mode_note, Module.mode_flag, ite_self]

theorem Ld.mode_image (s : Ld) (copy : Nat) : (s.image copy).m.mode = s.m.mode := by
  unfold Ld.image
  refine ((Module.mode_wr64 _ _ _ _).trans (Module.mode_wr _ _ _)).trans ?_
  rw [Lk.mode_commit, Lk.mode_linkGroups, Lk.mode_run]
  exact s.mode_sections _

/-- LOAD leaves the mode as it is: what follows from the copies is for its end (R96, R101). -/
theorem Ld.mode_load (s : Ld) : s.load.m.mode = s.m.mode := by
  have first := s.mode_header 0
  unfold Ld.load
  split
  next a h => rw [Ld.mode_image, ← first, h]
  next a h =>
    have second := a.mode_header 1
    rw [h] at first
    split
    next c k => rw [Ld.mode_image, ← first, ← second, k]
    next c k =>
      rw [k] at second
      exact (Module.mode_applyMinimal _).trans (second.trans first)

/-- The report and its copy in the Cave keep the mode. -/
theorem Module.mode_loadEnd (m : Module) (entries : List Bytes) (lost : Nat) : (m.loadEnd entries lost).mode = m.mode := by
  have report (k : Module) : (k.showReport entries lost).mode = k.mode := by
    simp only [Module.showReport, Module.mode_wr, Module.mode_foldl, implies_true]
  have mismatch : m.showMismatch.mode = m.mode := Module.mode_foldl (fun k p => k.mode_wr _ _) m _
  exact (Module.mode_wr _ R.CFG_LOAD_MS_MS (m.tns / 1000000)).trans ((report _).trans mismatch)

end Sys2Proof.Machine
end

section
/-!
PROOFS. The entry of SAFE-HOLD (R118): what cycles, records and stops leave alone, and what a module in SAFE-HOLD shows.
-/

namespace Sys2Proof.Machine
open Sys2Proof.Claims

/-! ### The registers that cycles, records and stops leave alone -/

theorem Module.from_traceWords (m : Module) (w : List Word) : m.From 0x700000 (m.traceWords w) := by
  have lost : m.From 0x700000 (((m.bump R.SCH_TRACE_LOST_CNT_CNT).bump (R.SCH_CNT_CNT 14)).flag R.SCH_TRACE_LEVEL_FULL_STK) :=
    ((m.from_bump _ (by decide) (by decide)).trans (Module.from_bump _ _ (by decide) (by decide))).trans
      (Module.from_wr _ _ _ (by decide) (by decide))
  exact .ite (.refl _ m) (.ite (.same rfl) (.ite lost (.same rfl)))

theorem Module.from_trace (m : Module) (a b c d e f g : Nat) : m.From 0x700000 (m.trace a b c d e f g) := m.from_traceWords _
theorem Module.from_modTask {a : Nat} (m : Module) (t : Nat) (f : TaskSt → TaskSt) : m.From a (m.modTask t f) := .same rfl

theorem Module.from_schCnt (m : Module) (k : Nat) : m.From 0x700000 (m.bump (R.SCH_CNT_CNT k)) :=
  m.from_bump _ (by simp only [R.SCH_CNT_CNT]; omega) (by simp [R.SCH_CNT_CNT])

theorem Module.from_discCnt (m : Module) (k : Nat) : m.From 0x700000 (m.bump (R.PRS_DISC_CNT_CNT k)) :=
  m.from_bump _ (by simp only [R.PRS_DISC_CNT_CNT]; omega) (by simp [R.PRS_DISC_CNT_CNT])

theorem Module.from_endOnEngine (m : Module) (e : Nat) (x : Ctx) : m.From 0x700000 (m.endOnEngine e x) := by
  have missed : m.From 0x700000 (m.setEngine e { m.engine e with prevMissed := x.missed }) := .same rfl
  unfold Module.endOnEngine
  dsimp only
  generalize m.setEngine e { m.engine e with prevMissed := x.missed } = k at *
  exact .ite (.refl _ m) (.ite missed ((Module.From.ite missed (missed.trans ((Module.from_wr _ _ _ (by decide) (by decide)).trans
    (Module.from_schCnt _ 15)))).trans ((Module.from_raiseIf ..).mono (by decide))))

theorem Module.from_freeCtx (m : Module) (e c : Nat) : m.From 0x700000 (m.freeCtx e c) := by
  unfold Module.freeCtx
  split
  · exact .refl _ m
  · exact (m.from_endOnEngine ..).trans (.same rfl)

theorem Module.from_endCycle (m : Module) (t ct : Nat) : m.From 0x700000 (m.endCycle t ct) :=
  Module.From.trans (.same rfl)
    (Module.from_wr _ _ _ (by simp only [R.SCH_TASK_STAT1_LAST_CT]; omega) (by simp [R.SCH_TASK_STAT1_LAST_CT]))

theorem Module.from_abortCtx (m : Module) (e c : Nat) : m.From 0x700000 (m.abortCtx e c) := by
  unfold Module.abortCtx
  split
  · exact .refl _ m
  · exact ((m.from_freeCtx e c).trans (Module.from_endCycle ..)).trans (Module.from_discCnt _ 0)

theorem Module.from_noRecord (m : Module) (t ct : Nat) : m.From 0x700000 (m.noRecord t ct) := by
  unfold Module.noRecord
  split
  · exact .ite (.same rfl) (.refl _ m)
  · exact .refl _ m

theorem Module.from_grpFailed (m : Module) (g ct c : Nat) : m.From 0x700000 (m.grpFailed g ct c) := by
  have cnt : 0x700000 ≤ (R.PRS_GRP_FAIL_CNT_CNT g).addr := by simp only [R.PRS_GRP_FAIL_CNT_CNT]; omega
  have stat : 0x700000 ≤ (R.PRS_GRP_STAT_CAUSE g).addr := by simp only [R.PRS_GRP_STAT_CAUSE]; omega
  refine Module.From.trans ?_ ((Module.from_raise' _ 8 2 c g).mono (by decide))
  refine Module.From.trans ?_ (Module.from_wr _ (R.PRS_GRP_STAT_FAIL_STK g) 1 stat (Nat.le_of_ble_eq_true rfl))
  refine Module.From.trans ?_ (Module.from_wr _ (R.PRS_GRP_STAT_CAUSE g) c stat (Nat.le_of_ble_eq_true rfl))
  refine Module.From.trans ?_ (Module.from_bump _ (R.PRS_GRP_FAIL_CNT_CNT g) cnt (Nat.le_of_ble_eq_true rfl))
  exact .same rfl

theorem Module.from_press {a : Nat} (m : Module) (p : Press) : m.From a { m with press := p } := .same rfl
theorem Module.from_applySafe {a : Nat} (m : Module) (is : List Nat) : m.From a (m.applySafe is) := .same rfl

/-- One act writes registers of the Ladle, the Press, the instances and the recorder only. -/
theorem Module.from_act (m : Module) (a : Act) : m.From 0x700000 (m.act a).1 := by
  cases a with
  | cancelOpen t ct cause =>
    unfold Module.act; dsimp only
    split
    · refine Module.From.trans ?_ (Module.from_noRecord ..)
      refine Module.From.trans ?_ (Module.from_schCnt _ 5)
      refine Module.From.trans ?_ (Module.from_trace ..)
      exact (m.from_modTask ..).trans (.ite (Module.from_endCycle ..) (.refl ..))
    · exact .refl _ m
  | lost t ct cause eng ctx detail =>
    refine Module.From.trans ?_ (Module.from_noRecord ..)
    refine Module.From.trans ?_ (Module.from_schCnt ..)
    exact (m.from_modTask ..).trans (Module.from_trace ..)
  | chain t ct => exact .refl _ m
  | report t ct =>
    unfold Module.act; dsimp only
    repeat' split
    all_goals exact .same rfl
  | grpFail g cause =>
    unfold Module.act; dsimp only
    split
    · exact .refl _ m
    · refine Module.From.trans ?_ (Module.from_grpFailed ..)
      exact .same rfl
  | discard r n =>
    have freed (f : TaskSt → TaskSt) : m.From 0x700000 ((m.bump (R.PRS_DISC_CNT_CNT n)).modTask r.task f) :=
      (m.from_discCnt n).trans (Module.from_modTask _ _ _)
    unfold Module.act; dsimp only
    split
    · dsimp only; exact freed _
    · dsimp only; exact freed _
  | fault t ct code eng ctx =>
    unfold Module.act; dsimp only
    split
    · exact .refl _ m
    · split <;> exact .refl _ m
  | consec t =>
    unfold Module.act; dsimp only
    split
    · exact .refl _ m
    · exact m.from_modTask ..
  | stop i =>
    unfold Module.act; dsimp only
    split
    · exact .refl _ m
    · refine Module.From.trans ?_ (Module.from_applySafe _ [i])
      refine Module.From.trans ?_ (Module.from_foldl (fun k x _ => k.from_grpFailed ..) _)
      refine Module.From.trans ?_ (Module.from_press ..)
      refine Module.From.trans ?_ ((Module.from_raiseIf ..).mono (by decide))
      refine Module.From.trans ?_ (Module.from_wr _ (R.INS_INST_STAT_STATE i) 3 ?_ ?_)
      · refine Module.From.trans ?_ (Module.from_press ..)
        refine Module.From.trans ?_ (Module.from_foldl (fun k x _ => k.from_modTask ..) _)
        exact Module.from_foldl (fun k x _ => k.from_abortCtx ..) m
      · simp only [R.INS_INST_STAT_STATE]; omega
      · simp [R.INS_INST_STAT_STATE]

theorem Module.from_doActs (m : Module) (l : List Act) : m.From 0x700000 (m.doActs l) := by
  have run (n : Nat) (l : List Act) (m : Module) : m.From 0x700000 (Module.run n l m) := by
    induction n generalizing l m with
    | zero => exact .refl _ m
    | succ n ih =>
      cases l with
      | nil => exact .refl _ m
      | cons a r => exact (m.from_act a).trans (ih _ _)
  exact run ..

/-! ### The mode beside those registers -/

/-- A change that keeps the mode and every register below the Ladle's. -/
def Module.Aside (m n : Module) : Prop := m.From 0x700000 n ∧ n.mode = m.mode

theorem Module.Aside.refl (m : Module) : m.Aside m := ⟨.refl _ m, rfl⟩
theorem Module.Aside.trans {a b c : Module} (h : a.Aside b) (k : b.Aside c) : a.Aside c := ⟨h.1.trans k.1, k.2.trans h.2⟩
theorem Module.Aside.ite {P : Prop} [Decidable P] {a b c : Module} (h : a.Aside b) (k : a.Aside c) : a.Aside (if P then b else c) := by
  split <;> assumption
theorem Module.Aside.same {m n : Module} (regs : n.regs = m.regs) (mode : n.mode = m.mode) : m.Aside n := ⟨.same regs, mode⟩
theorem Module.Aside.foldl {α : Type} {f : Module → α → Module} (h : ∀ (m : Module) (x : α), m.Aside (f m x))
    (l : List α) (m : Module) : m.Aside (l.foldl f m) :=
  List.foldlRecOn l f (motive := m.Aside) (.refl m) fun n hn x _ => hn.trans (h n x)

theorem Module.mode_of_cycles {m n : Module} (h : m.ExceptCycles n) : n.mode = m.mode := by
  obtain ⟨_, _, _, _, _, _, rfl⟩ := h
  rfl

theorem Module.aside_abortCtx (m : Module) (e c : Nat) : m.Aside (m.abortCtx e c) :=
  ⟨m.from_abortCtx e c, Module.mode_of_cycles (m.cycles_abortCtx e c)⟩
theorem Module.aside_grpFailed (m : Module) (g ct c : Nat) : m.Aside (m.grpFailed g ct c) :=
  ⟨m.from_grpFailed g ct c, Module.mode_of_cycles (m.cycles_grpFailed g ct c)⟩
theorem Module.aside_doActs (m : Module) (l : List Act) : m.Aside (m.doActs l) :=
  ⟨m.from_doActs l, Module.mode_of_cycles (m.cycles_doActs l)⟩

/-! ### The recorder's sessions, the tasks and the records -/

theorem Module.aside_modSess (m : Module) (s : Nat) (f : Session → Session) : m.Aside (m.modSess s f) := by
  unfold Module.modSess
  split
  · exact .same rfl rfl
  · exact .refl m

theorem Module.aside_acqEvent (m : Module) (n c s r : Nat) : m.Aside (m.acqEvent n c s r) :=
  ⟨(m.from_raiseIf ..).mono (by decide), Module.mode_of_events (m.events_raiseIf ..)⟩

theorem Module.aside_acqCnt (m : Module) (k : Nat) : m.Aside (m.acqCnt k) :=
  ⟨m.from_bump _ (by simp only [R.ACQ_CNT_CNT]; omega) (by simp [R.ACQ_CNT_CNT]), Module.mode_of_events (m.events_bump _)⟩

theorem Module.aside_closeRec (m : Module) (s : Nat) (trunc : Bool) : m.Aside (m.closeRec s trunc) := by
  unfold Module.closeRec
  split
  · exact .refl m
  · split
    · exact .refl m
    · refine Module.Aside.trans ?_ (Module.aside_acqEvent ..)
      refine Module.Aside.trans ?_ (Module.aside_acqCnt ..)
      refine Module.Aside.trans ?_ (Module.aside_modSess ..)
      exact Module.aside_modSess ..

theorem Module.aside_haltSess (m : Module) (s cause : Nat) : m.Aside (m.haltSess s cause) := by
  unfold Module.haltSess
  split
  · exact .refl m
  · refine Module.Aside.trans ?_ (Module.aside_acqEvent ..)
    exact .same rfl rfl

theorem Module.aside_acqHalt (m : Module) : m.Aside m.acqHalt :=
  .ite (.refl m) (.foldl (fun k _ => (k.aside_closeRec _ true).trans (Module.aside_haltSess ..)) _ m)

theorem Module.aside_stopTasks (m : Module) : m.Aside m.stopTasks := by
  refine Module.Aside.trans ?_ (Module.aside_doActs ..)
  exact .foldl (fun k x => k.aside_abortCtx ..) _ m

theorem Module.aside_dropRecords (m : Module) : m.Aside m.dropRecords := by
  refine Module.Aside.trans ?_ (Module.aside_doActs ..)
  refine Module.Aside.trans ?_ (Module.Aside.foldl (fun k x => k.aside_grpFailed ..) _ _)
  exact .same rfl rfl

theorem Module.aside_safeAll (m : Module) : m.Aside m.safeAll := .ite (.same rfl rfl) (.refl m)

/-! ### The entry of SAFE-HOLD (R118) -/

/-- What a module in SAFE-HOLD no longer does: it samples, records and runs nothing, and its outputs go to their safe values. -/
def Module.standDown (m : Module) : Module :=
  let n := m.vatStop.acqHalt.stopTasks.dropRecords
  ({ n with red := { n.red with xfers := [], forward := [] } } : Module).safeAll

theorem Module.aside_standDown (m : Module) : m.Aside m.standDown := by
  refine Module.Aside.trans ?_ (Module.aside_safeAll _)
  refine Module.Aside.trans (b := m.vatStop.acqHalt.stopTasks.dropRecords) ?_ (.same rfl rfl)
  refine Module.Aside.trans ?_ (Module.aside_dropRecords _)
  refine Module.Aside.trans ?_ (Module.aside_stopTasks _)
  refine Module.Aside.trans ?_ (Module.aside_acqHalt _)
  exact .same rfl rfl

/-- Enters SAFE-HOLD with a cause: the cause, its event, the mode, and the end of what the module did. -/
def Module.hold (m : Module) (cause : Nat) : Module :=
  (((m.wr R.CFG_MODE_STAT_SAFEHOLD_CAUSE cause).raise' 0 2 cause 0).toMode .safeHold).standDown

/-- SAFE-HOLD from RIPEN. -/
theorem Module.safeHold_of_ripen {m : Module} (ripen : m.mode = .ripen) (cause : Nat) : m.safeHold cause = m.hold cause := by
  simp only [Module.safeHold, Module.leaveTest, ripen, reduceCtorEq, or_self, if_false, Bool.false_and, beq_eq_false_iff_ne.mpr, ne_eq,
    not_false_eq_true, Bool.false_eq_true]
  unfold Module.hold Module.standDown
  rfl

/-- SAFE-HOLD from LOAD with a cause that is no fault: the times that RIPEN counts from start as it is entered. -/
theorem Module.safeHold_of_load {m : Module} (load : m.mode = .load) {cause : Nat} (sound : cause ≤ 2) :
    m.safeHold cause = ({ m with sys := { m.sys with upAt := m.mono, waitEnded := false } } : Module).hold cause := by
  have noFault : decide (2 < cause) = false := decide_eq_false (by omega)
  simp only [Module.safeHold, Module.leaveTest, load, noFault, reduceCtorEq, or_self, if_false, if_true, Bool.and_false, Bool.false_eq_true]
  unfold Module.hold Module.standDown
  rfl

theorem Module.mode_hold (m : Module) (cause : Nat) : (m.hold cause).mode = .safeHold :=
  (Module.aside_standDown _).2.trans (Module.mode_toMode _ _)

theorem Module.keeps_hold (m : Module) (cause : Nat) {f : Fld} (below : f.addr < 0x100014) (place : f.lsb < 32) :
    m.Keeps f (m.hold cause) := by
  have apart {g : Fld} (at_ : 0x100014 ≤ g.addr ∧ g.lsb < 32) : f.key ≠ g.key := Fld.key_ne place at_.2 (.inl (by omega))
  have told : m.Keeps f ((m.wr R.CFG_MODE_STAT_SAFEHOLD_CAUSE cause).raise' 0 2 cause 0) :=
    (m.keeps_wr _ (apart (by decide))).trans ((Module.from_raise' ..).keeps (by omega) place)
  exact (told.trans (Module.keeps_toMode _ _ (by omega) place (apart (by decide)))).trans
    ((Module.aside_standDown _).1.keeps (by omega) place)

end Sys2Proof.Machine
end

section
/-!
PROOFS. The end of LOAD (R101, R118), readiness (R113), the wait for time (R114) and the end of RIPEN's window (R116).
-/

namespace Sys2Proof.Machine
open Sys2Proof.Claims

/-! ### The end of LOAD (R101, R118) -/

/-- The module as its loader leaves it. -/
def Module.loadDone (m : Module) : Module :=
  let l := (Ld.start m).load
  l.m.initTasks.loadEnd l.rep.reverse l.lost

/-- Enters RIPEN, from which instant its times count. -/
def Module.enterRipen (m : Module) : Module :=
  let n := m.toMode .ripen
  { n with sys := { n.sys with upAt := n.mono, waitEnded := false } }

theorem Module.mode_loadDone (m : Module) : m.loadDone.mode = m.mode :=
  (Module.mode_loadEnd ..).trans (Ld.mode_load (Ld.start m))

theorem mLoadComplete_of_load {m : Module} (load : m.mode = .load) :
    mLoadComplete m =
      if m.loadDone.rd R.CFG_STATUS_LOADED_COPY = 2 then m.loadDone.safeHold 1
      else if m.loadDone.isOn R.CFG_STATUS_UNUSABLE then m.loadDone.safeHold 2
      else m.loadDone.enterRipen := by
  unfold mLoadComplete Module.enterRipen Module.loadDone
  rw [if_neg (not_not.mpr load)]

theorem Module.keeps_enterRipen (m : Module) {f : Fld} (below : f.addr < 0x100014) (place : f.lsb < 32) : m.Keeps f m.enterRipen :=
  (m.keeps_toMode .ripen (by omega) place (Fld.key_ne place (by decide) (.inl (by change f.addr ≠ 0x100014; omega)))).trans (.same rfl)

theorem Module.mode_enterRipen (m : Module) : m.enterRipen.mode = .ripen := m.mode_toMode .ripen

/-- SAFE-HOLD from LOAD leaves what is shown of the loaded copy. -/
theorem Module.keeps_safeHold_of_load {m : Module} (load : m.mode = .load) {cause : Nat} (sound : cause ≤ 2) {f : Fld}
    (below : f.addr < 0x100014) (place : f.lsb < 32) : m.Keeps f (m.safeHold cause) := by
  rw [Module.safeHold_of_load load sound]
  refine Module.Keeps.trans ?_ (Module.keeps_hold _ cause below place)
  exact .same rfl

theorem Module.mode_safeHold_of_load {m : Module} (load : m.mode = .load) {cause : Nat} (sound : cause ≤ 2) :
    (m.safeHold cause).mode = .safeHold := by
  rw [Module.safeHold_of_load load sound, Module.mode_hold]

/-- What CFG_STATUS shows of the loaded copy decides the mode in which LOAD ends. -/
theorem mLoadComplete_ends {m : Module} (load : m.mode = .load) :
    if (mLoadComplete m).rd R.CFG_STATUS_LOADED_COPY = 2 ∨ (mLoadComplete m).rd R.CFG_STATUS_UNUSABLE = 1
    then (mLoadComplete m).mode = .safeHold else (mLoadComplete m).mode = .ripen := by
  have loaded : m.loadDone.mode = .load := m.mode_loadDone.trans load
  have held {cause : Nat} (sound : cause ≤ 2) {f : Fld} (below : f.addr < 0x100014) (place : f.lsb < 32) :
      (m.loadDone.safeHold cause).rd f = m.loadDone.rd f := (Module.keeps_safeHold_of_load loaded sound below place).2
  have ripens {f : Fld} (below : f.addr < 0x100014) (place : f.lsb < 32) : m.loadDone.enterRipen.rd f = m.loadDone.rd f :=
    (m.loadDone.keeps_enterRipen below place).2
  have isOn : m.loadDone.isOn R.CFG_STATUS_UNUSABLE = true ↔ m.loadDone.rd R.CFG_STATUS_UNUSABLE = 1 := beq_iff_eq
  rw [mLoadComplete_of_load load]
  by_cases minimal : m.loadDone.rd R.CFG_STATUS_LOADED_COPY = 2
  · rw [if_pos minimal, held (by decide) (by decide) (by decide), if_pos (.inl minimal)]
    exact Module.mode_safeHold_of_load loaded (by decide)
  · rw [if_neg minimal]
    by_cases unusable : m.loadDone.rd R.CFG_STATUS_UNUSABLE = 1
    · rw [if_pos (isOn.mpr unusable), held (f := R.CFG_STATUS_UNUSABLE) (by decide) (by decide) (by decide), if_pos (.inr unusable)]
      exact Module.mode_safeHold_of_load loaded (by decide)
    · rw [if_neg (mt isOn.mp unusable), ripens (by decide) (by decide), ripens (by decide) (by decide),
        if_neg (not_or.mpr ⟨minimal, unusable⟩)]
      exact m.loadDone.mode_enterRipen

/-! ### Readiness (R113) -/

theorem bitOf_eq_testBit (w b : Nat) : bitOf w b = w.testBit b := (Nat.testBit_eq_decide_div_mod_eq ..).symm

/-- A function that comes up sets its own bit of SYS_READY and leaves the others. -/
theorem Module.ready_setReady {m : Module} (h : SMap.rising m.regs = true) (bit : Nat) {b : Nat} (small : b < 16) :
    (m.setReady bit).ready b = (m.ready b || decide (bit = b)) := by
  have shown : (m.setReady bit).rd R.SYS_READY_READY = (m.rd R.SYS_READY_READY ||| 2 ^ bit) % 2 ^ 16 := m.rd_wr_same h _ _
  simp only [Module.ready, shown, bitOf_eq_testBit, Nat.testBit_mod_two_pow, Nat.testBit_or, Nat.testBit_two_pow, small, decide_true,
    Bool.true_and]

/-- What MEM, TIM, ENG and the functions without registers of their own do as they come up shows in no register of SYS. -/
theorem Module.from_comeUp (m : Module) {bit : Nat} (of : bit ∈ [0, 1, 2, 4, 5, 6, 13, 14, 15]) : m.From 0x100000 (m.comeUp bit) := by
  have tim : m.From 0x100000 m.timUp := .trans (.same rfl) (Module.from_wr _ _ _ (by decide) (by decide))
  have mem : m.From 0x100000 m.memReady :=
    ((Module.From.trans (.same rfl) (Module.from_wr _ _ _ (by decide) (by decide))).trans
      (Module.from_wr _ _ _ (by decide) (by decide))).trans (Module.from_wr _ _ _ (by decide) (by decide))
  have tick : m.From 0x100000 (m.tickFrom m.tns) := .same rfl
  simp only [List.mem_cons, List.not_mem_nil, or_false] at of
  rcases of with rfl | rfl | rfl | rfl | rfl | rfl | rfl | rfl | rfl
  · exact tim
  · exact .refl _ m
  · exact .refl _ m
  · exact .refl _ m
  · exact tick
  · exact .refl _ m
  · exact .refl _ m
  · exact .refl _ m
  · exact mem

/-- READINESS_SET of a function other than RED whose conditions hold, as the registers show it. -/
theorem mReadinessSet_regs {m : Module} {bit : Nat} (small : bit ≤ 15) (red : bit ≠ 10) (fresh : m.ready bit = false)
    (coming : m.comingUp = true) (after : m.allReady (readyAfter bit) = true) (own : m.ownReady bit = true) :
    (mReadinessSet bit m).regs = ((m.setReady bit).comeUp bit).regs := by
  have guard : ¬(15 < bit ∨ m.ready bit = true ∨ (!m.comingUp) = true ∨ (!m.allReady (readyAfter bit)) = true ∨
      (!m.ownReady bit) = true) := by
    simp [fresh, coming, after, own, Nat.not_lt.mpr small]
  unfold mReadinessSet
  rw [if_neg guard, if_neg red]
  dsimp only
  split <;> rfl

theorem mReadinessSet_ready {m : Module} (h : SMap.rising m.regs = true) {bit : Nat} (of : bit ∈ [0, 1, 2, 4, 5, 6, 13, 14, 15])
    (fresh : m.ready bit = false) (coming : m.comingUp = true) (after : m.allReady (readyAfter bit) = true)
    (own : m.ownReady bit = true) {b : Nat} (small : b < 16) :
    (mReadinessSet bit m).ready b = (m.ready b || decide (bit = b)) := by
  have place : bit ≤ 15 ∧ bit ≠ 10 := by
    simp only [List.mem_cons, List.not_mem_nil, or_false] at of
    omega
  have shown : (mReadinessSet bit m).rd R.SYS_READY_READY = (m.setReady bit).rd R.SYS_READY_READY :=
    (Module.rd_congr (mReadinessSet_regs place.1 place.2 fresh coming after own) _).trans
      ((Module.from_comeUp _ of).2 _ (by decide) (by decide))
  rw [Module.ready, shown]
  exact Module.ready_setReady h bit small

/-! ### The ends of the wait for time (R114) and of RIPEN's window (R116) -/

/-- TIME_WAIT_END in RIPEN. -/
theorem mTimeWaitEnd_of_ripen {m : Module} (ripen : m.mode = .ripen) (waits : m.sys.waitEnded = false) :
    mTimeWaitEnd m = (let n := m.reachMono (m.sys.upAt + m.sys.timeWaitMs * 1000000 * nsUnit)
      { n with sys := { n.sys with waitEnded := true } }) :=
  if_neg (by simp [ripen, waits])

/-- RIPEN_TIMEOUT while a function is missing. -/
theorem mode_mRipenTimeout {m : Module} (ripen : m.mode = .ripen) (missing : m.allReady 0xFFFF = false) :
    (mRipenTimeout m).mode = .safeHold := by
  have guard : ¬(m.mode ≠ .ripen ∨ m.allReady 0xFFFF = true) := by simp [ripen, missing]
  rw [mRipenTimeout, if_neg guard]
  refine (congrArg Module.mode (Module.safeHold_of_ripen ?_ 3)).trans (Module.mode_hold ..)
  rw [Module.mode_flag, Module.mode_wr]
  exact (m.adv_mode _).trans ripen

/-- Settles O27, each command from the lemma about it: LOAD completes at one instant (assumption 111), and TIME_WAIT_END comes no
sooner than its instant (assumption 6). -/
theorem startUp : Obligations.StartUp := by
  refine ⟨?_, ?_, ?_, ?_⟩
  · intro s load
    refine completes_of_upd (f := mLoadComplete) rfl ?_
    rw [Module.rd_settle, Module.rd_settle, Module.settle_mode]
    exact mLoadComplete_ends load
  · intro s bit of fresh coming after own wf
    refine completes_of_upd (f := mReadinessSet bit) rfl ?_
    have shown {b : Nat} (small : b < 16) : (mReadinessSet bit s.m).settle.ready b = (s.m.ready b || decide (bit = b)) := by
      rw [Module.ready, Module.rd_settle]
      exact mReadinessSet_ready (Module.rising_regs_of_wf wf) of fresh coming after own small
    have small : bit < 16 := by
      simp only [List.mem_cons, List.not_mem_nil, or_false] at of
      omega
    refine ⟨by simp [shown small], fun b hb other => ?_⟩
    simp [shown hb, other.symm]
  · intro s ripen waits still
    refine completes_of_upd (f := mTimeWaitEnd) rfl ?_
    rw [Module.settle_sys, Module.settle_mono, mTimeWaitEnd_of_ripen ripen waits]
    exact ⟨rfl, Module.mono_reachMono still _⟩
  · intro s ripen missing
    refine completes_of_upd (f := mRipenTimeout) rfl ?_
    rw [Module.settle_mode]
    exact mode_mRipenTimeout ripen missing

end Sys2Proof.Machine
end

section
/-!
PROOFS. The fields of a port, its class queues, the end of its hold window (R137), and when it is up (R127, R147).
-/

namespace Sys2Proof.Machine
open Sys2Proof.Claims

/-! ### Fields written one after another -/

/-- Writes fields one after another. -/
def Module.writes (m : Module) (l : List (Fld × Nat)) : Module := l.foldl (fun k x => k.wr x.1 x.2) m

theorem Module.keeps_writes {f : Fld} (m : Module) {l : List (Fld × Nat)} (apart : ∀ x ∈ l, f.key ≠ x.1.key) :
    m.Keeps f (m.writes l) :=
  .foldl (fun k x hx => k.keeps_wr x.2 (apart x hx)) m

theorem Module.rising_writes {m : Module} (h : SMap.rising m.regs = true) (l : List (Fld × Nat)) :
    SMap.rising (m.writes l).regs = true :=
  List.foldlRecOn l _ (motive := fun k : Module => SMap.rising k.regs = true) h fun _ hk _ _ => Module.rising_wr hk _ _

/-- Fields at places of their own read as they were written. -/
theorem Module.rd_writes {m : Module} (h : SMap.rising m.regs = true) {l : List (Fld × Nat)}
    (apart : (l.map (·.1.key)).Nodup) {x : Fld × Nat} (written : x ∈ l) : (m.writes l).rd x.1 = x.2 % 2 ^ x.1.width := by
  induction l generalizing m with
  | nil => cases written
  | cons y r ih =>
    obtain ⟨once, rest⟩ := List.nodup_cons.mp apart
    rcases List.mem_cons.mp written with rfl | later
    · refine ((m.wr x.1 x.2).keeps_writes fun z hz same => once ?_).2.trans (m.rd_wr_same h _ _)
      exact List.mem_map.mpr ⟨z, hz, same.symm⟩
    · exact ih (Module.rising_wr h _ _) rest later

/-! ### The fields of a port -/

/-- The fields that link up, link down and the end of the hold window write at a port (R127, R137). -/
def portLinkFields (p : Nat) : List Fld :=
  [R.MAC_STATUS_LINK p, R.MAC_STATUS_RATE p, R.MAC_STATUS_LINK_DOWN_STK p, R.MAC_SEC_STAT_SECURE p, R.MAC_STATUS_HOLDING p,
    R.MAC_CNT_CNT p 8]

/-- The fields that show a port's cage, and those that configure the port. -/
def portOwnFields (p : Nat) : List Fld :=
  [R.MAC_STATUS_MOD_PRESENT p, R.MAC_STATUS_TX_FAULT p, R.MAC_STATUS_RX_LOS p, R.MAC_STATUS_COPPER p, R.MAC_CTRL_EN p,
    R.MAC_CTRL_SPEED p, R.MAC_CTRL_FEC p, R.MAC_CTRL_MAX_LEN p, R.MAC_HOLD_HOLD_US p]

theorem portFields_apart : ∀ p < 10, ((portLinkFields p ++ portOwnFields p).map Fld.key).Nodup := by decide

theorem portFields_key_ne {p : Nat} (front : p < 10) {f g : Fld} (link : f ∈ portLinkFields p) (own : g ∈ portOwnFields p) :
    g.key ≠ f.key := by
  have apart := portFields_apart p front
  rw [List.map_append, List.nodup_append] at apart
  exact fun same => apart.2.2 _ (List.mem_map_of_mem link) _ (List.mem_map_of_mem own) same.symm

/-! ### Class queues -/

theorem SMap.getD_putQ_same {s : SMap (List Copy)} {l : List Copy} (h : l = [] → SMap.rising s = true) (k : Nat) :
    (putQ s k l).getD k [] = l := by
  unfold putQ
  split
  · rename_i empty
    rw [SMap.getD, SMap.get?_erase_same (h empty), empty, Option.getD_none]
  · exact SMap.getD_set_same s k l []

theorem SMap.getD_putQ_other (s : SMap (List Copy)) (l : List Copy) {k x : Nat} (other : x ≠ k) :
    (putQ s k l).getD x [] = s.getD x [] := by
  unfold putQ SMap.getD
  split
  · rw [SMap.get?_erase_other s other]
  · rw [SMap.get?_set_other s l other]

theorem SMap.rising_putQ {s : SMap (List Copy)} (h : SMap.rising s = true) (k : Nat) (l : List Copy) :
    SMap.rising (putQ s k l) = true := by
  unfold putQ
  split
  · exact SMap.rising_erase h k
  · exact SMap.rising_set h k l

/-- A class queue holds what it was last given; one that is emptied leaves a store with strictly rising keys. -/
theorem Module.queue_setQueue_same {m : Module} {l : List Copy} (h : l = [] → SMap.rising m.sw.queues = true) (p q : Nat) :
    (m.setQueue (.cls p q) l).queue (.cls p q) = l :=
  SMap.getD_putQ_same h _

theorem Module.queue_setQueue_other (m : Module) (l : List Copy) {p q n k : Nat} (other : 8 * n + k ≠ 8 * p + q) :
    (m.setQueue (.cls p q) l).queue (.cls n k) = m.queue (.cls n k) :=
  SMap.getD_putQ_other _ l other

/-! ### The end of the hold window (R137) -/

/-- Flushes one class queue of a port: one step of `Module.flushPort`. -/
def Module.flushClass (m : Module) (p q : Nat) : Module :=
  (m.setQueue (.cls p q) []).bumpBy (R.MAC_CNT_CNT p 8) (m.queue (.cls p q)).length

theorem Module.flushPort_eq_foldl (m : Module) (p : Nat) :
    m.flushPort p = (List.range 8).foldl (fun k q => k.flushClass p q) m := rfl

theorem Module.rising_queues_flushClass {m : Module} (h : SMap.rising m.sw.queues = true) (p q : Nat) :
    SMap.rising (m.flushClass p q).sw.queues = true :=
  SMap.rising_putQ h (8 * p + q) []

theorem Module.keeps_flushPort {p : Nat} {f : Fld} (m : Module) (apart : f.key ≠ (R.MAC_CNT_CNT p 8).key) :
    m.Keeps f (m.flushPort p) := by
  rw [Module.flushPort_eq_foldl]
  exact .foldl (fun k q _ => Module.Keeps.trans (.same rfl) ((k.setQueue (.cls p q) []).keeps_wr _ apart)) m

/-- The switch without its class queues. -/
def Sw.besideQueues (x : Sw) : Sw := { x with queues := [] }

theorem Module.besideQueues_flushPort (m : Module) (p : Nat) : (m.flushPort p).sw.besideQueues = m.sw.besideQueues := by
  rw [Module.flushPort_eq_foldl]
  exact foldl_keeps (fun k => k.sw.besideQueues) (f := fun k q => k.flushClass p q) (fun _ _ _ => rfl) m

theorem Module.mono_flushPort (m : Module) (p : Nat) : (m.flushPort p).mono = m.mono := by
  rw [Module.flushPort_eq_foldl]
  exact foldl_keeps Module.mono (f := fun k q => k.flushClass p q) (fun _ _ _ => rfl) m

theorem Module.queue_foldl_flushClass {m : Module} (h : SMap.rising m.sw.queues = true) (p : Nat) {q : Nat} {l : List Nat}
    (gone : q ∈ l ∨ m.queue (.cls p q) = []) : (l.foldl (fun k q => k.flushClass p q) m).queue (.cls p q) = [] := by
  induction l generalizing m with
  | nil => exact gone.resolve_left List.not_mem_nil
  | cons k r ih =>
    refine ih (Module.rising_queues_flushClass h p k) ?_
    by_cases here : q = k
    · exact .inr (here ▸ Module.queue_setQueue_same (fun _ => h) p q)
    · refine gone.imp (fun mem => (List.mem_cons.mp mem).resolve_left here) fun empty => ?_
      exact (m.queue_setQueue_other [] (by omega)).trans empty

/-- After a flush every class queue of the port is empty. -/
theorem Module.queue_flushPort {m : Module} (h : SMap.rising m.sw.queues = true) (p : Nat) {q : Nat} (cls : q < 8) :
    (m.flushPort p).queue (.cls p q) = [] :=
  Module.queue_foldl_flushClass h p (.inl (List.mem_range.mpr cls))

/-- Closes the hold window of a port, before what is queued there is judged. -/
def Module.closeHold (m : Module) (p : Nat) : Module :=
  { m with sw := { m.sw with holdEnd := m.sw.holdEnd.erase p } }.wr (R.MAC_STATUS_HOLDING p) 0

theorem Module.endHold_eq (m : Module) (p : Nat) : m.endHold p =
    if (m.closeHold p).portUp (if (m.closeHold p).inPair p then p / 2 * 2 else p) then m.closeHold p
    else (m.closeHold p).flushPort p := rfl

/-- The end of a hold window closes it, and may flush the port. -/
theorem Module.endHold_eq_or (m : Module) (p : Nat) :
    m.endHold p = m.closeHold p ∨ m.endHold p = (m.closeHold p).flushPort p :=
  ite_eq_or_eq _ _ _

theorem Module.keeps_endHold {p : Nat} {f : Fld} (m : Module) (count : f.key ≠ (R.MAC_CNT_CNT p 8).key)
    (hold : f.key ≠ (R.MAC_STATUS_HOLDING p).key) : m.Keeps f (m.endHold p) := by
  have closed : m.Keeps f (m.closeHold p) := .trans (.same rfl) (Module.keeps_wr _ 0 hold)
  obtain eq | eq := m.endHold_eq_or p <;> rw [eq]
  · exact closed
  · exact closed.trans (Module.keeps_flushPort _ count)

theorem Module.rising_endHold {m : Module} (h : SMap.rising m.regs = true) (p : Nat) : SMap.rising (m.endHold p).regs = true :=
  (m.keeps_endHold (f := R.SYS_READY_READY) (by simp only [Fld.key, R.SYS_READY_READY, R.MAC_CNT_CNT]; omega)
    (by simp only [Fld.key, R.SYS_READY_READY, R.MAC_STATUS_HOLDING]; omega)).1 h

/-- Beside its class queues, the end of a hold window takes the window out of the switch. -/
theorem Module.besideQueues_endHold (m : Module) (p : Nat) :
    (m.endHold p).sw.besideQueues = ({ m.sw with holdEnd := m.sw.holdEnd.erase p } : Sw).besideQueues := by
  obtain eq | eq := m.endHold_eq_or p <;> rw [eq]
  · rfl
  · exact Module.besideQueues_flushPort _ p

theorem Module.holdEnd_endHold (m : Module) (p : Nat) : (m.endHold p).sw.holdEnd = m.sw.holdEnd.erase p :=
  (congrArg Sw.holdEnd (m.besideQueues_endHold p) :)

theorem Module.declared_endHold (m : Module) (p : Nat) : (m.endHold p).sw.declared = m.sw.declared :=
  (congrArg Sw.declared (m.besideQueues_endHold p) :)

theorem Module.mono_endHold (m : Module) (p : Nat) : (m.endHold p).mono = m.mono := by
  obtain eq | eq := m.endHold_eq_or p <;> rw [eq]
  · rfl
  · exact Module.mono_flushPort _ p

theorem Module.rd_endHold_holding {m : Module} (h : SMap.rising m.regs = true) (p : Nat) :
    (m.endHold p).rd (R.MAC_STATUS_HOLDING p) = 0 := by
  have closed : (m.closeHold p).rd (R.MAC_STATUS_HOLDING p) = 0 := Module.rd_wr_same _ h _ 0
  obtain eq | eq := m.endHold_eq_or p <;> rw [eq]
  · exact closed
  · refine (Module.keeps_flushPort _ ?_).2.trans closed
    simp only [Fld.key, R.MAC_STATUS_HOLDING, R.MAC_CNT_CNT]
    omega

/-! ### When a port is up (R127, R147) -/

/-- The fields that say whether a port is up by its own link. -/
def upFields (p : Nat) : List Fld := [R.MAC_STATUS_LINK p, R.MAC_CTRL_MACSEC_EN p, R.MAC_SEC_STAT_SECURE p]

theorem Module.linkUp_congr {m n : Module} {p : Nat} (same : ∀ f ∈ upFields p, n.rd f = m.rd f) : n.linkUp p = m.linkUp p := by
  simp only [upFields, List.forall_mem_cons] at same
  obtain ⟨link, sec, secure, -⟩ := same
  simp only [Module.linkUp, Module.isOn, link, sec, secure]

theorem Module.redund_congr {m n : Module} (same : ∀ p < 10, n.rd (R.MAC_CTRL_REDUND p) = m.rd (R.MAC_CTRL_REDUND p)) (p : Nat) :
    n.redund p = m.redund p := by
  unfold Module.redund
  split
  · rename_i low
    exact same p low.1
  · rfl

theorem Module.inPair_congr {m n : Module} (same : ∀ p < 10, n.rd (R.MAC_CTRL_REDUND p) = m.rd (R.MAC_CTRL_REDUND p)) (p : Nat) :
    n.inPair p = m.inPair p := by
  rw [Module.inPair, Module.inPair, Module.redund_congr same]

/-- A port is up, by itself or by the upper port of its pair, as the fields of the two say. -/
theorem Module.portUp_congr {m n : Module} (pairs : ∀ p < 10, n.rd (R.MAC_CTRL_REDUND p) = m.rd (R.MAC_CTRL_REDUND p)) {p : Nat}
    (same : ∀ k, k = p ∨ k = p + 1 → ∀ f ∈ upFields k, n.rd f = m.rd f) : n.portUp p = m.portUp p := by
  rw [Module.portUp, Module.portUp, Module.redund_congr pairs, Module.linkUp_congr (same p (.inl rfl)),
    Module.linkUp_congr (same (p + 1) (.inr rfl))]

/-- A port that is down is flushed at the end of its hold window: HOLDING says nothing about which ports are up. -/
theorem Module.endHold_flushes {m : Module} {p : Nat} (down : m.portUp (if m.inPair p then p / 2 * 2 else p) = false) :
    m.endHold p = (m.closeHold p).flushPort p := by
  have rd {f : Fld} (apart : f.key ≠ (R.MAC_STATUS_HOLDING p).key) : (m.closeHold p).rd f = m.rd f :=
    Module.rd_wr_other _ 0 apart
  have pairs : ∀ n < 10, (m.closeHold p).rd (R.MAC_CTRL_REDUND n) = m.rd (R.MAC_CTRL_REDUND n) := fun n _ =>
    rd (by simp only [Fld.key, R.MAC_CTRL_REDUND, R.MAC_STATUS_HOLDING]; omega)
  have ups : ∀ n, ∀ f ∈ upFields n, (m.closeHold p).rd f = m.rd f := by
    simp only [upFields, List.forall_mem_cons]
    refine fun n => ⟨rd ?_, rd ?_, rd ?_, by simp⟩ <;>
      simp only [Fld.key, R.MAC_STATUS_HOLDING, R.MAC_STATUS_LINK, R.MAC_CTRL_MACSEC_EN, R.MAC_SEC_STAT_SECURE] <;> omega
  rw [Module.endHold_eq, Module.inPair_congr pairs, Module.portUp_congr pairs fun n _ => ups n, down]
  rfl

end Sys2Proof.Machine
end

section
/-!
PROOFS. The commands on a port's cage, link and hold window (R125 to R128, R137), and the SAK of MKA (R145): what each leaves in the
port's registers.
-/

namespace Sys2Proof.Machine
open Sys2Proof.Claims

/-! ### Link down (R127, R136, R137) -/

/-- The fields that show a lost link, each with what it shows (R127). -/
def lostLink (p : Nat) : List (Fld × Nat) :=
  [(R.MAC_STATUS_LINK p, 0), (R.MAC_STATUS_RATE p, 0), (R.MAC_STATUS_LINK_DOWN_STK p, 1), (R.MAC_SEC_STAT_SECURE p, 0)]

theorem lostLink_apart : ∀ p < 10, ((lostLink p).map (·.1.key)).Nodup := by decide

theorem mem_portLinkFields_of_lostLink {p : Nat} {x : Fld × Nat} (shows : x ∈ lostLink p) : x.1 ∈ portLinkFields p := by
  simp only [lostLink, List.mem_cons, List.not_mem_nil, or_false] at shows
  rcases shows with rfl | rfl | rfl | rfl <;> simp [portLinkFields]

/-- What ends a hold window, or starts one, writes none of the fields that show the lost link. -/
theorem lostLink_key_ne : ∀ p < 10, ∀ x ∈ lostLink p,
    x.1.key ≠ (R.MAC_CNT_CNT p 8).key ∧ x.1.key ≠ (R.MAC_STATUS_HOLDING p).key := by decide

/-- Clears a port's pauses, credits and wire. -/
def Module.clearWire (m : Module) (p : Nat) : Module :=
  { m with sw := { m.sw with
      pauses := m.sw.pauses.filter fun (k, _) => k / 8 != p
      credits := m.sw.credits.filter fun (k, _) => k / 8 != p, wire := m.sw.wire.erase p } }

/-- What a lost link does at once, before the hold window. -/
def Module.loseLink (m : Module) (p : Nat) : Module := (m.clearWire p).writes (lostLink p)

/-- Starts a hold window of h µs at a port. -/
def Module.openHold (m : Module) (p h : Nat) : Module :=
  { m with sw := { m.sw with holdEnd := m.sw.holdEnd.set p (m.mono + h * 1000 * nsUnit) } }.flag (R.MAC_STATUS_HOLDING p)

/-- A port whose link is lost holds its queues for HOLD_US, or flushes them at once where that is 0. -/
theorem Module.portDown_of_up {m : Module} {p : Nat} (up : m.isOn (R.MAC_STATUS_LINK p) = true) : m.portDown p =
    if (m.loseLink p).rd (R.MAC_HOLD_HOLD_US p) = 0 then (m.loseLink p).endHold p
    else (m.loseLink p).openHold p ((m.loseLink p).rd (R.MAC_HOLD_HOLD_US p)) :=
  if_neg (by simp [up])

theorem Module.portDown_of_down {m : Module} {p : Nat} (down : m.isOn (R.MAC_STATUS_LINK p) = false) : m.portDown p = m :=
  if_pos (by simp [down])

theorem Module.keeps_loseLink {p : Nat} {f : Fld} (m : Module) (apart : ∀ x ∈ lostLink p, f.key ≠ x.1.key) :
    m.Keeps f (m.loseLink p) :=
  (Module.Keeps.same rfl).trans ((m.clearWire p).keeps_writes apart)

theorem Module.rising_loseLink {m : Module} (h : SMap.rising m.regs = true) (p : Nat) : SMap.rising (m.loseLink p).regs = true :=
  Module.rising_writes (m := m.clearWire p) h _

/-- What follows at the queues of a port that lost its link: of its fields, HOLDING alone and the count of flushed frames. -/
theorem Module.keeps_portDown_of_up {m : Module} {p : Nat} (up : m.isOn (R.MAC_STATUS_LINK p) = true) {f : Fld}
    (count : f.key ≠ (R.MAC_CNT_CNT p 8).key) (hold : f.key ≠ (R.MAC_STATUS_HOLDING p).key) :
    (m.loseLink p).Keeps f (m.portDown p) := by
  rw [Module.portDown_of_up up]
  exact .ite (Module.keeps_endHold _ count hold) ((Module.Keeps.same rfl).trans (Module.keeps_wr _ 1 hold))

/-- A lost link keeps what configures the port and what shows its cage. -/
theorem Module.keeps_portDown {p : Nat} (front : p < 10) {f : Fld} (own : f ∈ portOwnFields p) (m : Module) :
    m.Keeps f (m.portDown p) := by
  have apart {g : Fld} (link : g ∈ portLinkFields p) : f.key ≠ g.key := portFields_key_ne front link own
  cases up : m.isOn (R.MAC_STATUS_LINK p) with
  | false => rw [Module.portDown_of_down up]; exact .refl f m
  | true =>
    exact (m.keeps_loseLink fun x shows => apart (mem_portLinkFields_of_lostLink shows)).trans
      (Module.keeps_portDown_of_up up (apart (by simp [portLinkFields])) (apart (by simp [portLinkFields])))

theorem Module.rd_portDown {m : Module} (h : SMap.rising m.regs = true) {p : Nat} (front : p < 10)
    (up : m.isOn (R.MAC_STATUS_LINK p) = true) {x : Fld × Nat} (shows : x ∈ lostLink p) :
    (m.portDown p).rd x.1 = x.2 % 2 ^ x.1.width := by
  obtain ⟨count, hold⟩ := lostLink_key_ne p front x shows
  exact (Module.keeps_portDown_of_up up count hold).2.trans (Module.rd_writes (m := m.clearWire p) h (lostLink_apart p front) shows)

/-- After a lost link, or without one, LINK reads 0. -/
theorem Module.link_portDown {m : Module} (h : SMap.rising m.regs = true) {p : Nat} (front : p < 10) :
    (m.portDown p).isOn (R.MAC_STATUS_LINK p) = false := by
  cases up : m.isOn (R.MAC_STATUS_LINK p) with
  | false => rw [Module.portDown_of_down up, up]
  | true =>
    have shown := Module.rd_portDown h front up (x := (R.MAC_STATUS_LINK p, 0)) (by simp [lostLink])
    simp [Module.isOn, shown]

/-- A port that loses its link with a hold window starts it (R137). -/
theorem Module.portDown_holds {m : Module} (h : SMap.rising m.regs = true) {p : Nat} (front : p < 10)
    (up : m.isOn (R.MAC_STATUS_LINK p) = true) (window : m.rd (R.MAC_HOLD_HOLD_US p) ≠ 0) :
    (m.portDown p).rd (R.MAC_STATUS_HOLDING p) = 1 ∧
      (m.portDown p).sw.holdEnd.get? p = some (m.mono + m.rd (R.MAC_HOLD_HOLD_US p) * 1000 * nsUnit) := by
  have same : (m.loseLink p).rd (R.MAC_HOLD_HOLD_US p) = m.rd (R.MAC_HOLD_HOLD_US p) :=
    (m.keeps_loseLink fun x shows =>
      portFields_key_ne front (mem_portLinkFields_of_lostLink shows) (by simp [portOwnFields])).2
  rw [Module.portDown_of_up up, same, if_neg window]
  exact ⟨Module.rd_wr_same _ (Module.rising_loseLink h p) _ 1, SMap.get?_set_same _ _ _⟩

/-! ### The cage and the configuration of a port (R125 to R128) -/

theorem b2n_mod_two (b : Bool) : b2n b % 2 ^ 1 = b2n b := by cases b <;> rfl

/-- RATE_MISMATCH shown anew (R125), and the link lost where `down` says so. -/
def Module.judgeRate (m : Module) (p : Nat) (down : Module → Bool) : Module :=
  let n := m.wr (R.MAC_STATUS_RATE_MISMATCH p) (b2n (m.mismatch p))
  if down n then n.portDown p else n

theorem rateMismatch_key_ne : ∀ p < 10, ∀ f ∈ portOwnFields p, f.key ≠ (R.MAC_STATUS_RATE_MISMATCH p).key := by decide

/-- Fields of a port, written at places of their own, still read as written when its rate has been judged. -/
theorem Module.rd_judgeRate_writes {m : Module} (h : SMap.rising m.regs = true) {p : Nat} (front : p < 10) {l : List (Fld × Nat)}
    (apart : (l.map (·.1.key)).Nodup) (own : ∀ x ∈ l, x.1 ∈ portOwnFields p) (down : Module → Bool) {x : Fld × Nat}
    (written : x ∈ l) : ((m.writes l).judgeRate p down).rd x.1 = x.2 % 2 ^ x.1.width := by
  have shown := (m.writes l).keeps_wr (b2n ((m.writes l).mismatch p)) (rateMismatch_key_ne p front _ (own x written))
  have judged : (m.writes l).Keeps x.1 ((m.writes l).judgeRate p down) :=
    .ite (shown.trans (Module.keeps_portDown front (own x written) _)) shown
  exact judged.2.trans (Module.rd_writes h apart written)

theorem Module.link_judgeRate {m : Module} (h : SMap.rising m.regs = true) {p : Nat} (front : p < 10) {down : Module → Bool}
    (lost : ∀ n, down n = true) : (m.judgeRate p down).isOn (R.MAC_STATUS_LINK p) = false := by
  rw [Module.judgeRate, lost, if_pos rfl]
  exact Module.link_portDown (Module.rising_wr h _ _) front

/-- Notes the rates that a fitted module declares. -/
def Module.declare (m : Module) (p rates : Nat) : Module :=
  { m with sw := { m.sw with declared := m.sw.declared.set p rates } }

/-- The fields that show the cage's signals, each with what it shows (R128). -/
def cageSignals (p : Nat) (absent fault los copper : Bool) : List (Fld × Nat) :=
  [(R.MAC_STATUS_MOD_PRESENT p, b2n !absent), (R.MAC_STATUS_TX_FAULT p, b2n fault), (R.MAC_STATUS_RX_LOS p, b2n los),
    (R.MAC_STATUS_COPPER p, b2n (copper && !absent))]

theorem mCageSignalChange_eq (p : Nat) (absent fault los copper : Bool) (rates : Nat) (m : Module) :
    mCageSignalChange p absent fault los copper rates m =
      ((m.declare p (if absent then 0 else if copper then 2 else rates % 16)).writes
        (cageSignals p absent fault los copper)).judgeRate p fun n => absent || fault || n.mismatch p := rfl

theorem mCageSignalChange_shows {m : Module} (h : SMap.rising m.regs = true) {p : Nat} (front : p < 10)
    (absent fault los copper : Bool) (rates : Nat) {x : Fld × Nat} (signal : x ∈ cageSignals p absent fault los copper) :
    (mCageSignalChange p absent fault los copper rates m).rd x.1 = x.2 % 2 ^ x.1.width := by
  rw [mCageSignalChange_eq]
  refine Module.rd_judgeRate_writes (m := m.declare p _) h front ?_ ?_ _ signal
  · simp [cageSignals, Fld.key, R.MAC_STATUS_MOD_PRESENT, R.MAC_STATUS_TX_FAULT, R.MAC_STATUS_RX_LOS, R.MAC_STATUS_COPPER]
  · simp [cageSignals, portOwnFields]

/-- Without a module, or with its transmitter at fault, the link is lost (R127, R128). -/
theorem link_mCageSignalChange {m : Module} (h : SMap.rising m.regs = true) {p : Nat} (front : p < 10) {absent fault : Bool}
    (lost : absent = true ∨ fault = true) (los copper : Bool) (rates : Nat) :
    (mCageSignalChange p absent fault los copper rates m).isOn (R.MAC_STATUS_LINK p) = false := by
  rw [mCageSignalChange_eq]
  exact Module.link_judgeRate (Module.rising_writes (m := m.declare p _) h _) front fun n => by simp [lost]

/-- The fields that a write of MAC_CTRL sets at a front-panel port, each with its value (R126). -/
def ctrlFields (p v : Nat) : List (Fld × Nat) :=
  [(R.MAC_CTRL_EN p, v), (R.MAC_CTRL_SPEED p, bitsOf v 1 2), (R.MAC_CTRL_FEC p, bitsOf v 3 2), (R.MAC_CTRL_MAX_LEN p, bitsOf v 8 14)]

theorem mMacCtrlWrite_eq {m : Module} (run : m.mode ≠ .reset) {p : Nat} (front : p < 10) (v : Nat) : mMacCtrlWrite p v m =
    (m.writes (ctrlFields p v)).judgeRate p fun _ =>
      bitsOf v 1 2 != m.rd (R.MAC_CTRL_SPEED p) || bitsOf v 3 2 != m.rd (R.MAC_CTRL_FEC p) || !bitOf v 0 := by
  have other : p ≠ 10 := by omega
  rw [mMacCtrlWrite, if_neg run]
  simp only [if_neg other]
  rfl

theorem mMacCtrlWrite_sets {m : Module} (h : SMap.rising m.regs = true) (run : m.mode ≠ .reset) {p : Nat} (front : p < 10) (v : Nat)
    {x : Fld × Nat} (set : x ∈ ctrlFields p v) : (mMacCtrlWrite p v m).rd x.1 = x.2 % 2 ^ x.1.width := by
  rw [mMacCtrlWrite_eq run front]
  refine Module.rd_judgeRate_writes h front ?_ ?_ _ set
  · simp [ctrlFields, Fld.key, R.MAC_CTRL_EN, R.MAC_CTRL_SPEED, R.MAC_CTRL_FEC, R.MAC_CTRL_MAX_LEN]
  · simp [ctrlFields, portOwnFields]

/-- A port that is not enabled has no link (R127). -/
theorem link_mMacCtrlWrite {m : Module} (h : SMap.rising m.regs = true) (run : m.mode ≠ .reset) {p : Nat} (front : p < 10) {v : Nat}
    (off : bitOf v 0 = false) : (mMacCtrlWrite p v m).isOn (R.MAC_STATUS_LINK p) = false := by
  rw [mMacCtrlWrite_eq run front]
  exact Module.link_judgeRate (Module.rising_writes h _) front fun _ => by simp [off]

/-- The diagnostics of a fitted module (R72, R128). -/
theorem mSfpDiagRead_shows {m : Module} (h : SMap.rising m.regs = true) {p : Nat} (fitted : m.rd (R.MAC_STATUS_MOD_PRESENT p) = 1)
    (temp rx : Nat) (alarm : Bool) :
    (mSfpDiagRead p temp rx alarm m).rd (R.MAC_SFP_DIAG_TEMP p) = temp % 2 ^ 16 ∧
      (mSfpDiagRead p temp rx alarm m).rd (R.MAC_SFP_DIAG_RX_PWR p) = rx % 2 ^ 16 ∧
      (mSfpDiagRead p temp rx alarm m).rd (R.MAC_STATUS_TEMP_ALARM_STK p) =
        if alarm then 1 else m.rd (R.MAC_STATUS_TEMP_ALARM_STK p) := by
  have diag : mSfpDiagRead p temp rx alarm m =
      let n := (m.wr (R.MAC_SFP_DIAG_TEMP p) temp).wr (R.MAC_SFP_DIAG_RX_PWR p) rx
      if alarm then n.flag (R.MAC_STATUS_TEMP_ALARM_STK p) else n :=
    if_neg (by simp [Module.isOn, fitted])
  have apart : (R.MAC_SFP_DIAG_TEMP p).key ≠ (R.MAC_SFP_DIAG_RX_PWR p).key ∧
      (R.MAC_SFP_DIAG_TEMP p).key ≠ (R.MAC_STATUS_TEMP_ALARM_STK p).key ∧
      (R.MAC_SFP_DIAG_RX_PWR p).key ≠ (R.MAC_STATUS_TEMP_ALARM_STK p).key := by
    simp only [Fld.key, R.MAC_SFP_DIAG_TEMP, R.MAC_SFP_DIAG_RX_PWR, R.MAC_STATUS_TEMP_ALARM_STK]
    omega
  obtain ⟨tempRx, tempAlarm, rxAlarm⟩ := apart
  have shownTemp := (Module.rd_wr_other _ rx tempRx).trans (m.rd_wr_same h (R.MAC_SFP_DIAG_TEMP p) temp)
  have shownRx := (m.wr (R.MAC_SFP_DIAG_TEMP p) temp).rd_wr_same (Module.rising_wr h _ _) (R.MAC_SFP_DIAG_RX_PWR p) rx
  rw [diag]
  cases alarm with
  | false => exact ⟨shownTemp, shownRx, (Module.rd_wr_other _ rx rxAlarm.symm).trans (m.rd_wr_other temp tempAlarm.symm)⟩
  | true =>
    exact ⟨(Module.rd_wr_other _ 1 tempAlarm).trans shownTemp, (Module.rd_wr_other _ 1 rxAlarm).trans shownRx,
      Module.rd_wr_same _ (Module.rising_wr (Module.rising_wr h _ _) _ _) _ 1⟩

/-! ### Link up (R127, R137, R161, R162) -/

/-- The fields that show a link, each with what it shows. -/
def shownLink (p code : Nat) : List (Fld × Nat) :=
  [(R.MAC_STATUS_LINK p, 1), (R.MAC_STATUS_RATE p, code), (R.MAC_STATUS_HOLDING p, 0)]

/-- Shaping at link up shows in the switch's registers and the recorder's only. -/
theorem Module.from_linkShaping (m : Module) (p code : Nat) : m.From 0x400000 (m.linkShaping p code) := by
  have stat (k : Module) {f : Fld} (v : Nat)
      (of : f ∈ [R.SWC_PORT_STAT_SLOPE_CUT_STK p, R.SWC_PORT_STAT_BOUND_LOST p, R.SWC_PORT_STAT_BOUND_LOST_STK p]) :
      k.From 0x400000 (k.wr f v) := by
    simp only [List.mem_cons, List.not_mem_nil, or_false] at of
    rcases of with rfl | rfl | rfl <;> refine k.from_wr _ v ?_ ?_ <;>
      simp only [R.SWC_PORT_STAT_SLOPE_CUT_STK, R.SWC_PORT_STAT_BOUND_LOST, R.SWC_PORT_STAT_BOUND_LOST_STK] <;> omega
  have bound (k : Module) : k.From 0x400000
      (((k.flag (R.SWC_PORT_STAT_BOUND_LOST p)).flag (R.SWC_PORT_STAT_BOUND_LOST_STK p)).raise' 3 1 0 p) :=
    ((stat k 1 (by simp)).trans (stat _ 1 (by simp))).trans ((Module.from_raise' ..).mono (by decide))
  have slopes {P : Prop} [Decidable P] (x y : Sw) : m.From 0x400000
      (if P then { m with sw := x }.flag (R.SWC_PORT_STAT_SLOPE_CUT_STK p) else { m with sw := y }) :=
    .ite (.trans (.same rfl) (stat _ 1 (by simp))) (.same rfl)
  exact .ite ((slopes _ _).trans (stat _ 0 (by simp))) (.ite (slopes _ _) ((slopes _ _).trans (bound _)))

/-- A hold window that has run out when the link comes up ends first (R137). -/
def Module.endLateHold (m : Module) (p : Nat) : Module :=
  if (match m.sw.holdEnd.get? p with
    | some e => decide (e ≤ m.mono)
    | none => false) then m.endHold p else m

theorem Module.endLateHold_eq_or (m : Module) (p : Nat) : m.endLateHold p = m.endHold p ∨ m.endLateHold p = m :=
  ite_eq_or_eq _ _ _

/-- Ends the hold window at link up, with what is queued left to stand. -/
def Module.resume (m : Module) (p : Nat) : Module :=
  { m with sw := { m.sw with holdEnd := m.sw.holdEnd.erase p } }.clearPauses p

theorem Module.portLinkUp_eq {m : Module} {p : Nat} (may : m.mayLink p = true) (down : m.rd (R.MAC_STATUS_LINK p) = 0) :
    m.portLinkUp p =
      let n := m.endLateHold p
      let k := (n.writes (shownLink p (n.wantedRate p))).resume p
      if p < 10 then k.linkShaping p (n.wantedRate p) else k := by
  have opens : ¬((!m.mayLink p) = true ∨ m.isOn (R.MAC_STATUS_LINK p) = true) := by simp [Module.isOn, may, down]
  rw [Module.portLinkUp, if_neg opens]
  rfl

theorem shownLink_apart (p code : Nat) : ((shownLink p code).map (·.1.key)).Nodup := by
  simp [shownLink, Fld.key, R.MAC_STATUS_LINK, R.MAC_STATUS_RATE, R.MAC_STATUS_HOLDING]

theorem shownLink_place {p code : Nat} (front : p < 10) {x : Fld × Nat} (shows : x ∈ shownLink p code) :
    x.1.addr < 0x400000 ∧ x.1.lsb < 32 := by
  simp only [shownLink, List.mem_cons, List.not_mem_nil, or_false] at shows
  rcases shows with rfl | rfl | rfl <;> simp only [R.MAC_STATUS_LINK, R.MAC_STATUS_RATE, R.MAC_STATUS_HOLDING] <;> omega

/-- A late end of the hold window leaves the rate that the port wants. -/
theorem Module.wantedRate_endLateHold (m : Module) {p : Nat} (front : p < 10) : (m.endLateHold p).wantedRate p = m.wantedRate p := by
  obtain eq | eq := m.endLateHold_eq_or p <;> rw [eq]
  have speed : (m.endHold p).rd (R.MAC_CTRL_SPEED p) = m.rd (R.MAC_CTRL_SPEED p) :=
    (m.keeps_endHold (portFields_key_ne front (by simp [portLinkFields]) (by simp [portOwnFields]))
      (portFields_key_ne front (by simp [portLinkFields]) (by simp [portOwnFields]))).2
  rw [Module.wantedRate, Module.wantedRate, speed, m.declared_endHold]

theorem Module.rising_endLateHold {m : Module} (h : SMap.rising m.regs = true) (p : Nat) :
    SMap.rising (m.endLateHold p).regs = true := by
  obtain eq | eq := m.endLateHold_eq_or p <;> rw [eq]
  · exact Module.rising_endHold h p
  · exact h

theorem Module.rd_portLinkUp {m : Module} (h : SMap.rising m.regs = true) {p : Nat} (front : p < 10) (may : m.mayLink p = true)
    (down : m.rd (R.MAC_STATUS_LINK p) = 0) {x : Fld × Nat} (shows : x ∈ shownLink p (m.wantedRate p)) :
    (m.portLinkUp p).rd x.1 = x.2 % 2 ^ x.1.width := by
  obtain ⟨below, place⟩ := shownLink_place front shows
  simp only [Module.portLinkUp_eq may down, if_pos front, m.wantedRate_endLateHold front]
  exact ((Module.from_linkShaping _ p _).2 _ below place).trans
    (Module.rd_writes (Module.rising_endLateHold h p) (shownLink_apart p _) shows)

theorem mLinkUp_front {p : Nat} (front : p < 10) (m : Module) : mLinkUp p m = m.portLinkUp p := by
  have other : ¬10 < p := by omega
  have apart : p ≠ 10 := by omega
  simp [mLinkUp, other, apart]

theorem mLinkDown_front {p : Nat} (front : p < 10) (m : Module) : mLinkDown p m = m.portDown p := if_neg (by omega)

/-! ### HOLD_END (R137) -/

theorem mHoldEnd_ends {m : Module} {p e : Nat} (h : SMap.rising m.regs = true) (window : m.sw.holdEnd.get? p = some e)
    (still : m.sys.still = false) (rising : SMap.rising m.sw.queues = true) :
    (mHoldEnd p m).rd (R.MAC_STATUS_HOLDING p) = 0 ∧ (mHoldEnd p m).sw.holdEnd = m.sw.holdEnd.erase p ∧
      (mHoldEnd p m).mono = max m.mono e ∧
      (m.portUp (if m.inPair p then p / 2 * 2 else p) = false → ∀ q < 8, (mHoldEnd p m).queue (.cls p q) = []) := by
  have run : mHoldEnd p m = (m.reachMono e).endHold p := by rw [mHoldEnd, window]
  have regs : (m.reachMono e).regs = m.regs := m.reachMono_regs e
  have sw : (m.reachMono e).sw = m.sw := m.adv_sw _
  have mono : (m.reachMono e).mono = max m.mono e := Module.mono_reachMono still e
  rw [run]
  generalize m.reachMono e = n at regs sw mono
  refine ⟨Module.rd_endHold_holding (regs ▸ h) p, ?_, ?_, fun down q cls => ?_⟩
  · rw [n.holdEnd_endHold, sw]
  · rw [n.mono_endHold, mono]
  · have same (f : Fld) : n.rd f = m.rd f := Module.rd_congr regs f
    have pairs : ∀ k < 10, n.rd (R.MAC_CTRL_REDUND k) = m.rd (R.MAC_CTRL_REDUND k) := fun _ _ => same _
    have lost : n.portUp (if n.inPair p then p / 2 * 2 else p) = false := by
      rw [Module.inPair_congr pairs, Module.portUp_congr pairs fun _ _ f _ => same f, down]
    rw [Module.endHold_flushes lost]
    exact Module.queue_flushPort (m := n.closeHold p) (show SMap.rising n.sw.queues = true from sw ▸ rising) p cls

/-! ### MKA (R145) -/

/-- A message that the Steward takes from EP leaves the class queues there; nothing else of the module changes. -/
theorem Module.takeEp_eq (m : Module) (wanted : Copy → Bool) : ∃ x, m.takeEp wanted = { m with sw := x } := by
  unfold Module.takeEp
  cases [7, 6, 5, 4, 3, 2, 1, 0].find? fun q => (m.queue (.cls 11 q)).any wanted with
  | none => exact ⟨m.sw, rfl⟩
  | some q => exact ⟨_, rfl⟩

/-- Whether a port's CAK stands in a ready slot of MACsec keys (R451). -/
def Module.cakReady (m : Module) (p : Nat) : Bool :=
  match (m.keys.ports.get? p).bind (·.cak) with
  | some s => (m.slot s).state == .ready && (m.slot s).attr == 2
  | none => false

theorem Module.cakReady_of {m : Module} {p k : Nat} (cak : (m.keys.ports.get? p).bind (·.cak) = some k)
    (ready : (m.slot k).state = .ready) (attr : (m.slot k).attr = 2) : m.cakReady p = true := by
  simp [Module.cakReady, cak, ready, attr]

theorem Module.cakReady_congr {m n : Module} (keys : n.keys = m.keys) (p : Nat) : n.cakReady p = m.cakReady p := by
  unfold Module.cakReady Module.slot
  rw [keys]

/-- The Steward takes the port's EAPOL frame from EP. -/
def Module.takeEapol (m : Module) (p t : Nat) : Module :=
  let m := m.reach t
  if p < 10 then m.takeEp fun c => (ethOf c.bytes).etype == 0x888E && c.inp == (if m.inPair p then p / 2 * 2 else p) else m

theorem Module.regs_keys_takeEapol (m : Module) (p t : Nat) : (m.takeEapol p t).regs = m.regs ∧ (m.takeEapol p t).keys = m.keys := by
  have reach : (m.reach t).regs = m.regs ∧ (m.reach t).keys = m.keys := ⟨m.reach_regs t, m.adv_keys _⟩
  unfold Module.takeEapol
  dsimp only
  split
  · obtain ⟨_, took⟩ := (m.reach t).takeEp_eq _
    rw [took]
    exact reach
  · exact reach

/-- An SAK agreed with a peer that is the key server secures a front-panel port (R145). -/
theorem mEapolFrame_secures {m : Module} (h : SMap.rising m.regs = true) {p : Nat} (front : p < 10) (an t : Nat)
    (cak : m.cakReady p = true) (key : m.ready 12 = true) (sec : m.rd (R.MAC_CTRL_MACSEC_EN p) = 1)
    (link : m.rd (R.MAC_STATUS_LINK p) = 1) :
    (mEapolFrame p (some an) false t m).rd (R.MAC_SEC_STAT_SECURE p) = 1 ∧
      (mEapolFrame p (some an) false t m).rd (R.MAC_SEC_STAT_TX_AN p) = an % 2 := by
  have run : mEapolFrame p (some an) false t m =
      let n := m.takeEapol p t
      if 10 < p ∨ !n.ready 12 ∨ !n.isOn (R.MAC_CTRL_MACSEC_EN p) ∨ !n.isOn (R.MAC_STATUS_LINK p) ∨ !n.cakReady p ∨
        (false && n.rngFailed) then n
      else
        let k := (n.flag (R.MAC_SEC_STAT_SECURE p)).wr (R.MAC_SEC_STAT_TX_AN p) an
        if p = 10 ∧ !n.linkUp p then k.linkPair else k := rfl
  obtain ⟨regs, keys⟩ := m.regs_keys_takeEapol p t
  rw [run]
  generalize m.takeEapol p t = n at regs keys
  have same (f : Fld) : n.rd f = m.rd f := Module.rd_congr regs f
  have rising : SMap.rising n.regs = true := regs ▸ h
  have agreed : ¬(10 < p ∨ (!n.ready 12) = true ∨ (!n.isOn (R.MAC_CTRL_MACSEC_EN p)) = true ∨
      (!n.isOn (R.MAC_STATUS_LINK p)) = true ∨ (!n.cakReady p) = true ∨ (false && n.rngFailed) = true) := by
    have ready : n.ready 12 = true := (congrArg (bitOf · 12) (same _)).trans key
    simp [ready, Module.isOn, same, sec, link, Module.cakReady_congr keys, cak, Nat.le_of_lt front]
  have apart : (R.MAC_SEC_STAT_SECURE p).key ≠ (R.MAC_SEC_STAT_TX_AN p).key := by
    simp [Fld.key, R.MAC_SEC_STAT_SECURE, R.MAC_SEC_STAT_TX_AN]
  have other : p ≠ 10 := by omega
  simp only [if_neg agreed, other, false_and, if_false]
  exact ⟨(Module.rd_wr_other _ an apart).trans (n.rd_wr_same rising _ 1), Module.rd_wr_same _ (Module.rising_wr rising _ _) _ an⟩

@[simp] theorem Module.isOn_settle (m : Module) (f : Fld) : m.settle.isOn f = m.isOn f := by
  rw [Module.isOn, Module.rd_settle, Module.isOn]

/-- Settles O21, each clause from the lemmas about its command: what the cage registers show is assumption 37's, the end of the hold
window comes no sooner than its instant (assumption 6), and an EAPOL message is one decoded operand (assumptions 52 and 59). -/
theorem portEvents : Obligations.PortEvents := by
  intro s p front wf
  have h : SMap.rising s.m.regs = true := Module.rising_regs_of_wf wf
  refine ⟨fun absent fault los copper rates => ?_, fun temp rx alarm fitted => ?_, fun v run => ?_, fun may down => ?_,
    fun up => ?_, fun e window still rising => ?_, fun an t k cak ready attr key sec link => ?_⟩
  · refine completes_of_upd (f := mCageSignalChange p absent fault los copper rates) rfl ?_
    have shows := fun x => mCageSignalChange_shows h front absent fault los copper rates (x := x)
    simp only [cageSignals, List.forall_mem_cons] at shows
    obtain ⟨present, txFault, rxLos, isCopper, -⟩ := shows
    simp only [Module.rd_settle, Module.isOn_settle]
    exact ⟨present.trans (b2n_mod_two _), txFault.trans (b2n_mod_two _), rxLos.trans (b2n_mod_two _),
      isCopper.trans (b2n_mod_two _), fun lost => link_mCageSignalChange h front lost los copper rates⟩
  · refine completes_of_upd (f := mSfpDiagRead p temp rx alarm) rfl ?_
    simp only [Module.rd_settle]
    exact mSfpDiagRead_shows h fitted temp rx alarm
  · refine completes_of_upd (f := mMacCtrlWrite p v) rfl ?_
    have sets := fun x => mMacCtrlWrite_sets h run front v (x := x)
    simp only [ctrlFields, List.forall_mem_cons] at sets
    obtain ⟨en, speed, fec, len, -⟩ := sets
    simp only [Module.rd_settle, Module.isOn_settle]
    exact ⟨en, speed.trans (Nat.mod_mod _ _), fec.trans (Nat.mod_mod _ _), len.trans (Nat.mod_mod _ _),
      link_mMacCtrlWrite h run front⟩
  · refine completes_of_upd (f := mLinkUp p) rfl ?_
    have shows := fun x => Module.rd_portLinkUp h front may down (x := x)
    simp only [shownLink, List.forall_mem_cons] at shows
    obtain ⟨link, rate, holding, -⟩ := shows
    simp only [Module.rd_settle, mLinkUp_front front]
    exact ⟨link, rate, holding⟩
  · refine completes_of_upd (f := mLinkDown p) rfl ?_
    have on : s.m.isOn (R.MAC_STATUS_LINK p) = true := by simp [Module.isOn, up]
    have shows := fun x => Module.rd_portDown h front on (x := x)
    simp only [lostLink, List.forall_mem_cons] at shows
    obtain ⟨link, rate, sticky, secure, -⟩ := shows
    simp only [Module.rd_settle, Module.settle_sw, mLinkDown_front front]
    exact ⟨link, rate, sticky, secure, Module.portDown_holds h front on⟩
  · refine completes_of_upd (f := mHoldEnd p) rfl ?_
    simp only [Module.rd_settle]
    exact mHoldEnd_ends h window still rising
  · refine completes_of_upd (f := mEapolFrame p (some an) false t) rfl ?_
    simp only [Module.rd_settle]
    exact mEapolFrame_secures h front an t (Module.cakReady_of cak ready attr) key sec link

end Sys2Proof.Machine
end

section
/-!
PROOFS. What the switch decides by (R149 to R164), and what leaves it alone: time, the counters, the numbers of frames and the credits.
-/

namespace Sys2Proof.Machine
open Sys2Proof.Claims

/-! ### Counters -/

/-- A place among the counters of the ports or of the switch. -/
def Fld.isCount (f : Fld) : Prop :=
  (0x300100 ≤ f.addr ∧ f.addr < 0x3b0000 ∧ 0x100 ≤ f.addr % 0x10000) ∨ (0x404000 ≤ f.addr ∧ f.addr < 0x404300)

/-- n reads every field but those counters as m does. -/
def Module.Counts (m n : Module) : Prop := ∀ f : Fld, ¬f.isCount → f.lsb < 32 → n.rd f = m.rd f

theorem Module.Counts.trans {a b c : Module} (h : a.Counts b) (k : b.Counts c) : a.Counts c :=
  fun f other place => (k f other place).trans (h f other place)

theorem Module.Counts.same {m n : Module} (regs : n.regs = m.regs) : m.Counts n := fun f _ _ => Module.rd_congr regs f

theorem Module.counts_macCnt (m : Module) {p k : Nat} (port : p < 11) (kind : k < 16) : m.Counts (m.macCnt p k) := by
  intro f other place
  refine m.rd_bumpBy_other 1 ?_
  simp only [Fld.isCount] at other
  simp only [Fld.key, R.MAC_CNT_CNT]
  omega

theorem Module.counts_swCnt (m : Module) {p k : Nat} (port : p < 12) (kind : k < 16) : m.Counts (m.swCnt p k) := by
  intro f other place
  refine m.rd_bumpBy_other 1 ?_
  simp only [Fld.isCount] at other
  simp only [Fld.key, R.SWC_CNT_CNT]
  omega

theorem Module.Counts.isOn {m n : Module} (h : m.Counts n) {f : Fld} (other : ¬f.isCount) (place : f.lsb < 32) :
    n.isOn f = m.isOn f := by
  rw [Module.isOn, Module.isOn, h f other place]

/-! ### Credits (R161) -/

/-- Bringing the credits up to now changes nothing else. -/
theorem Module.syncCredits_eq (m : Module) (p : Nat) : ∃ x, m.syncCredits p = { m with sw := { m.sw with credits := x } } := by
  unfold Module.syncCredits
  split
  · exact ⟨m.sw.credits, rfl⟩
  · refine List.foldlRecOn [4, 5, 6] _ (motive := fun k : Module => ∃ x, k = { m with sw := { m.sw with credits := x } })
      ⟨m.sw.credits, rfl⟩ ?_
    rintro k ⟨x, eq⟩ q -
    split
    · exact ⟨x, eq⟩
    · rw [eq]
      exact ⟨_, rfl⟩

@[simp] theorem Module.regs_syncCredits (m : Module) (p : Nat) : (m.syncCredits p).regs = m.regs := by
  obtain ⟨_, eq⟩ := m.syncCredits_eq p
  rw [eq]

@[simp] theorem Module.mono_syncCredits (m : Module) (p : Nat) : (m.syncCredits p).mono = m.mono := by
  obtain ⟨_, eq⟩ := m.syncCredits_eq p
  rw [eq]

@[simp] theorem Module.pauses_syncCredits (m : Module) (p : Nat) : (m.syncCredits p).sw.pauses = m.sw.pauses := by
  obtain ⟨_, eq⟩ := m.syncCredits_eq p
  rw [eq]

theorem Module.counts_syncCredits (m : Module) (p : Nat) : m.Counts (m.syncCredits p) := .same (m.regs_syncCredits p)

/-! ### Ports -/

theorem Module.Counts.pairs {m n : Module} (h : m.Counts n) :
    ∀ p < 10, n.rd (R.MAC_CTRL_REDUND p) = m.rd (R.MAC_CTRL_REDUND p) := by
  intro p front
  refine h _ ?_ ?_ <;> simp only [Fld.isCount, R.MAC_CTRL_REDUND] <;> omega

theorem Module.Counts.ups {m n : Module} (h : m.Counts n) {p : Nat} (port : p < 11) : ∀ f ∈ upFields p, n.rd f = m.rd f := by
  simp only [upFields, List.forall_mem_cons]
  refine ⟨h _ ?_ ?_, h _ ?_ ?_, h _ ?_ ?_, by simp⟩ <;>
    simp only [Fld.isCount, R.MAC_STATUS_LINK, R.MAC_CTRL_MACSEC_EN, R.MAC_SEC_STAT_SECURE] <;> omega

theorem Module.Counts.linkUp {m n : Module} (h : m.Counts n) {p : Nat} (port : p < 11) : n.linkUp p = m.linkUp p :=
  Module.linkUp_congr (h.ups port)

theorem Module.Counts.portUp {m n : Module} (h : m.Counts n) {p : Nat} (front : p < 10) : n.portUp p = m.portUp p :=
  Module.portUp_congr h.pairs fun k near => h.ups (by omega)

theorem Module.Counts.inPair {m n : Module} (h : m.Counts n) (p : Nat) : n.inPair p = m.inPair p := Module.inPair_congr h.pairs p

theorem Module.Counts.upperOfPair {m n : Module} (h : m.Counts n) (p : Nat) : n.upperOfPair p = m.upperOfPair p := by
  rw [Module.upperOfPair, Module.upperOfPair, h.inPair]

/-! ### Classification, lookup and admission -/

/-- The switch without the numbers of its frames and without its credits. -/
def Sw.tables (x : Sw) : Sw := { x with credits := [], nextFid := 0 }

/-- n switches frames as m does: it may differ in the time, in counters, in the numbers of frames and in the credits. -/
structure Module.SwitchesAs (m n : Module) : Prop where
  counts : m.Counts n
  tables : n.sw.tables = m.sw.tables
  err : n.err = m.err
  cul : n.cul = m.cul

theorem Module.SwitchesAs.trans {a b c : Module} (h : a.SwitchesAs b) (k : b.SwitchesAs c) : a.SwitchesAs c :=
  ⟨h.counts.trans k.counts, k.tables.trans h.tables, k.err.trans h.err, k.cul.trans h.cul⟩

theorem Module.switchesAs_reach (m : Module) (t : Nat) : m.SwitchesAs (m.reach t) :=
  ⟨.same (m.reach_regs t), congrArg Sw.tables (m.adv_sw _), m.adv_err _, m.adv_cul _⟩

theorem Module.switchesAs_nextFrame (m : Module) : m.SwitchesAs m.nextFrame := ⟨.same rfl, rfl, rfl, rfl⟩

theorem Module.switchesAs_macCnt (m : Module) {p k : Nat} (port : p < 11) (kind : k < 16) : m.SwitchesAs (m.macCnt p k) :=
  ⟨m.counts_macCnt port kind, rfl, rfl, rfl⟩

theorem Module.switchesAs_swCnt (m : Module) {p k : Nat} (port : p < 12) (kind : k < 16) : m.SwitchesAs (m.swCnt p k) :=
  ⟨m.counts_swCnt port kind, rfl, rfl, rfl⟩

section
variable {m n : Module} (h : m.SwitchesAs n)
include h

theorem Module.SwitchesAs.queues : n.sw.queues = m.sw.queues := (congrArg Sw.queues h.tables :)
theorem Module.SwitchesAs.hpq : n.sw.hpq = m.sw.hpq := (congrArg Sw.hpq h.tables :)
theorem Module.SwitchesAs.cuts : n.sw.cuts = m.sw.cuts := (congrArg Sw.cuts h.tables :)
theorem Module.SwitchesAs.fdb : n.sw.fdb = m.sw.fdb := (congrArg Sw.fdb h.tables :)
theorem Module.SwitchesAs.mcg : n.sw.mcg = m.sw.mcg := (congrArg Sw.mcg h.tables :)
theorem Module.SwitchesAs.vlans : n.sw.vlans = m.sw.vlans := (congrArg Sw.vlans h.tables :)
theorem Module.SwitchesAs.hpSets : n.sw.hpSets = m.sw.hpSets := (congrArg Sw.hpSets h.tables :)

theorem Module.SwitchesAs.gone (kind i : Nat) : n.gone kind i = m.gone kind i := by
  rw [Module.gone, Module.gone, h.err]

theorem Module.SwitchesAs.hpSet (s : Nat) : n.hpSet s = m.hpSet s := by
  simp only [Module.hpSet, h.hpSets]

theorem Module.SwitchesAs.lookupGone (dst vid : Nat) (v : VlanEntry) : n.lookupGone dst vid v = m.lookupGone dst vid v := by
  simp only [Module.lookupGone, h.fdb, h.mcg, h.gone]

/-- Classification (R149). -/
theorem Module.SwitchesAs.classify {p : Nat} (port : p < 12) (e : Eth) : n.classify p e = m.classify p e := by
  have pvid : n.rd (R.SWC_PORT_CFG_PVID p) = m.rd (R.SWC_PORT_CFG_PVID p) := by
    refine h.counts _ ?_ ?_ <;> simp only [Fld.isCount, R.SWC_PORT_CFG_PVID] <;> omega
  have pcp : n.rd (R.SWC_PORT_CFG_DEF_PCP p) = m.rd (R.SWC_PORT_CFG_DEF_PCP p) := by
    refine h.counts _ ?_ ?_ <;> simp only [Fld.isCount, R.SWC_PORT_CFG_DEF_PCP] <;> omega
  have filter : n.isOn (R.SWC_PORT_CFG_ING_FILTER p) = m.isOn (R.SWC_PORT_CFG_ING_FILTER p) := by
    refine h.counts.isOn ?_ ?_ <;> simp only [Fld.isCount, R.SWC_PORT_CFG_ING_FILTER] <;> omega
  have vidPcp : n.vidPcp p e = m.vidPcp p e := by simp only [Module.vidPcp, pvid, pcp]
  simp only [Module.classify, vidPcp, h.vlans, h.gone, filter]

/-- Table 6.3, without what it counts. -/
theorem Module.SwitchesAs.lookup (p dst vid : Nat) (v : VlanEntry) : (n.lookup p dst vid v).1 = (m.lookup p dst vid v).1 := by
  simp only [Module.lookup, h.lookupGone, h.fdb, h.mcg, h.hpSet]
  split
  · rfl
  · split
    · split <;> rfl
    · split <;> rfl

theorem Module.SwitchesAs.dests (p : Nat) (v : VlanEntry) (l : Lookup) : n.dests p v l = m.dests p v l := by
  simp only [Module.dests, h.counts.upperOfPair, h.counts.inPair]

theorem Module.SwitchesAs.queue (j : QId) : n.queue j = m.queue j := by
  cases j <;> simp only [Module.queue, h.queues, h.hpq]

theorem Module.SwitchesAs.used (j : QId) : n.used j = m.used j := by
  have cells : n.cutCells j = m.cutCells j := by cases j <;> simp only [Module.cutCells, h.cuts]
  rw [Module.used, Module.used, h.queue, cells]

end

/-- A queue of a switch port, or any HP queue. -/
def QId.valid : QId → Prop
  | .cls p q => p < 12 ∧ q < 8
  | .hp _ => True

theorem QId.valid_of_classQueues {j : QId} (mem : j ∈ classQueues) : j.valid := by
  simp only [classQueues, List.mem_flatMap, List.mem_append, List.mem_range, List.mem_singleton, List.mem_map] at mem
  obtain ⟨p, port, q, cls, rfl⟩ := mem
  exact ⟨by omega, cls⟩

theorem Module.Counts.guar {m n : Module} (h : m.Counts n) {j : QId} (valid : j.valid) : n.guar j = m.guar j := by
  cases j with
  | cls p q =>
    obtain ⟨port, cls⟩ := valid
    refine h _ ?_ ?_ <;> simp only [Fld.isCount, R.SWC_Q_CFG_MIN_CELLS] <;> omega
  | hp i => refine h _ ?_ ?_ <;> simp only [Fld.isCount, R.INS_INST_SHARE_HP_HP_MIN] <;> omega

theorem Module.Counts.alpha {m n : Module} (h : m.Counts n) {j : QId} (valid : j.valid) : n.alpha j = m.alpha j := by
  cases j with
  | cls p q =>
    obtain ⟨port, cls⟩ := valid
    refine h _ ?_ ?_ <;> simp only [Fld.isCount, R.SWC_Q_CFG_ALPHA] <;> omega
  | hp i => refine h _ ?_ ?_ <;> simp only [Fld.isCount, R.INS_INST_SHARE_HP_HP_WEIGHT] <;> omega

section
variable {m n : Module} (h : m.SwitchesAs n)
include h

theorem Module.SwitchesAs.instances : n.instances = m.instances := by
  have admitted (i : Nat) : n.instAdmitted i = m.instAdmitted i := by
    have state : n.rd (R.INS_INST_STAT_STATE i) = m.rd (R.INS_INST_STAT_STATE i) := by
      refine h.counts _ ?_ ?_ <;> simp only [Fld.isCount, R.INS_INST_STAT_STATE] <;> omega
    rw [Module.instAdmitted, Module.instAdmitted, state]
  simp only [Module.instances, h.cul, funext admitted]

/-- F of R164. -/
theorem Module.SwitchesAs.shared : n.shared = m.shared := by
  have guar (a : Nat) : ∀ j ∈ classQueues, a + n.guar j = a + m.guar j := fun j mem => by
    rw [h.counts.guar (QId.valid_of_classQueues mem)]
  have excess (a : Nat) : ∀ j ∈ classQueues, a + (m.used j - n.guar j) = a + (m.used j - m.guar j) := fun j mem => by
    rw [h.counts.guar (QId.valid_of_classQueues mem)]
  have hp (i : Nat) : n.guar (.hp i) = m.guar (.hp i) := h.counts.guar trivial
  simp only [Module.shared, Module.pool, Module.minSum, List.foldl_ext _ _ _ guar, List.foldl_ext _ _ _ excess, hp, h.used,
    h.instances, h.hpq]

/-- The admission rule of R164. -/
theorem Module.SwitchesAs.admits {j : QId} (valid : j.valid) (cells : Nat) : n.admits j cells = m.admits j cells := by
  rw [Module.admits, Module.admits, h.used, h.counts.guar valid, h.counts.alpha valid, h.shared]

end

end Sys2Proof.Machine
end

section
/-!
PROOFS. Pauses and their end, the timestamp queue, supervision frames and the duplicate table of a port (R134 to R136, R138, R142).
-/

namespace Sys2Proof.Machine
open Sys2Proof.Claims

/-! ### Pauses (R134 to R136) -/

/-- Sets the end of a class's pause. -/
def Module.setPause (m : Module) (p q e : Nat) : Module :=
  { m with sw := { m.sw with pauses := m.sw.pauses.set (8 * p + q) e } }

/-- Where each step pauses one class to the same instant, so does each class that the fold runs over. -/
theorem Module.foldl_setPause {f : Module → Nat → Module} {n : Module} {p e : Nat}
    (step : ∀ (k : Module) (q : Nat), k.regs = n.regs → k.mono = n.mono → f k q = k.setPause p q e) {l : List Nat} {k : Module}
    (regs : k.regs = n.regs) (mono : k.mono = n.mono) : l.foldl f k = l.foldl (fun k q => k.setPause p q e) k := by
  induction l generalizing k with
  | nil => rfl
  | cons q r ih =>
    rw [List.foldl_cons, List.foldl_cons, step k q regs mono]
    exact ih regs mono

/-- Every class that a fold pauses is paused, to the instant that the fold names. -/
theorem Module.pauses_foldl_setPause (k : Module) (p e : Nat) {l : List Nat} {q : Nat} (mem : q ∈ l) :
    (l.foldl (fun k q => k.setPause p q e) k).sw.pauses.get? (8 * p + q) = some e := by
  refine foldl_reaches (p := fun k : Module => k.sw.pauses.get? (8 * p + q) = some e) mem
    (fun k => SMap.get?_set_same _ _ _) (fun k x held => ?_) k
  refine (SMap.get?_set _ _ _ _).trans ?_
  split
  · rfl
  · exact held

theorem Module.mono_foldl_setPause (k : Module) (p e : Nat) (l : List Nat) :
    (l.foldl (fun k q => k.setPause p q e) k).mono = k.mono :=
  foldl_fixed_of Module.mono (f := fun k q => k.setPause p q e) (fun _ _ => rfl) l k

/-- The module as a PAUSE frame finds it at t: the frame is counted, the credits stand as of then. -/
def Module.pauseMet (m : Module) (p t : Nat) : Module := ((m.reach t).macCnt p 5).syncCredits p

theorem Module.counts_pauseMet (m : Module) {p : Nat} (front : p < 10) (t : Nat) : m.Counts (m.pauseMet p t) :=
  ((Module.Counts.same (m.reach_regs t)).trans (Module.counts_macCnt _ (by omega) (by decide))).trans (Module.counts_syncCredits _ p)

/-- A PAUSE frame that its port heeds pauses each class, where the port ignores none (R134, R135). -/
theorem mPauseFrame_eq {m : Module} {p n : Nat} (front : p < 10) (more : n ≠ 0) (link : m.rd (R.MAC_STATUS_LINK p) = 1)
    (en : m.rd (R.MAC_PAUSE_CFG_RX_PAUSE_EN p) = 1) (heed : m.rd (R.MAC_PAUSE_CFG_IGN_PAUSE p) = 0) (t : Nat) :
    mPauseFrame p false 0xFF [n] t m = (List.range 8).foldl
      (fun k q => k.setPause p q ((m.pauseMet p t).mono + n * 512 * nsUnit / m.runRate p)) (m.pauseMet p t) := by
  have counted : m.Counts ((m.reach t).macCnt p 5) :=
    (Module.Counts.same (m.reach_regs t)).trans (Module.counts_macCnt _ (by omega) (by decide))
  have up : ¬(!(m.reach t).isOn (R.MAC_STATUS_LINK p)) = true := by
    rw [Module.isOn, Module.rd_congr (m.reach_regs t), link]
    decide
  have heard : ¬(p = 10 ∨ (!((m.reach t).macCnt p 5).isOn (R.MAC_PAUSE_CFG_RX_PAUSE_EN p)) = true) := by
    have on : ((m.reach t).macCnt p 5).rd (R.MAC_PAUSE_CFG_RX_PAUSE_EN p) = 1 := by
      refine (counted _ ?_ ?_).trans en <;> simp only [Fld.isCount, R.MAC_PAUSE_CFG_RX_PAUSE_EN] <;> omega
    have other : p ≠ 10 := by omega
    simp [Module.isOn, on, other]
  have rate : (m.pauseMet p t).runRate p = m.runRate p := by
    refine congrArg rateOf (m.counts_pauseMet front t _ ?_ ?_) <;> simp only [Fld.isCount, R.MAC_STATUS_RATE] <;> omega
  have ignores : (m.pauseMet p t).rd (R.MAC_PAUSE_CFG_IGN_PAUSE p) = 0 := by
    refine (m.counts_pauseMet front t _ ?_ ?_).trans heed <;> simp only [Fld.isCount, R.MAC_PAUSE_CFG_IGN_PAUSE] <;> omega
  rw [mPauseFrame, if_neg up]
  refine (if_neg heard).trans (Module.foldl_setPause (n := m.pauseMet p t) (fun k q regs mono => ?_) rfl rfl)
  have heeds : k.rd (R.MAC_PAUSE_CFG_IGN_PAUSE p) = 0 := (Module.rd_congr regs _).trans ignores
  have bit : bitOf 0 q = false := by simp [bitOf_eq_testBit]
  have time : (m.pauseMet p t).mono = k.mono := mono.symm
  rw [time, ← rate]
  simp [heeds, bit, more, Module.setPause, Module.pauseMet]

/-- Each class is paused for the frame's time from when the frame is met. -/
theorem mPauseFrame_pauses {m : Module} {p n : Nat} (front : p < 10) (more : n ≠ 0) (link : m.rd (R.MAC_STATUS_LINK p) = 1)
    (en : m.rd (R.MAC_PAUSE_CFG_RX_PAUSE_EN p) = 1) (heed : m.rd (R.MAC_PAUSE_CFG_IGN_PAUSE p) = 0) (t : Nat) {q : Nat} (cls : q < 8) :
    (mPauseFrame p false 0xFF [n] t m).sw.pauses.get? (8 * p + q) =
      some ((mPauseFrame p false 0xFF [n] t m).mono + n * 512 * nsUnit / m.runRate p) := by
  rw [mPauseFrame_eq front more link en heed, Module.mono_foldl_setPause]
  exact Module.pauses_foldl_setPause _ p _ (List.mem_range.mpr cls)

/-- PAUSE_EXPIRY comes no sooner than the end of the pause. -/
theorem mPauseExpiry_ends {m : Module} {p q e : Nat} (paused : m.sw.pauses.get? (8 * p + q) = some e) (still : m.sys.still = false) :
    (mPauseExpiry p q m).sw.pauses = m.sw.pauses.erase (8 * p + q) ∧ (mPauseExpiry p q m).mono = max m.mono e := by
  have run : mPauseExpiry p q m =
      let n := (m.reachMono e).syncCredits p
      { n with sw := { n.sw with pauses := n.sw.pauses.erase (8 * p + q) } } := by rw [mPauseExpiry, paused]
  have sw : (m.reachMono e).sw = m.sw := m.adv_sw _
  rw [run]
  exact ⟨congrArg (SMap.erase · (8 * p + q)) ((Module.pauses_syncCredits _ p).trans (congrArg Sw.pauses sw)),
    (Module.mono_syncCredits _ p).trans (Module.mono_reachMono still e)⟩

/-! ### Timestamps, supervision and duplicates (R138, R142) -/

theorem mTsqPop_pops {m : Module} (run : m.mode ≠ .reset) (p : Nat) :
    (mTsqPop p m).sw.tsq.getD p [] = (m.sw.tsq.getD p []).drop 1 ∧
      ∀ n, n ≠ p → (mTsqPop p m).sw.tsq.getD n [] = m.sw.tsq.getD n [] := by
  rw [mTsqPop, if_neg run]
  exact ⟨SMap.getD_set_same _ _ _ _, fun n other => by rw [SMap.getD, SMap.get?_set_other _ _ other, SMap.getD]⟩

/-- Sends a redundant pair's supervision frame at port k and counts it there. -/
def Module.supervise (m : Module) (p k : Nat) : Module := (m.emit (.supervision k (m.redund p))).macCnt k 6

theorem Module.counts_supervise (m : Module) (p : Nat) {k : Nat} (port : k < 11) : m.Counts (m.supervise p k) :=
  .trans (.same rfl) (Module.counts_macCnt _ port (by decide))

/-- A redundant pair whose links are up sends its supervision frame on both ports (R142). -/
theorem mSupervisionSend_sends {m : Module} {p : Nat} (pair : m.redund p ≠ 0) (on : m.swOn = true) (low : m.linkUp p = true)
    (high : m.linkUp (p + 1) = true) :
    (mSupervisionSend p m).out = m.out ++ [.supervision p (m.redund p), .supervision (p + 1) (m.redund p)] := by
  have front : p < 10 := by
    by_contra other
    exact pair (if_neg fun h => other h.1)
  have sent := m.counts_supervise p (k := p) (by omega)
  have run : mSupervisionSend p m = (m.supervise p p).supervise p (p + 1) := by
    have still : (m.supervise p p).linkUp (p + 1) = true := (sent.linkUp (by omega)).trans high
    rw [mSupervisionSend, if_neg (by simp [pair, on])]
    simp only [low, if_true]
    exact if_pos still
  have mode : (m.supervise p p).redund p = m.redund p := Module.redund_congr sent.pairs p
  rw [run]
  show (m.out ++ [.supervision p (m.redund p)]) ++ [.supervision (p + 1) ((m.supervise p p).redund p)] = _
  rw [mode, List.append_assoc]
  rfl

/-- DUPLICATE_ENTRY_EXPIRY comes no sooner than 400 ms after the entry was made. -/
theorem mDuplicateEntryExpiry_forgets {m : Module} {p a b e : Nat} {r : List (Nat × Nat × Nat)}
    (held : m.sw.dups.get? p = some ((a, b, e) :: r)) (still : m.sys.still = false) :
    (mDuplicateEntryExpiry p m).sw.dups.getD p [] = r ∧ (mDuplicateEntryExpiry p m).mono = max m.mono e := by
  have run : mDuplicateEntryExpiry p m = { m.reachMono e with sw := { m.sw with dups := m.sw.dups.set p r } } := by
    rw [mDuplicateEntryExpiry, SMap.getD, held]
    rfl
  rw [run]
  exact ⟨SMap.getD_set_same _ _ _ _, Module.mono_reachMono still e⟩

/-- Settles O22, each clause from the lemma about its command: a PAUSE frame is one decoded operand (assumption 59), and pauses and
duplicate entries end no sooner than their instants (assumption 6). -/
theorem portQueues : Obligations.PortQueues := by
  refine ⟨fun s p n t front more link en heed => ?_, fun s p q e paused still => ?_, fun s p run => ?_,
    fun s p pair on low high => ?_, fun s p a b e r held still => ?_⟩
  · exact completes_of_upd (f := mPauseFrame p false 0xFF [n] t) rfl fun q cls =>
      mPauseFrame_pauses front more link en heed t cls
  · exact completes_of_upd (f := mPauseExpiry p q) rfl (mPauseExpiry_ends paused still)
  · exact completes_of_upd (f := mTsqPop p) rfl (mTsqPop_pops run p)
  · exact completes_of_upd (f := mSupervisionSend p) rfl (mSupervisionSend_sends pair on low high)
  · exact completes_of_upd (f := mDuplicateEntryExpiry p) rfl (mDuplicateEntryExpiry_forgets held still)

end Sys2Proof.Machine
end

section
/-!
PROOFS. A frame from its arrival to its start at a port (R133, R152, R157, R160, R164).
-/

namespace Sys2Proof.Machine
open Sys2Proof.Claims

/-! ### The start of a frame (R133, R160) -/

/-- The head of a class that is not paused and has no age limit may start. -/
theorem Module.headOf_of_ageless {m : Module} {p q : Nat} {c : Copy} {r : List Copy} (unpaused : m.sw.pauses.get? (8 * p + q) = none)
    (ageless : m.rd (R.MAC_AGE_AGE_US p q) = 0) (waits : m.queue (.cls p q) = c :: r) : m.headOf p q = (some c, m) := by
  have fresh (k : Nat) : m.dropAged p q k = m := by
    cases k with
    | zero => rfl
    | succ k => simp [Module.dropAged, waits, ageless]
  simp [Module.headOf, Module.paused, unpaused, fresh, waits]

/-- Class 7 goes before every other class. -/
theorem Module.pickClass_seven {m : Module} {p : Nat} {c : Copy} (head : m.headOf p 7 = (some c, m)) :
    m.pickClass p = (some 7, m) := by
  simp [Module.pickClass, head]

/-- Sends a copy as it is and counts it, before any timestamp is taken. -/
def Module.sendCopy (m : Module) (p : Nat) (c : Copy) : Module := (m.emit (.frame p c.bytes m.tns)).macCnt p 6

/-- A port outside a redundant pair that is up sends a copy as it is, and takes its timestamp where one is asked for (R138). -/
theorem Module.transmit_eq_or {m : Module} {p : Nat} (up : m.linkUp p = true) (alone : m.inPair p = false) (c : Copy) :
    m.transmit p c = m.sendCopy p c ∨ ∃ i s, m.transmit p c = (m.sendCopy p c).stampEntry p i s c.cls := by
  unfold Module.transmit
  rw [if_neg (by simp [up])]
  simp only [alone, Bool.false_eq_true, if_false]
  cases c.stamp with
  | none => exact .inl rfl
  | some x => exact .inr ⟨x.1, x.2, rfl⟩

theorem Module.stampEntry_eq (m : Module) (p i s cls : Nat) :
    ∃ regs tsq, m.stampEntry p i s cls = { m with regs := regs, sw := { m.sw with tsq := tsq } } := by
  unfold Module.stampEntry
  dsimp only
  split
  · exact ⟨_, m.sw.tsq, rfl⟩
  · exact ⟨m.regs, _, rfl⟩

/-- Sending a copy changes registers and timestamps, and appends the frame to what leaves the module. -/
theorem Module.transmit_eq {m : Module} {p : Nat} (up : m.linkUp p = true) (alone : m.inPair p = false) (c : Copy) :
    ∃ regs tsq, m.transmit p c =
      { m with regs := regs, sw := { m.sw with tsq := tsq }, out := m.out ++ [.frame p c.bytes m.tns] } := by
  obtain eq | ⟨i, s, eq⟩ := Module.transmit_eq_or up alone c <;> rw [eq]
  · exact ⟨_, m.sw.tsq, rfl⟩
  · obtain ⟨_, _, stamped⟩ := (m.sendCopy p c).stampEntry_eq p i s c.cls
    rw [stamped]
    exact ⟨_, _, rfl⟩

/-- Sending a copy changes no port's pairing. -/
theorem Module.redund_transmit {m : Module} {p : Nat} (front : p < 10) (up : m.linkUp p = true) (alone : m.inPair p = false)
    (c : Copy) (n : Nat) : (m.transmit p c).redund n = m.redund n := by
  have sent : m.Counts (m.sendCopy p c) := .trans (.same rfl) (Module.counts_macCnt _ (by omega) (by decide))
  refine (Module.redund_congr (fun k small => ?_) n).trans (Module.redund_congr sent.pairs n)
  obtain eq | ⟨i, s, eq⟩ := Module.transmit_eq_or up alone c <;> rw [eq]
  unfold Module.stampEntry
  dsimp only
  split
  · refine (Module.rd_wr_other _ 1 ?_).trans ((Module.counts_macCnt _ (by omega) (by decide)).pairs k small)
    simp only [Fld.key, R.MAC_CTRL_REDUND, R.MAC_STATUS_TSQ_OVF_STK]
    omega
  · rfl

/-- A front-panel port outside every pair has no redundancy of its own. -/
theorem Module.redund_of_alone {m : Module} {p : Nat} (front : p < 10) (alone : m.inPair p = false) : m.redund p = 0 := by
  rcases Nat.mod_two_eq_zero_or_one p with even | odd
  · have low : p / 2 * 2 = p := by omega
    simpa [Module.inPair, front, low] using alone
  · exact if_neg (by omega)

/-- Waits for the end of the frame on a port's wire. -/
def Module.awaitWire (m : Module) (p : Nat) : Module :=
  match m.sw.wire.get? p with
  | some (e, _) => m.reachMono e
  | none => m

theorem Module.awaitWire_eq (m : Module) (p : Nat) : ∃ clk mono, m.awaitWire p = { m with clk := clk, mono := mono } := by
  unfold Module.awaitWire
  split
  · dsimp only [Module.reachMono, Module.adv]
    split
    · exact ⟨m.clk, m.mono, rfl⟩
    · exact ⟨_, _, rfl⟩
  · exact ⟨m.clk, m.mono, rfl⟩

/-- The module as the scheduler finds it: the wire of the port is free, and the credits stand as of then. -/
def Module.wireFree (m : Module) (p : Nat) : Module := (m.awaitWire p).syncCredits p

theorem Module.wireFree_eq (m : Module) (p : Nat) :
    ∃ clk mono x, m.wireFree p = { m with clk := clk, mono := mono, sw := { m.sw with credits := x } } := by
  obtain ⟨clk, mono, eq⟩ := m.awaitWire_eq p
  obtain ⟨x, synced⟩ := (m.awaitWire p).syncCredits_eq p
  rw [Module.wireFree, synced, eq]
  exact ⟨clk, mono, x, rfl⟩

/-- Takes a frame of class q off its queue, r being the rest, onto the port's wire until e. -/
def Module.takeFrame (m : Module) (p q e : Nat) (r : List Copy) : Module :=
  let k := m.setQueue (.cls p q) r
  { k with sw := { k.sw with wire := k.sw.wire.set p (e, q) } }

/-- A port outside every pair sends the frame that its scheduler picks. -/
theorem mFrameStart_of_pick {m : Module} {p q : Nat} {c : Copy} {r : List Copy} (on : m.swOn = true) (free : m.sys.held = false)
    (front : p < 10) (alone : m.inPair p = false) (up : m.linkUp p = true)
    (pick : (m.wireFree p).pickClass p = (some q, m.wireFree p)) (waits : (m.wireFree p).queue (.cls p q) = c :: r)
    (single : ∀ e, (((m.wireFree p).takeFrame p q e r).transmit p c).redund p = 0) :
    ∃ e, mFrameStart p m = ((m.wireFree p).takeFrame p q e r).transmit p c := by
  have starts : ¬((!m.swOn) = true ∨ m.sys.held = true ∨ 10 ≤ p ∨ m.upperOfPair p = true ∨ (!m.portUp p) = true) := by
    simp [on, free, front, Module.upperOfPair, alone, Module.portUp, up]
  rw [mFrameStart, if_neg starts]
  extract_lets awaited found
  have same : found = m.wireFree p := rfl
  rw [same, pick]
  dsimp -zeta only
  rw [waits]
  exact ⟨_, if_neg fun h => h (single _)⟩

/-- A frame that waits in class 7 of a port starts at once, whatever waits in the other classes (R133, R160): a copy leaves, the rest of
the queue stays, and the wire is the class's. -/
theorem mFrameStart_sends {m : Module} {p : Nat} {c : Copy} {r : List Copy} (front : p < 10) (on : m.swOn = true)
    (free : m.sys.held = false) (alone : m.inPair p = false) (up : m.linkUp p = true)
    (unpaused : m.sw.pauses.get? (8 * p + 7) = none) (ageless : m.rd (R.MAC_AGE_AGE_US p 7) = 0)
    (waits : m.queue (.cls p 7) = c :: r) : ∃ clk mono regs e x tsq, mFrameStart p m =
      { m with
        clk := clk, mono := mono, regs := regs, out := m.out ++ [.frame p c.bytes (clk / nsUnit)]
        sw := { m.sw with
          queues := putQ m.sw.queues (8 * p + 7) r, wire := m.sw.wire.set p (e, 7), credits := x, tsq := tsq } } := by
  obtain ⟨clk, mono, x, found⟩ := m.wireFree_eq p
  have regs : (m.wireFree p).regs = m.regs := by rw [found]
  have queue : (m.wireFree p).queue (.cls p 7) = c :: r := by rw [found]; exact waits
  have head : (m.wireFree p).headOf p 7 = (some c, m.wireFree p) :=
    Module.headOf_of_ageless (by rw [found]; exact unpaused) ((Module.rd_congr regs _).trans ageless) queue
  have same (e : Nat) : m.Counts ((m.wireFree p).takeFrame p 7 e r) := .same regs
  have link (e : Nat) := ((same e).linkUp (p := p) (by omega)).trans up
  have pair (e : Nat) := ((same e).inPair p).trans alone
  obtain ⟨e, run⟩ := mFrameStart_of_pick on free front alone up (Module.pickClass_seven head) queue fun e =>
    (Module.redund_transmit front (link e) (pair e) c p).trans
      ((Module.redund_congr (same e).pairs p).trans (Module.redund_of_alone front alone))
  obtain ⟨_, _, sent⟩ := Module.transmit_eq (link e) (pair e) c
  rw [run, sent, found]
  exact ⟨_, _, _, _, _, _, rfl⟩

theorem frameStartClaim : FrameStartClaim := by
  intro s p c r front on free alone up unpaused ageless waits rising
  refine completes_of_upd (f := mFrameStart p) rfl ?_
  obtain ⟨clk, mono, regs, e, x, tsq, run⟩ := mFrameStart_sends front on free alone up unpaused ageless waits
  rw [run]
  refine ⟨rfl, SMap.getD_putQ_same (fun _ => rising) _, ?_, fun n q cls other => ?_, fun i => rfl⟩
  · exact congrArg (Option.map Prod.snd) (SMap.get?_set_same _ _ _)
  · refine SMap.getD_putQ_other _ r fun same => other ?_
    have port : n = p := by omega
    have seven : q = 7 := by omega
    rw [port, seven]

/-! ### A frame with one known destination (R149, R152, R159) -/

/-- Which frames are diverted (Table 6.2) does not depend on the module: PTP, EAPOL, LLDP and link-local ones. -/
theorem Module.divert_isNone_iff (m : Module) (p : Nat) (b : Bytes) (e : Eth) (ts : Nat) : (m.divert p b e ts).isNone = true ↔
    ¬(e.etype = 0x88F7 ∨ e.etype = 0x888E) ∧ e.etype ≠ 0x88CC ∧ ¬(0x0180C2000000 ≤ e.dst ∧ e.dst ≤ 0x0180C200000F) := by
  unfold Module.divert
  dsimp only
  split
  case isTrue steward => split <;> simp [steward]
  case isFalse other =>
    split
    case isTrue lldp =>
      split
      · simp [lldp]
      · split <;> simp [lldp]
    case isFalse plain =>
      split
      case isTrue near => simp [near]
      case isFalse far => simpa [plain, far] using not_or.mp other

/-- A frame that is not diverted in one state of the module is diverted in none. -/
theorem Module.divert_eq_none {m : Module} {p : Nat} {b : Bytes} {e : Eth} {ts : Nat} (through : (m.divert p b e ts).isNone = true)
    (k : Module) : k.divert p b e ts = none :=
  Option.isNone_iff_eq_none.mp ((k.divert_isNone_iff p b e ts).mpr ((m.divert_isNone_iff p b e ts).mp through))

/-- A frame that comes in at port p as c says goes to port n alone, in class q; no port is mirrored. -/
structure Module.Routes (m : Module) (p : Nat) (e : Eth) (c : Classed) (n q : Nat) : Prop where
  classified : m.classify p e = some c
  cls : bitsOf (m.rd (R.SWC_PCP_MAP_MAP p)) (3 * c.pcp) 3 = q
  known : m.dests p c.vlan (m.lookup p e.dst c.vid c.vlan).1 = [.inl n]
  up : m.portUp n = true
  unmirrored : ∀ k < 4, m.isOn (R.SWC_MIR0_EN k) = false

theorem mirrorEn_place {k : Nat} (session : k < 4) : ¬(R.SWC_MIR0_EN k).isCount ∧ (R.SWC_MIR0_EN k).lsb < 32 := by
  simp only [Fld.isCount, R.SWC_MIR0_EN]
  omega

theorem Module.Routes.of_switchesAs {m k : Module} {p : Nat} {e : Eth} {c : Classed} {n q : Nat} (route : m.Routes p e c n q)
    (h : m.SwitchesAs k) (port : p < 10) (dest : n < 10) : k.Routes p e c n q where
  classified := (h.classify (by omega) e).trans route.classified
  cls := by
    have map : k.rd (R.SWC_PCP_MAP_MAP p) = m.rd (R.SWC_PCP_MAP_MAP p) := by
      refine h.counts _ ?_ ?_ <;> simp only [Fld.isCount, R.SWC_PCP_MAP_MAP] <;> omega
    rw [map, route.cls]
  known := by rw [h.dests, h.lookup, route.known]
  up := (h.counts.portUp dest).trans route.up
  unmirrored := fun _ small =>
    (h.counts.isOn (mirrorEn_place small).1 (mirrorEn_place small).2).trans (route.unmirrored _ small)

/-- A lookup counts under k = 3 or 4, or not at all (R152). -/
theorem Module.lookup_snd (m : Module) (p dst vid : Nat) (v : VlanEntry) :
    (m.lookup p dst vid v).2 = m ∨ ∃ k < 16, (m.lookup p dst vid v).2 = m.swCnt p k := by
  unfold Module.lookup
  dsimp only
  split
  · exact .inl rfl
  · split
    · split <;> exact .inl rfl
    · split
      · exact (ite_eq_or_eq (v.umc = 0) (m.swCnt p 4) m).symm.imp id fun eq => ⟨4, by decide, eq⟩
      · exact .inr ⟨3, by decide, rfl⟩

theorem Module.switchesAs_lookup (m : Module) {p : Nat} (port : p < 12) (dst vid : Nat) (v : VlanEntry) :
    m.SwitchesAs (m.lookup p dst vid v).2 := by
  obtain eq | ⟨k, kind, eq⟩ := m.lookup_snd p dst vid v <;> rw [eq]
  · exact ⟨.same rfl, rfl, rfl, rfl⟩
  · exact m.switchesAs_swCnt port kind

theorem Module.mirrors_of_unmirrored {m : Module} (off : ∀ k < 4, m.isOn (R.SWC_MIR0_EN k) = false) (p : Nat) (raw : Bytes)
    (ts hits : Nat) (out : List (Nat × Bytes)) : m.mirrors p raw ts hits out = m := by
  refine List.foldlRecOn (List.range 4) _ (motive := fun k => k = m) rfl fun k same s small => ?_
  subst same
  exact if_pos (.inl (by simp [off s (List.mem_range.mp small)]))

/-- Puts a copy at the end of a class queue, with the time and the number of its frame, and counts it (R164). -/
def Module.enqueue (m : Module) (p q : Nat) (c : Copy) : Module :=
  let k := m.syncCredits p
  (k.setQueue (.cls p q) (k.queue (.cls p q) ++ [{ c with admitted := k.tns, fid := k.sw.nextFid }])).swCnt p 1

theorem Module.counts_enqueue (m : Module) {p : Nat} (port : p < 12) (q : Nat) (c : Copy) : m.Counts (m.enqueue p q c) :=
  ((m.counts_syncCredits p).trans (.same rfl)).trans (Module.counts_swCnt _ port (by decide))

theorem Module.queues_syncCredits (m : Module) (p : Nat) :
    (m.syncCredits p).sw.queues = m.sw.queues ∧ (m.syncCredits p).sw.hpq = m.sw.hpq := by
  obtain ⟨_, eq⟩ := m.syncCredits_eq p
  rw [eq]
  exact ⟨rfl, rfl⟩

/-- The copy stands at the end of its queue, admitted now. -/
theorem Module.queue_enqueue_same (m : Module) (p q : Nat) (c : Copy) : ∃ x : Copy,
    (m.enqueue p q c).queue (.cls p q) = m.queue (.cls p q) ++ [x] ∧ x.bytes = c.bytes ∧ x.ts = c.ts ∧ x.inp = c.inp ∧
      x.admitted = (m.enqueue p q c).tns := by
  have before : (m.syncCredits p).queue (.cls p q) = m.queue (.cls p q) :=
    congrArg (SMap.getD · (8 * p + q) []) (m.queues_syncCredits p).1
  refine ⟨{ c with admitted := (m.syncCredits p).tns, fid := (m.syncCredits p).sw.nextFid }, ?_, rfl, rfl, rfl, rfl⟩
  rw [← before]
  exact Module.queue_setQueue_same (m := m.syncCredits p) (fun empty => absurd empty (by simp)) p q

theorem Module.queue_enqueue_other (m : Module) {p q : Nat} (c : Copy) {n k : Nat} (other : 8 * n + k ≠ 8 * p + q) :
    (m.enqueue p q c).queue (.cls n k) = m.queue (.cls n k) :=
  ((m.syncCredits p).queue_setQueue_other _ other).trans (congrArg (SMap.getD · (8 * n + k) []) (m.queues_syncCredits p).1)

theorem Module.queue_enqueue_hp (m : Module) (p q : Nat) (c : Copy) (i : Nat) : (m.enqueue p q c).queue (.hp i) = m.queue (.hp i) :=
  congrArg (SMap.getD · i []) (m.queues_syncCredits p).2

theorem Module.offer_admitted {m : Module} {p q : Nat} {c : Copy} (front : p < 10) (up : m.portUp p = true)
    (fits : m.admits (.cls p q) c.cells = true) : m.offer (.cls p q) c false = (m.enqueue p q c, true) := by
  have other : ¬(p = 11 ∧ (!epTypes.contains (ethOf c.bytes).etype) = true) := by omega
  have shut : m.hpShut (.cls p q) = false := rfl
  have takes : ¬(p < 10 ∧ (!m.portUp p) = true ∧ (!m.holding p) = true) := by simp [up]
  unfold Module.offer
  refine (if_neg takes).trans ((if_pos ?_).trans (if_neg other))
  simp [shut, fits]

theorem Module.classOf_below {m : Module} {p pcp q : Nat} (map : bitsOf (m.rd (R.SWC_PCP_MAP_MAP p)) (3 * pcp) 3 = q) (below : q < 7) :
    m.classOf p pcp = (q, m) := by
  have other : q ≠ 7 := by omega
  simp [Module.classOf, map, other]

theorem Module.learn_off {m : Module} {p : Nat} (off : m.isOn (R.SWC_PORT_CFG_LEARN p) = false) (e : Eth) (vid : Nat) :
    m.learn p e vid = m := if_pos (by simp [off])

/-- The copy of a switched frame for port n, in class q. -/
def copyTo (b : Bytes) (c : Classed) (n q p ts : Nat) : Copy :=
  ⟨copyFor b c n, cellsOf (copyFor b c n), q, p, ts, 0, none, 0, c.vid, c.tagged⟩

theorem Module.offerAll_one {m : Module} {p n q ts : Nat} {b : Bytes} {c : Classed} (dest : n < 10) (up : m.portUp n = true)
    (fits : m.admits (.cls n q) (cellsOf (copyFor b c n)) = true) :
    m.offerAll p [.inl n] q ts none c.vid c.tagged (copyFor b c) = (m.enqueue n q (copyTo b c n q p ts), [(n, copyFor b c n)]) := by
  have taken := Module.offer_admitted (c := copyTo b c n q p ts) dest up fits
  simp only [copyTo] at taken
  simp [Module.offerAll, taken, copyTo]

/-- The module once a frame of port p has been looked up (R152). -/
def Module.lookedUp (m : Module) (p : Nat) (e : Eth) (c : Classed) : Module :=
  ((m.nextFrame.swCnt p 0).lookup p e.dst c.vid c.vlan).2

theorem Module.switchesAs_lookedUp (m : Module) {p : Nat} (port : p < 10) (e : Eth) (c : Classed) : m.SwitchesAs (m.lookedUp p e c) :=
  (m.switchesAs_nextFrame.trans (Module.switchesAs_swCnt _ (by omega) (by decide))).trans
    (Module.switchesAs_lookup _ (by omega) _ _ _)

/-- A frame whose one destination takes it is queued there, and nowhere else (R152, R164). -/
theorem Module.switchFrame_known {m : Module} {p n q ts : Nat} {b : Bytes} {c : Classed} (port : p < 10) (dest : n < 10) (below : q < 7)
    (through : ∀ k : Module, k.divert p b (ethOf b) ts = none) (full : m.isOn R.SYS_MODE_MINIMAL = false)
    (unlearned : m.isOn (R.SWC_PORT_CFG_LEARN p) = false) (route : m.Routes p (ethOf b) c n q)
    (fits : m.admits (.cls n q) (cellsOf (copyFor b c n)) = true) :
    m.switchFrame p b ts = (m.lookedUp p (ethOf b) c).enqueue n q (copyTo b c n q p ts) := by
  have counted := m.switchesAs_nextFrame.trans (Module.switchesAs_swCnt _ (p := p) (k := 0) (by omega) (by decide))
  have fresh := route.of_switchesAs m.switchesAs_nextFrame port dest
  have here := route.of_switchesAs counted port dest
  have looked := m.switchesAs_lookedUp port (ethOf b) c
  have found := route.of_switchesAs looked port dest
  have minimal : m.nextFrame.isOn R.SYS_MODE_MINIMAL = false := full
  have still : m.nextFrame.isOn (R.SWC_PORT_CFG_LEARN p) = false := unlearned
  have room := (looked.admits (j := .cls n q) ⟨by omega, by omega⟩ _).trans fits
  have dests : (m.lookedUp p (ethOf b) c).dests p c.vlan ((m.nextFrame.swCnt p 0).lookup p (ethOf b).dst c.vid c.vlan).1 = [.inl n] := by
    rw [looked.dests, counted.lookup, route.known]
  have unmirrored : ∀ k < 4, ((m.lookedUp p (ethOf b) c).enqueue n q (copyTo b c n q p ts)).isOn (R.SWC_MIR0_EN k) = false :=
    fun k small => ((Module.counts_enqueue _ (by omega) q _).isOn (mirrorEn_place small).1 (mirrorEn_place small).2).trans
      (found.unmirrored k small)
  unfold Module.lookedUp at dests found room unmirrored ⊢
  unfold Module.switchFrame
  simp only [through, minimal, fresh.classified, Module.classOf_below fresh.cls below, Module.learn_off still, dests,
    Module.offerAll_one dest found.up room, Module.mirrors_of_unmirrored unmirrored, Bool.false_eq_true, List.cons_ne_nil, if_false]

/-! ### FRAME_RECEIVE (R129, R149) -/

theorem Module.rxFail_congr {m k : Module} (regs : k.regs = m.regs) (p : Nat) (f : RxFrame) : k.rxFail p f = m.rxFail p f := by
  have same : k.rd = m.rd := funext (Module.rd_congr regs)
  unfold Module.rxFail Module.inPair Module.redund Module.isOn
  rw [same]

/-- A frame that arrives, passes every check and is on no cut-through path is counted and switched. -/
theorem mFrameReceive_switches {m : Module} {p t : Nat} {f : RxFrame} {c : Classed} (arrival : arrives (m.reach t) p f.bytes t c)
    (sound : m.rxFail p f = none) (uncut : m.sw.cuts.get? p = none) :
    mFrameReceive p f t m = ((m.reach t).macCnt p 0).switchFrame p f.bytes t := by
  obtain ⟨port, on, link, -, alone, plain, through, -⟩ := arrival
  have taken : ¬(10 < p ∨ (!(m.reach t).swOn) = true ∨ (!(m.reach t).isOn (R.MAC_STATUS_LINK p)) = true) := by
    simp [on, Module.isOn, link, Nat.le_of_lt port]
  have passes : (m.reach t).rxFail p f = none := (Module.rxFail_congr (m.reach_regs t) p f).trans sound
  have counted := (m.reach t).counts_macCnt (p := p) (k := 0) (by omega) (by decide)
  have single : ((m.reach t).macCnt p 0).inPair p = false := (counted.inPair p).trans alone
  have waits : ((m.reach t).macCnt p 0).sw.cuts.get? p = none := by
    refine Eq.trans ?_ uncut
    exact congrArg (fun x : Sw => x.cuts.get? p) (m.adv_sw _)
  have other : (ethOf f.bytes).etype ≠ 0x88F7 := fun ptp =>
    ((Module.divert_isNone_iff ..).mp through).1 (.inl ptp)
  have front : ¬10 ≤ p := by omega
  rw [mFrameReceive, if_neg taken]
  simp only [passes, if_neg plain, Module.rxPass, if_neg front, single, Bool.false_eq_true, if_false, if_neg other, waits]

/-- Where a frame that arrives goes, in the module before the time runs on to its arrival. -/
theorem routes_of_arrives {m : Module} {p t n q : Nat} {b : Bytes} {c : Classed} (arrival : arrives (m.reach t) p b t c)
    (cls : bitsOf (m.rd (R.SWC_PCP_MAP_MAP p)) (3 * c.pcp) 3 = q)
    (known : m.dests p c.vlan (m.lookup p (ethOf b).dst c.vid c.vlan).1 = [.inl n]) (up : m.portUp n = true) :
    m.Routes p (ethOf b) c n q := by
  obtain ⟨port, -, -, -, -, -, -, -, classified, unmirrored⟩ := arrival
  have same := m.switchesAs_reach t
  refine ⟨(same.classify (by omega) _).symm.trans classified, cls, known, up, fun k small => ?_⟩
  exact (same.counts.isOn (mirrorEn_place small).1 (mirrorEn_place small).2).symm.trans (unmirrored k small)

theorem forwardingClaim : ForwardingClaim := by
  intro s p f t n q c arrival sound uncut unlearned cls below known dest up fits
  refine completes_of_upd (f := mFrameReceive p f t) rfl ?_
  have route := routes_of_arrives arrival cls known up
  obtain ⟨port, -, -, -, -, -, through, full, -⟩ := id arrival
  have same := (s.m.switchesAs_reach t).trans (Module.switchesAs_macCnt _ (p := p) (k := 0) (by omega) (by decide))
  have room := (same.admits (j := .cls n q) ⟨by omega, by omega⟩ _).trans fits
  have minimal : ((s.m.reach t).macCnt p 0).isOn R.SYS_MODE_MINIMAL = false :=
    ((Module.counts_macCnt _ (by omega) (by decide)).isOn (by simp [Fld.isCount, R.SYS_MODE_MINIMAL]) (by decide)).trans full
  have still : ((s.m.reach t).macCnt p 0).isOn (R.SWC_PORT_CFG_LEARN p) = false := by
    have off : s.m.isOn (R.SWC_PORT_CFG_LEARN p) = false := by simp [Module.isOn, unlearned]
    refine (same.counts.isOn ?_ ?_).trans off <;> simp only [Fld.isCount, R.SWC_PORT_CFG_LEARN] <;> omega
  have run := Module.switchFrame_known port dest below (Module.divert_eq_none through) minimal still
    (route.of_switchesAs same port dest) room
  have looked := same.trans (Module.switchesAs_lookedUp _ port (ethOf f.bytes) c)
  obtain ⟨x, queue, bytes, ts, inp, admitted⟩ :=
    (((s.m.reach t).macCnt p 0).lookedUp p (ethOf f.bytes) c).queue_enqueue_same n q (copyTo f.bytes c n q p t)
  rw [mFrameReceive_switches arrival sound uncut, run]
  refine ⟨⟨x, queue.trans (by rw [looked.queue]), bytes, ts, inp, admitted⟩, fun a b cls other => ?_, fun i => ?_⟩
  · refine (Module.queue_enqueue_other _ _ fun place => other ?_).trans (looked.queue (.cls a b))
    have port : a = n := by omega
    have kind : b = q := by omega
    rw [port, kind]
  · exact (Module.queue_enqueue_hp ..).trans (looked.queue (.hp i))

/-! ### Cut-through (R157) -/

/-- Enters a frame of port p, looked up on its way, on the cut-through path. -/
def Module.cutThrough (m : Module) (p : Nat) (x : CutThru) : Module :=
  let k := (m.swCnt p 0).swCnt p 8
  let k := if x.admitted then k else k.swCnt x.dest 2
  { k with sw := { k.sw with cuts := k.sw.cuts.set p x } }

theorem Module.cutThrough_sw (m : Module) (p : Nat) (x : CutThru) :
    (m.cutThrough p x).sw = { m.sw with cuts := m.sw.cuts.set p x } := by
  unfold Module.cutThrough
  cases x.admitted <;> rfl

/-- At its first 64 bytes a frame for one idle port that is up and no faster takes the cut-through path. -/
theorem mCutThroughLookup_cuts {m : Module} {p n q t : Nat} {head : Bytes} {c : Classed} (arrival : arrives (m.reach t) p head t c)
    (en : m.rd (R.SWC_PORT_CFG_CUT_THRU p) = 1) (below : q < 7) (route : m.Routes p (ethOf head) c n q) (dest : n < 10)
    (slower : m.runRate n ≤ m.runRate p) (empty : ∀ k, q ≤ k → k < 8 → m.queue (.cls n k) = []) (free : m.sw.wire.get? n = none) :
    let cells := ceilDiv (m.rd (R.MAC_CTRL_MAX_LEN p)) 256
    mCutThroughLookup p head t m = ((m.reach t).lookup p (ethOf head).dst c.vid c.vlan).2.cutThrough p
      ⟨n, q, c.vid, c.pcp, cells, m.admits (.cls n q) cells⟩ := by
  obtain ⟨port, on, -, link, alone, -, through, -⟩ := arrival
  have same := m.switchesAs_reach t
  have here := route.of_switchesAs same port dest
  have rd (f : Fld) : (m.reach t).rd f = m.rd f := Module.rd_congr (m.reach_regs t) f
  have takes : ¬(10 ≤ p ∨ (!(m.reach t).swOn) = true ∨ (!(m.reach t).linkUp p) = true ∨
      (!(m.reach t).isOn (R.SWC_PORT_CFG_CUT_THRU p)) = true ∨ (m.reach t).inPair p = true ∨
      ((m.reach t).divert p head (ethOf head) t).isSome = true) := by
    simp [port, on, link, Module.isOn, rd, en, alone, Module.divert_eq_none through]
  have looked := same.trans (Module.switchesAs_lookup _ (p := p) (by omega) (ethOf head).dst c.vid c.vlan)
  have room (cells : Nat) := looked.admits (j := .cls n q) ⟨by omega, by omega⟩ cells
  have unmirrored (hit : Nat → Bool) : ((List.range 4).any fun s => (m.reach t).isOn (R.SWC_MIR0_EN s) && hit s) = false :=
    List.any_eq_false.mpr fun s small => by simp [here.unmirrored s (List.mem_range.mp small)]
  have idle : ((List.range 8).all fun k => decide (k < q) || ((m.reach t).queue (.cls n k)).isEmpty) = true := by
    refine List.all_eq_true.mpr fun k small => ?_
    by_cases lower : k < q
    · simp [lower]
    · simp [same.queue, empty k (by omega) (List.mem_range.mp small)]
  have wire : (m.reach t).sw.wire.get? n = none := by
    have sw : (m.reach t).sw = m.sw := m.adv_sw _
    rw [sw, free]
  have fits : ¬(10 ≤ n ∨ false = true ∨ (!(true && true)) = true ∨ (!(m.reach t).portUp n) = true ∨
      (m.reach t).runRate p < (m.reach t).runRate n) := by
    have rates : ¬(m.reach t).runRate p < (m.reach t).runRate n := by simpa [Module.runRate, rd] using slower
    simp [dest, here.up, rates]
  simp only [mCutThroughLookup, if_neg takes, here.classified, Module.classOf_below here.cls below, here.known, unmirrored, idle, wire,
    if_neg fits, rd, room]
  rfl

theorem cutThroughClaim : CutThroughClaim := by
  intro s p n q head t c arrival en cls below known dest up slower empty free
  refine completes_of_upd (f := mCutThroughLookup p head t) rfl ?_
  obtain ⟨port, -⟩ := id arrival
  have looked := (s.m.switchesAs_reach t).trans
    (Module.switchesAs_lookup _ (p := p) (by omega) (ethOf head).dst c.vid c.vlan)
  rw [mCutThroughLookup_cuts arrival en below (routes_of_arrives arrival cls known up) dest slower empty free]
  refine ⟨(congrArg (fun x : Sw => x.cuts.get? p) (Module.cutThrough_sw ..)).trans (SMap.get?_set_same _ _ _), ?_⟩
  exact (congrArg Sw.queues (Module.cutThrough_sw ..)).trans looked.queues

/-- Settles O47, from the three claims: a frame leaves its queue at its start (assumption 53), and the cut-through lookup is a command
of its own (assumption 54). -/
theorem frameFlow : Obligations.FrameFlow := ⟨frameStartClaim, forwardingClaim, cutThroughClaim⟩

end Sys2Proof.Machine
end

section
/-!
PROOFS. Learned entries (R153), the table commands of the switch (R155), ageing and flushing, and a guaranteed minimum (R165).
-/

namespace Sys2Proof.Machine
open Sys2Proof.Claims

/-! ### What a frame's way through the switch leaves of the forwarding table -/

/-- What learning reads and writes: the forwarding table, and the time that a refresh stamps its entry with. -/
def Module.fdbNow (m : Module) : SMap FdbEntry × Nat := (m.sw.fdb, m.mono)

@[simp] theorem Module.fdbNow_swCnt (m : Module) (p k : Nat) : (m.swCnt p k).fdbNow = m.fdbNow := rfl
@[simp] theorem Module.fdbNow_macCnt (m : Module) (p k : Nat) : (m.macCnt p k).fdbNow = m.fdbNow := rfl
@[simp] theorem Module.fdbNow_nextFrame (m : Module) : m.nextFrame.fdbNow = m.fdbNow := rfl

@[simp] theorem Module.fdbNow_setQueue (m : Module) (j : QId) (l : List Copy) : (m.setQueue j l).fdbNow = m.fdbNow := by
  cases j <;> rfl

@[simp] theorem Module.fdbNow_syncCredits (m : Module) (p : Nat) : (m.syncCredits p).fdbNow = m.fdbNow := by
  obtain ⟨_, eq⟩ := m.syncCredits_eq p
  rw [eq]
  rfl

/-- Offering a copy changes a queue, the credits and counters (R164). -/
@[simp] theorem Module.fdbNow_offer (m : Module) (j : QId) (c : Copy) (mirror : Bool) : (m.offer j c mirror).1.fdbNow = m.fdbNow := by
  unfold Module.offer
  dsimp only
  split
  case isTrue down => cases mirror <;> rfl
  case isFalse up =>
    split
    case isTrue admitted => split <;> simp
    case isFalse refused =>
      split
      · rfl
      · cases j <;> rfl

theorem Module.fdbNow_offerAll (m : Module) (p : Nat) (ds : List (Nat ⊕ Nat)) (cls ts : Nat) (stamp : Option (Nat × Nat)) (vid : Nat)
    (tagged : Bool) (f : Nat → Bytes) : (m.offerAll p ds cls ts stamp vid tagged f).1.fdbNow = m.fdbNow :=
  foldl_fixed_of (fun acc : Module × List (Nat × Bytes) => acc.1.fdbNow) (fun acc _ => acc.1.fdbNow_offer ..) ds (m, [])

theorem Module.fdbNow_mirrors (m : Module) (p : Nat) (raw : Bytes) (ts hits : Nat) (out : List (Nat × Bytes)) :
    (m.mirrors p raw ts hits out).fdbNow = m.fdbNow := by
  refine foldl_fixed_of Module.fdbNow (fun k s => ?_) _ m
  dsimp only
  split
  · rfl
  · split
    · rfl
    · exact k.fdbNow_offer ..

theorem Module.fdbNow_lookup (m : Module) (p dst vid : Nat) (v : VlanEntry) : (m.lookup p dst vid v).2.fdbNow = m.fdbNow := by
  obtain eq | ⟨_, _, eq⟩ := m.lookup_snd p dst vid v <;> rw [eq]
  rfl

/-- Choosing a class counts a received class 7, or nothing (R150). -/
theorem Module.classOf_snd (m : Module) (p pcp : Nat) : (m.classOf p pcp).2 = m ∨ (m.classOf p pcp).2 = m.swCnt p 12 := by
  unfold Module.classOf
  dsimp only
  split
  · exact .inr rfl
  · exact .inl rfl

theorem Module.switchesAs_classOf (m : Module) {p : Nat} (port : p < 12) (pcp : Nat) : m.SwitchesAs (m.classOf p pcp).2 := by
  obtain eq | eq := m.classOf_snd p pcp <;> rw [eq]
  · exact ⟨.same rfl, rfl, rfl, rfl⟩
  · exact m.switchesAs_swCnt port (by decide)

theorem Module.fdbNow_classOf (m : Module) (p pcp : Nat) : (m.classOf p pcp).2.fdbNow = m.fdbNow := by
  obtain eq | eq := m.classOf_snd p pcp <;> rw [eq]
  rfl

/-! ### Learning (R153) -/

/-- The forwarding table once it has learned station mac at port p, in VLAN vid; the time is the refresh of the entry. -/
def learnFdb (p mac vid : Nat) (x : SMap FdbEntry × Nat) : SMap FdbEntry × Nat :=
  (x.1.set (fdbKey mac vid) ⟨p, 0, 0, false, false, 0, x.2⟩, x.2)

/-- A station that the table does not have, and has room for, is learned. -/
theorem Module.fdbNow_learn {m : Module} {p vid : Nat} {e : Eth} (front : p < 10) (on : m.isOn (R.SWC_PORT_CFG_LEARN p) = true)
    (single : isGroup e.src = false) (new : m.sw.fdb.get? (fdbKey e.src vid) = none) (room : m.sw.fdb.length < 65536) :
    (m.learn p e vid).fdbNow = learnFdb p e.src vid m.fdbNow := by
  have learns : ¬(10 ≤ p ∨ (!m.isOn (R.SWC_PORT_CFG_LEARN p)) = true ∨ isGroup e.src = true) := by simp [front, on, single]
  have fits : ¬m.sw.fdb.length ≥ 65536 := by omega
  unfold Module.learn
  rw [if_neg learns]
  dsimp only
  rw [new]
  dsimp only
  rw [if_neg fits]
  rfl

/-- The module as a frame of port p finds it when it is to be learned: numbered, and its class chosen. -/
def Module.toLearn (m : Module) (p pcp : Nat) : Module := (m.nextFrame.classOf p pcp).2

theorem Module.switchesAs_toLearn (m : Module) {p : Nat} (port : p < 12) (pcp : Nat) : m.SwitchesAs (m.toLearn p pcp) :=
  m.switchesAs_nextFrame.trans (m.nextFrame.switchesAs_classOf port pcp)

theorem Module.fdbNow_toLearn (m : Module) (p pcp : Nat) : (m.toLearn p pcp).fdbNow = m.fdbNow := m.nextFrame.fdbNow_classOf p pcp

/-- All that a switched frame does to the forwarding table, it does as it is learned. -/
theorem Module.fdbNow_switchFrame {m : Module} {p ts : Nat} {b : Bytes} {c : Classed} (port : p < 10)
    (through : ∀ k : Module, k.divert p b (ethOf b) ts = none) (full : m.isOn R.SYS_MODE_MINIMAL = false)
    (classified : m.classify p (ethOf b) = some c) :
    (m.switchFrame p b ts).fdbNow = ((m.toLearn p c.pcp).learn p (ethOf b) c.vid).fdbNow := by
  have minimal : m.nextFrame.isOn R.SYS_MODE_MINIMAL = false := full
  have same : m.nextFrame.classify p (ethOf b) = some c := (m.switchesAs_nextFrame.classify (by omega) _).trans classified
  unfold Module.switchFrame
  simp only [through, minimal, same, Bool.false_eq_true, if_false]
  rw [Module.fdbNow_mirrors, Module.fdbNow_offerAll]
  split
  · rw [Module.fdbNow_swCnt, Module.fdbNow_lookup, Module.fdbNow_swCnt]
    rfl
  · rw [Module.fdbNow_lookup, Module.fdbNow_swCnt]
    rfl

theorem learnEn_place {p : Nat} (port : p < 10) : ¬(R.SWC_PORT_CFG_LEARN p).isCount ∧ (R.SWC_PORT_CFG_LEARN p).lsb < 32 := by
  simp only [Fld.isCount, R.SWC_PORT_CFG_LEARN]
  omega

/-- A frame that arrives and passes every check teaches the switch its source, where the table lacks it and has room. -/
theorem fdbNow_mFrameReceive {m : Module} {p t : Nat} {f : RxFrame} {c : Classed} (arrival : arrives (m.reach t) p f.bytes t c)
    (sound : m.rxFail p f = none) (uncut : m.sw.cuts.get? p = none) (learns : m.rd (R.SWC_PORT_CFG_LEARN p) = 1)
    (single : isGroup (ethOf f.bytes).src = false) (new : m.sw.fdb.get? (fdbKey (ethOf f.bytes).src c.vid) = none)
    (room : m.sw.fdb.length < 65536) :
    (mFrameReceive p f t m).fdbNow = learnFdb p (ethOf f.bytes).src c.vid (m.reach t).fdbNow := by
  obtain ⟨port, -, -, -, -, -, through, full, classified, -⟩ := id arrival
  have counted := (m.reach t).switchesAs_macCnt (p := p) (k := 0) (by omega) (by decide)
  have found := ((m.switchesAs_reach t).trans counted).trans (Module.switchesAs_toLearn _ (p := p) (by omega) c.pcp)
  have minimal : ((m.reach t).macCnt p 0).isOn R.SYS_MODE_MINIMAL = false :=
    (counted.counts.isOn (by simp [Fld.isCount, R.SYS_MODE_MINIMAL]) (by decide)).trans full
  have on : (((m.reach t).macCnt p 0).toLearn p c.pcp).isOn (R.SWC_PORT_CFG_LEARN p) = true :=
    (found.counts.isOn (learnEn_place port).1 (learnEn_place port).2).trans (by simp [Module.isOn, learns])
  rw [mFrameReceive_switches arrival sound uncut, Module.fdbNow_switchFrame port (Module.divert_eq_none through) minimal
    ((counted.classify (by omega) _).trans classified), Module.fdbNow_learn port on single (by rw [found.fdb, new])
    (by rw [found.fdb]; exact room), Module.fdbNow_toLearn, Module.fdbNow_macCnt]

theorem learningClaim : LearningClaim := by
  intro s p f t c arrival sound uncut learns single new room
  refine completes_of_upd (f := mFrameReceive p f t) rfl ?_
  obtain ⟨table, time⟩ := Prod.ext_iff.mp (fdbNow_mFrameReceive arrival sound uncut learns single new room)
  have before : (s.m.reach t).sw = s.m.sw := s.m.adv_sw _
  show (mFrameReceive p f t s.m).fdbNow.1 =
    s.m.sw.fdb.set (fdbKey (ethOf f.bytes).src c.vid) ⟨p, 0, 0, false, false, 0, (mFrameReceive p f t s.m).fdbNow.2⟩
  rw [table, time, ← before]
  rfl

/-! ### SWC_TBL_DATA and the result of a table command (R155) -/

@[simp] theorem Module.sw_tblResult (m : Module) (r : Nat) : (m.tblResult r).sw = m.sw := rfl

theorem Module.rd_tblResult {m : Module} (h : SMap.rising m.regs = true) : (m.tblResult 0).rd R.SWC_TBL_STAT_RESULT = 0 :=
  m.rd_wr_same h _ 0

theorem Module.rd_tblResult_data (m : Module) (r w : Nat) :
    (m.tblResult r).rd (R.SWC_TBL_DATA_DATA w) = m.rd (R.SWC_TBL_DATA_DATA w) := by
  refine m.rd_wr_other r ?_
  simp only [Fld.key, R.SWC_TBL_DATA_DATA, R.SWC_TBL_STAT_RESULT]
  omega

/-- The writes that put words into SWC_TBL_DATA, from word 0 on. -/
def tblWrites (l : List Nat) : List (Fld × Nat) := l.zipIdx.map fun x => (R.SWC_TBL_DATA_DATA x.2, x.1)

theorem Module.tblData_eq (m : Module) (l : List Nat) : m.tblData l = m.writes (tblWrites l) := by
  rw [Module.tblData, Module.writes, tblWrites, List.foldl_map]

theorem tblWrites_apart (l : List Nat) : ((tblWrites l).map (·.1.key)).Nodup := by
  have keys : (tblWrites l).map (·.1.key) = (l.zipIdx.map Prod.snd).map fun w => (R.SWC_TBL_DATA_DATA w).key := by
    rw [tblWrites, List.map_map, List.map_map]
    rfl
  rw [keys, List.zipIdx_map_snd]
  refine (List.nodup_range' (h := by decide)).map fun v w same => ?_
  simp only [Fld.key, R.SWC_TBL_DATA_DATA] at same
  omega

@[simp] theorem Module.sw_tblData (m : Module) (l : List Nat) : (m.tblData l).sw = m.sw := by
  rw [m.tblData_eq]
  exact foldl_fixed_of Module.sw (f := fun k x => Module.wr k x.1 x.2) (fun _ _ => rfl) (tblWrites l) m

theorem Module.rising_tblData {m : Module} (h : SMap.rising m.regs = true) (l : List Nat) : SMap.rising (m.tblData l).regs = true := by
  rw [m.tblData_eq]
  exact Module.rising_writes h _

/-- Each word that is put into SWC_TBL_DATA reads back, cut to 32 bits. -/
theorem Module.rd_tblData {m : Module} (h : SMap.rising m.regs = true) {l : List Nat} {w v : Nat} (word : l[w]? = some v) :
    (m.tblData l).rd (R.SWC_TBL_DATA_DATA w) = v % 2 ^ 32 := by
  rw [m.tblData_eq]
  exact Module.rd_writes h (tblWrites_apart l) (x := (R.SWC_TBL_DATA_DATA w, v))
    (List.mem_map.mpr ⟨(v, w), List.mk_mem_zipIdx_iff_getElem?.mpr word, rfl⟩)

/-! ### TBL_READ (R155) -/

/-- The forwarding entry under a key in SWC_TBL_DATA is read into words 2 and 3; the key stays. -/
theorem mTblRead_fdb {m : Module} {index : Nat} {f : FdbEntry} (on : m.swOn = true) (known : tblBad 0 index m.tblKey.2 = false)
    (found : m.sw.fdb.get? (fdbKey m.tblKey.1 m.tblKey.2) = some f) : mTblRead 0 index m =
      (m.tblData ([m.rd (R.SWC_TBL_DATA_DATA 0), m.rd (R.SWC_TBL_DATA_DATA 1)] ++ f.words)).tblResult 0 := by
  rw [mTblRead, if_neg (by simp [on])]
  dsimp only
  rw [if_neg (by simp [known]), if_pos rfl, found]

/-- Reading an entry leaves the switch as it is. -/
theorem mTblRead_fdb_shows {m : Module} {index : Nat} {f : FdbEntry} (h : SMap.rising m.regs = true) (on : m.swOn = true)
    (known : tblBad 0 index m.tblKey.2 = false) (found : m.sw.fdb.get? (fdbKey m.tblKey.1 m.tblKey.2) = some f) :
    let n := mTblRead 0 index m
    n.rd (R.SWC_TBL_DATA_DATA 2) = f.words.getD 0 0 % 2 ^ 32 ∧ n.rd (R.SWC_TBL_DATA_DATA 3) = f.words.getD 1 0 % 2 ^ 32 ∧
      n.rd R.SWC_TBL_STAT_RESULT = 0 ∧ n.sw = m.sw := by
  obtain ⟨a, b, words⟩ : ∃ a b, f.words = [a, b] := ⟨_, _, rfl⟩
  dsimp only
  rw [mTblRead_fdb on known found, words, Module.rd_tblResult_data, Module.rd_tblResult_data, Module.sw_tblResult]
  exact ⟨Module.rd_tblData h rfl, Module.rd_tblData h rfl, Module.rd_tblResult (Module.rising_tblData h _), Module.sw_tblData _ _⟩

theorem mTblRead_hpSet {m : Module} {index : Nat} (on : m.swOn = true) (inside : index < 131072) :
    mTblRead 3 index m = (m.tblData [m.sw.hpSets.getD index 0]).tblResult 0 := by
  have known (vid : Nat) : tblBad 3 index vid = false := by simp [tblBad, inside]
  rw [mTblRead, if_neg (by simp [on])]
  simp [known]

/-! ### TBL_WRITE and TBL_DELETE (R155) -/

/-- The forwarding entry that stands in SWC_TBL_DATA. -/
def Module.tblFdb (m : Module) : FdbEntry :=
  FdbEntry.ofWords (m.rd (R.SWC_TBL_DATA_DATA 2)) (m.rd (R.SWC_TBL_DATA_DATA 3)) m.mono

/-- The VLAN entry that stands in SWC_TBL_DATA. -/
def Module.tblVlan (m : Module) : VlanEntry :=
  VlanEntry.ofWords (m.rd (R.SWC_TBL_DATA_DATA 0)) (m.rd (R.SWC_TBL_DATA_DATA 1)) (m.rd (R.SWC_TBL_DATA_DATA 2))

/-- An entry written with VALID 1 stands under its key, where the table has room. -/
theorem mTblWrite_fdb {m : Module} {index : Nat} (on : m.swOn = true) (known : tblBad 0 index m.tblKey.2 = false)
    (valid : bitOf (m.rd (R.SWC_TBL_DATA_DATA 2)) 31 = true) (room : m.sw.fdb.length < 65536) : mTblWrite 0 index m =
      Module.tblResult { m with sw := { m.sw with
        fdb := m.sw.fdb.set (fdbKey m.tblKey.1 m.tblKey.2) m.tblFdb } } 0 := by
  have fits : ¬((m.sw.fdb.get? (fdbKey m.tblKey.1 m.tblKey.2)).isNone = true ∧ m.sw.fdb.length ≥ 65536) := by omega
  rw [mTblWrite, if_neg (by simp [on])]
  dsimp only
  rw [if_neg (by simp [known]), if_pos rfl, if_neg (by simp [valid]), if_neg fits]
  rfl

theorem mTblWrite_mcg {m : Module} {index : Nat} (on : m.swOn = true) (inside : index < 8192) : mTblWrite 1 index m =
    Module.tblResult { m with sw := { m.sw with
      mcg := m.sw.mcg.set index (McGroup.ofWord (m.rd (R.SWC_TBL_DATA_DATA 0))) } } 0 := by
  have known (vid : Nat) : tblBad 1 index vid = false := by simp [tblBad, inside]
  rw [mTblWrite, if_neg (by simp [on])]
  simp [known]

theorem mTblWrite_vlan {m : Module} {index : Nat} (on : m.swOn = true) (least : 0 < index) (inside : index < 4095)
    (valid : bitOf (m.rd (R.SWC_TBL_DATA_DATA 0)) 31 = true) : mTblWrite 2 index m =
      Module.tblResult { m with sw := { m.sw with
        vlans := m.sw.vlans.set index m.tblVlan } } 0 := by
  have known (vid : Nat) : tblBad 2 index vid = false := by simp [tblBad, inside, Nat.ne_of_gt least]
  rw [mTblWrite, if_neg (by simp [on])]
  simp [known, valid, Module.tblVlan]

theorem mTblDelete_fdb {m : Module} {index : Nat} {f : FdbEntry} (on : m.swOn = true) (known : tblBad 0 index m.tblKey.2 = false)
    (found : m.sw.fdb.get? (fdbKey m.tblKey.1 m.tblKey.2) = some f) : mTblDelete m =
      Module.tblResult { m with sw := { m.sw with fdb := m.sw.fdb.erase (fdbKey m.tblKey.1 m.tblKey.2) } } 0 := by
  have named : tblBad 0 0 m.tblKey.2 = false := known
  rw [mTblDelete, if_neg (by simp [on])]
  dsimp only
  rw [if_neg (by simp [named]), found]

/-! ### Ageing, flushing and a guaranteed minimum (R153, R165) -/

theorem sw_mLearnAgeOut {m : Module} {mac vid : Nat} {f : FdbEntry} (found : m.sw.fdb.get? (fdbKey mac vid) = some f)
    (learned : f.static = false) (ages : m.rd R.SWC_CTRL_LEARN_AGE_S ≠ 0) (on : m.swOn = true) :
    (mLearnAgeOut mac vid m).sw = { m.sw with fdb := m.sw.fdb.erase (fdbKey mac vid) } := by
  have old : ¬(f.static = true ∨ m.rd R.SWC_CTRL_LEARN_AGE_S = 0 ∨ (!m.swOn) = true) := by simp [learned, ages, on]
  have sw (e : Nat) : (m.reachMono e).sw = m.sw := m.adv_sw _
  unfold mLearnAgeOut
  dsimp only
  rw [found]
  dsimp only
  rw [if_neg old, sw]

theorem mMinCellsWrite_fits {m : Module} {p q cells : Nat} (on : m.swOn = true)
    (free : m.minSum - m.guar (.cls p q) + cells ≤ 60576) :
    mMinCellsWrite p q cells m = m.wr (R.SWC_Q_CFG_MIN_CELLS p q) cells := by
  rw [mMinCellsWrite, if_neg (by simp [on]), if_neg (by omega)]

/-! ### The clauses -/

/-- A table command that ends with result 0 completes with it, and with whatever holds of the switch that it leaves. -/
theorem completes_tblResult {i : Instr} {s : State} {f : Module → Module} {n : Module} {p : Sw → Prop} (runs : exec i s = s.upd f)
    (eq : f s.m = n.tblResult 0) (h : SMap.rising n.regs = true) (holds : p n.sw) :
    completes i s fun m => p m.sw ∧ m.rd R.SWC_TBL_STAT_RESULT = 0 := by
  refine completes_of_upd runs ?_
  rw [eq]
  exact ⟨holds, (Module.rd_settle ..).trans (Module.rd_tblResult h)⟩

theorem switchTablesClaim : SwitchTablesClaim := by
  refine ⟨fun s index on wf => ⟨fun known => ⟨fun valid room => ?_, fun f found => ?_, fun f found => ?_⟩, fun inside => ?_,
    fun least inside valid => ?_, fun inside => ?_⟩, fun s mac vid f found learned ages on => ?_, fun s => ?_,
    fun s p q cells on free wf => ?_⟩
  · exact completes_tblResult (f := mTblWrite 0 index) (p := fun x => x.fdb = _) rfl (mTblWrite_fdb on known valid room)
      (Module.rising_regs_of_wf wf) rfl
  · refine completes_of_upd (f := mTblRead 0 index) rfl ?_
    rw [Module.rd_settle, Module.rd_settle, Module.rd_settle, Module.settle_sw]
    exact mTblRead_fdb_shows (Module.rising_regs_of_wf wf) on known found
  · exact completes_tblResult (f := mTblDelete) (p := fun x => x.fdb = _) rfl (mTblDelete_fdb on known found)
      (Module.rising_regs_of_wf wf) rfl
  · exact completes_tblResult (f := mTblWrite 1 index) (p := fun x => x.mcg.get? index = _) rfl (mTblWrite_mcg on inside)
      (Module.rising_regs_of_wf wf) (SMap.get?_set_same _ _ _)
  · exact completes_tblResult (f := mTblWrite 2 index) (p := fun x => x.vlans.get? index = _) rfl
      (mTblWrite_vlan on least inside valid) (Module.rising_regs_of_wf wf) (SMap.get?_set_same _ _ _)
  · have h := Module.rising_regs_of_wf wf
    refine completes_of_upd (f := mTblRead 3 index) rfl ?_
    rw [mTblRead_hpSet on inside, Module.rd_settle, Module.rd_settle, Module.rd_tblResult_data]
    exact ⟨Module.rd_tblData h rfl, Module.rd_tblResult (Module.rising_tblData h _)⟩
  · exact completes_of_upd (f := mLearnAgeOut mac vid) rfl (sw_mLearnAgeOut found learned ages on)
  · exact completes_of_upd (f := mFlushLearned) rfl rfl
  · refine completes_of_upd (f := mMinCellsWrite p q cells) rfl ?_
    rw [mMinCellsWrite_fits on free, Module.rd_settle]
    exact s.m.rd_wr_same (Module.rising_regs_of_wf wf) _ _

/-- Settles O48, from the two claims: a frame teaches the switch as `fdbNow_mFrameReceive` says, and each table command does what the
lemma about it says. -/
theorem switchState : Obligations.SwitchState := ⟨learningClaim, switchTablesClaim⟩

end Sys2Proof.Machine
end

section
/-!
PROOFS. A step of the block and the tick on an empty queue (R169, R170), the reads of the clocks (R171, R177) and the virtual clocks
(R177, R178).
-/

namespace Sys2Proof.Machine
open Sys2Proof.Claims

/-- Settles O1: `step` looks at the queue (assumption 1) only to choose between a command and the tick of assumption 2. -/
theorem stepFront : Obligations.StepFront := by
  refine ⟨fun c r s => rfl, fun s idle => ?_⟩
  obtain ⟨m, pending⟩ := s
  subst idle
  rfl

/-! ### Two-word values and two's complement -/

theorem unsignedOf_lt (x : Int) (n : Nat) : unsignedOf x n < 2 ^ n := by
  have pos : (0 : Int) < (2 ^ n : Nat) := by exact_mod_cast Nat.two_pow_pos n
  have low := Int.emod_nonneg x pos.ne'
  have high := Int.emod_lt_of_pos x pos
  unfold unsignedOf
  omega

/-- The pattern of an integer within the range of its bits reads back as the integer. -/
theorem signedOf_unsignedOf {x : Int} (lo : -(2 ^ 63) ≤ x) (hi : x < 2 ^ 63) : signedOf (unsignedOf x 64) 64 = x := by
  have low := Int.emod_nonneg x (show (2 ^ 64 : Int) ≠ 0 by decide)
  have pattern : ((unsignedOf x 64 : Nat) : Int) = x % 2 ^ 64 := Int.toNat_of_nonneg low
  rw [signedOf_eq_bmod, pattern]
  exact (Int.emod_bmod ..).trans (Int.bmod_eq_of_le lo hi)

theorem signedOf_mod (w n : Nat) : signedOf (w % 2 ^ n) n = signedOf w n := by
  unfold signedOf
  rw [Nat.mod_mod]

/-- A value written to two words reads back, cut to 64 bits. -/
theorem Module.rd64_wr64 {m : Module} (h : SMap.rising m.regs = true) {lo hi : Fld} (apart : lo.key ≠ hi.key) (low : lo.width = 32)
    (high : hi.width = 32) (v : Nat) : (m.wr64 lo hi v).rd64 lo hi = v % 2 ^ 64 := by
  have lower : (m.wr64 lo hi v).rd lo = v % 2 ^ 32 := (Module.rd_wr_other _ _ apart).trans (low ▸ m.rd_wr_same h lo v)
  have upper : (m.wr64 lo hi v).rd hi = v / 2 ^ 32 % 2 ^ 32 :=
    (Module.rd_wr_same _ (Module.rising_wr h _ _) _ _).trans (by rw [high])
  rw [Module.rd64, lower, upper]
  omega

/-! ### Latched words (R19, R171) -/

/-- A reading function's latch holds the last word put at an address, cut to 32 bits, and every other word as before. -/
theorem Module.latch_setLatch (m : Module) (fn a v b : Nat) : (m.setLatch fn a v).latch.getD (fn * 2 ^ 33 + b) 0 =
    if b = a then v % 2 ^ 32 else m.latch.getD (fn * 2 ^ 33 + b) 0 := by
  have listed : (m.setLatch fn a v).latch.get? (fn * 2 ^ 33 + b) =
      if fn * 2 ^ 33 + b = fn * 2 ^ 33 + a then some (v % 2 ^ 32) else m.latch.get? (fn * 2 ^ 33 + b) := SMap.get?_set ..
  simp only [SMap.getD, listed, Nat.add_left_cancel_iff]
  split <;> rfl

@[simp] theorem Module.latch_settle (m : Module) (k : Nat) : m.settle.latch.getD k 0 = m.latch.getD k 0 := SMap.getD_tidy ..

@[simp] theorem Module.tns_setLatch (m : Module) (fn a v : Nat) : (m.setLatch fn a v).tns = m.tns := rfl
@[simp] theorem Module.clk_setLatch (m : Module) (fn a v : Nat) : (m.setLatch fn a v).clk = m.clk := rfl
@[simp] theorem Module.mono_setLatch (m : Module) (fn a v : Nat) : (m.setLatch fn a v).mono = m.mono := rfl

/-- The words of the primary clock's present instant, held for a reading function. -/
def Module.latchNow (m : Module) (fn : Nat) : Module :=
  (((m.setLatch fn 0x200008 (m.tns / 1000000000)).setLatch fn 0x20000c (m.tns / 1000000000 / 2 ^ 32 % 2 ^ 16)).setLatch fn 0x200010
    (m.clk % 2 ^ 32)).setLatch fn 0x200014 m.ts32

theorem Module.latch_latchNow (m : Module) (fn : Nat) :
    (m.latchNow fn).latch.getD (fn * 2 ^ 33 + 0x200008) 0 = m.tns / 1000000000 % 2 ^ 32 ∧
    (m.latchNow fn).latch.getD (fn * 2 ^ 33 + 0x20000c) 0 = m.tns / 1000000000 / 2 ^ 32 % 2 ^ 16 ∧
    (m.latchNow fn).latch.getD (fn * 2 ^ 33 + 0x200010) 0 = m.clk % 2 ^ 32 ∧
    (m.latchNow fn).latch.getD (fn * 2 ^ 33 + 0x200014) 0 = m.tns % 2 ^ 32 := by
  have small : m.tns / 1000000000 / 2 ^ 32 % 2 ^ 16 < 2 ^ 32 := Nat.lt_of_lt_of_le (Nat.mod_lt _ (by decide)) (by decide)
  simp only [Module.latchNow, Module.latch_setLatch, Nat.reduceEqDiff, if_true, if_false, Nat.mod_eq_of_lt small, Nat.mod_mod,
    Module.ts32, and_self]

theorem Module.clk_latchNow (m : Module) (fn : Nat) : (m.latchNow fn).clk = m.clk := by
  simp only [Module.latchNow, Module.clk_setLatch]
theorem Module.mono_latchNow (m : Module) (fn : Nat) : (m.latchNow fn).mono = m.mono := by
  simp only [Module.latchNow, Module.mono_setLatch]

theorem mNowRead_eq {m : Module} (run : m.mode ≠ .reset) (fn : Nat) :
    mNowRead fn m = { m.latchNow fn with rdata := BitVec.ofNat 32 (m.tns % 1000000000) } := by
  simp only [mNowRead, if_neg run, Module.latchNow, Module.tns_setLatch]

/-- The seconds of a virtual clock, held for a reading function. -/
def Module.latchVc (m : Module) (fn v : Nat) : Module :=
  (m.setLatch fn (0x200114 + 0x20 * v) (unsignedOf (m.vcNow v / 1000000000) 48)).setLatch fn (0x200118 + 0x20 * v)
    (unsignedOf (m.vcNow v / 1000000000) 48 / 2 ^ 32)

theorem Module.latch_latchVc (m : Module) (fn v : Nat) :
    (m.latchVc fn v).latch.getD (fn * 2 ^ 33 + (0x200114 + 0x20 * v)) 0 = unsignedOf (m.vcNow v / 1000000000) 48 % 2 ^ 32 ∧
    (m.latchVc fn v).latch.getD (fn * 2 ^ 33 + (0x200118 + 0x20 * v)) 0 = unsignedOf (m.vcNow v / 1000000000) 48 / 2 ^ 32 := by
  have apart : 0x200114 + 0x20 * v ≠ 0x200118 + 0x20 * v := by omega
  have high : unsignedOf (m.vcNow v / 1000000000) 48 / 2 ^ 32 < 2 ^ 32 := by
    have seconds := unsignedOf_lt (m.vcNow v / 1000000000) 48
    omega
  simp only [Module.latchVc, Module.latch_setLatch, if_neg apart, if_true, Nat.mod_eq_of_lt high, and_self]

/-- A virtual clock with EN 1 is read out of RESET. -/
theorem mVcNowRead_eq {m : Module} (run : m.mode ≠ .reset) {v : Nat} (en : m.rd (R.TIM_VC_CFG_EN v) = 1) (fn : Nat) :
    mVcNowRead fn v m = { m.latchVc fn v with rdata := BitVec.ofNat 32 (unsignedOf (m.vcNow v % 1000000000) 32) } := by
  have on : m.isOn (R.TIM_VC_CFG_EN v) = true := by simp [Module.isOn, en]
  simp only [mVcNowRead, if_neg run, if_pos on, Module.latchVc]

/-! ### Virtual clocks (R177, R178) -/

/-- Where its rate term starts, a virtual clock stands at the primary clock plus its offset. -/
theorem Module.vcNow_of_anchored {m : Module} {v : Nat} (anchored : m.tim.vcAt.getD v 0 = m.tns) :
    m.vcNow v = m.tns + signedOf (m.rd64 (R.TIM_VC_OFF_LO_OFF v) (R.TIM_VC_OFF_HI_OFF v)) 64 := by
  simp [Module.vcNow, anchored]

theorem Module.anchored_vcSetOff (m : Module) (v off : Nat) : (m.vcSetOff v off).tim.vcAt.getD v 0 = m.tns := SMap.getD_set_same ..

theorem vcFields_apart (v : Nat) : (R.TIM_VC_OFF_LO_OFF v).key ≠ (R.TIM_VC_OFF_HI_OFF v).key ∧
    (R.TIM_VC_OFF_LO_OFF v).key ≠ (R.TIM_VC_RATE_RATE v).key ∧ (R.TIM_VC_OFF_HI_OFF v).key ≠ (R.TIM_VC_RATE_RATE v).key := by
  simp only [Fld.key, R.TIM_VC_OFF_LO_OFF, R.TIM_VC_OFF_HI_OFF, R.TIM_VC_RATE_RATE]
  omega

theorem Module.rd64_vcSetOff {m : Module} (h : SMap.rising m.regs = true) (v off : Nat) :
    (m.vcSetOff v off).rd64 (R.TIM_VC_OFF_LO_OFF v) (R.TIM_VC_OFF_HI_OFF v) = off % 2 ^ 64 :=
  Module.rd64_wr64 h (vcFields_apart v).1 rfl rfl off

/-- A new offset takes effect at the instant of its write. -/
theorem Module.vcNow_vcSetOff {m : Module} (h : SMap.rising m.regs = true) (v off : Nat) :
    (m.vcSetOff v off).vcNow v = m.tns + signedOf off 64 := by
  rw [Module.vcNow_of_anchored (m.anchored_vcSetOff v off), Module.rd64_vcSetOff h, signedOf_mod]
  rfl

/-- A new rate takes effect at the instant of its write: the clock goes on from where it stands, as an offset can state it. -/
theorem Module.vcNow_vcSetRate {m : Module} (h : SMap.rising m.regs = true) {v : Nat} (lo : -(2 ^ 63) ≤ m.vcNow v - m.tns)
    (hi : m.vcNow v - m.tns < 2 ^ 63) (rate : Nat) : (m.vcSetRate v rate).vcNow v = m.vcNow v := by
  have off : (m.vcSetRate v rate).rd64 (R.TIM_VC_OFF_LO_OFF v) (R.TIM_VC_OFF_HI_OFF v) =
      unsignedOf (m.vcNow v - m.tns) 64 % 2 ^ 64 := by
    rw [← Module.rd64_vcSetOff h, Module.rd64, Module.vcSetRate, Module.rd_wr_other _ _ (vcFields_apart v).2.1,
      Module.rd_wr_other _ _ (vcFields_apart v).2.2]
    rfl
  have anchored : (m.vcSetRate v rate).tim.vcAt.getD v 0 = (m.vcSetRate v rate).tns := m.anchored_vcSetOff v _
  rw [Module.vcNow_of_anchored anchored, off, signedOf_mod, signedOf_unsignedOf lo hi]
  show (m.tns : Int) + (m.vcNow v - m.tns) = m.vcNow v
  omega

theorem Module.rd_vcSetRate {m : Module} (h : SMap.rising m.regs = true) (v rate : Nat) :
    (m.vcSetRate v rate).rd (R.TIM_VC_RATE_RATE v) = rate % 2 ^ 32 :=
  Module.rd_wr_same _ (Module.rising_wr (Module.rising_wr h _ _) _ _) _ _

/-- The canonical form shows every virtual clock as it stands. -/
@[simp] theorem Module.vcNow_settle (m : Module) (v : Nat) : m.settle.vcNow v = m.vcNow v := by
  simp only [Module.vcNow, Module.rd64, Module.rd_settle, Module.settle_tim, Module.settle_tns]

/-- A write out of RESET moves a virtual clock that no PTP domain binds (R178). -/
theorem Module.vc_writable {m : Module} (run : m.mode ≠ .reset) {v : Nat} (free : m.rd (R.TIM_VC_CFG_BIND v) = 0) :
    ¬(m.mode = .reset ∨ m.isOn (R.TIM_VC_CFG_BIND v) = true) := by
  simp [run, Module.isOn, free]

/-- Settles O17: the words latched are those for the reading function of assumption 33, and the writes of a rate and of an offset
act at their instant (assumption 64). -/
theorem clockReads : Obligations.ClockReads := by
  refine ⟨fun s fn run => ?_, fun s fn v run en => ?_, fun s v rate run free _ wf lo hi => ?_,
    fun s fn v hi lo run free _ wf held low => ?_⟩
  · obtain ⟨low, high, frac, ts32⟩ := s.m.latch_latchNow fn
    refine completes_of_upd (f := mNowRead fn) rfl ?_
    rw [mNowRead_eq run]
    simp only [Module.latch_settle, Module.settle_clk, Module.settle_mono, Module.clk_latchNow, Module.mono_latchNow]
    exact ⟨rfl, low, high, frac, ts32, trivial, trivial⟩
  · obtain ⟨low, high⟩ := s.m.latch_latchVc fn v
    refine completes_of_upd (f := mVcNowRead fn v) rfl ?_
    rw [mVcNowRead_eq run en]
    simp only [Module.latch_settle]
    exact ⟨rfl, low, high⟩
  · have h : SMap.rising s.m.regs = true := Module.rising_regs_of_wf wf
    have sets : mVcRateWrite v rate s.m = s.m.vcSetRate v rate := if_neg (Module.vc_writable run free)
    refine completes_of_upd (f := mVcRateWrite v rate) rfl ?_
    rw [sets, Module.rd_settle, Module.vcNow_settle]
    exact ⟨Module.rd_vcSetRate h v rate, Module.vcNow_vcSetRate h lo hi rate⟩
  · have word : s.m.wlatch.getD (fn * 2 ^ 33 + (0x200104 + 0x20 * v)) (s.m.rd (R.TIM_VC_OFF_LO_OFF v)) = lo := by
      rw [SMap.getD, held]
      rfl
    have sets : mVcOffWrite fn v hi s.m = s.m.vcSetOff v (lo + 2 ^ 32 * (hi % 2 ^ 32)) := by
      rw [mVcOffWrite, if_neg (Module.vc_writable run free), word]
    refine completes_of_upd (f := mVcOffWrite fn v hi) rfl ?_
    rw [sets, Module.vcNow_settle]
    exact Module.vcNow_vcSetOff (Module.rising_regs_of_wf wf) v _

end Sys2Proof.Machine
end

section
/-!
PROOFS. What the time sources hand over (R179, R181, R185), the loss of a source and the selection among them (R186, R191).
-/

namespace Sys2Proof.Machine
open Sys2Proof.Claims

/-! ### As time runs on -/

/-- n stands as m in the registers, the mode, the Timekeeper and what has been sent. -/
structure Module.StandsAs (m n : Module) : Prop where
  regs : n.regs = m.regs
  mode : n.mode = m.mode
  tim : n.tim = m.tim
  out : n.out = m.out

theorem Module.StandsAs.trans {a b c : Module} (h : a.StandsAs b) (k : b.StandsAs c) : a.StandsAs c :=
  ⟨k.regs.trans h.regs, k.mode.trans h.mode, k.tim.trans h.tim, k.out.trans h.out⟩

theorem Module.StandsAs.keeps {m n : Module} (h : m.StandsAs n) (f : Fld) : m.Keeps f n := .same h.regs

theorem Module.standsAs_reach (m : Module) (t : Nat) : m.StandsAs (m.reach t) :=
  ⟨m.adv_regs _, m.adv_mode _, m.adv_tim _, m.adv_out _⟩

theorem Module.standsAs_takeEp (m : Module) (p : Copy → Bool) : m.StandsAs (m.takeEp p) := by
  obtain ⟨sw, took⟩ := m.takeEp_eq p
  rw [took]
  exact ⟨rfl, rfl, rfl, rfl⟩

theorem Module.Keeps.ready {m n : Module} (h : m.Keeps R.SYS_READY_READY n) (b : Nat) : n.ready b = m.ready b :=
  congrArg (bitOf · b) h.2

theorem Module.Keeps.isOn {f : Fld} {m n : Module} (h : m.Keeps f n) : n.isOn f = m.isOn f := congrArg (· == 1) h.2

/-! ### What the sources hand over (R179, R181, R185) -/

theorem Module.rd_handOffset (m : Module) (o : TimeOffset) (f : Fld) : (m.handOffset o).rd f = m.rd f := by
  unfold Module.handOffset
  split <;> rfl

theorem Module.out_handOffset (m : Module) (o : TimeOffset) : (m.handOffset o).out = m.out := by
  unfold Module.handOffset
  split <;> rfl

/-- The Timekeeper, once it is ready, queues an offset behind those that wait. -/
theorem Module.tim_handOffset {m : Module} (ready : m.ready 0 = true) (o : TimeOffset) :
    (m.handOffset o).tim = { m.tim with offsets := m.tim.offsets ++ [o] } := by rw [Module.handOffset, if_pos ready]

/-- The Steward takes a PTP message from EP. -/
def Module.takePtp (m : Module) (t : Nat) : Module := (m.reach t).takeEp fun c => (ethOf c.bytes).etype == 0x88F7

theorem Module.standsAs_takePtp (m : Module) (t : Nat) : m.StandsAs (m.takePtp t) :=
  (m.standsAs_reach t).trans (Module.standsAs_takeEp _ _)

/-- A sound message of the module's own domain without replies shows the ports' states and hands its offset over. -/
theorem mPtpMessage_hands {m : Module} {x : PtpMsg} {o : TimeOffset} (ready : m.ready 0 = true) (sound : x.sound = true)
    (port : bitOf m.tim.cfg.ptpPorts x.port = true) (own : x.domain = m.tim.cfg.domain) (quiet : x.replies = [])
    (offset : x.offset = some o) (t : Nat) :
    mPtpMessage x t m = ((m.takePtp t).wr R.TIM_PTP_PORTS_STATE x.states).handOffset { o with src := 1 } := by
  have stands := m.standsAs_takePtp t
  unfold mPtpMessage
  rw [← Module.takePtp]
  generalize m.takePtp t = n at stands
  have up : n.ready 0 = true := ((stands.keeps _).ready 0).trans ready
  simp only [up, sound, stands.tim, port, own, quiet, offset, Bool.not_true, Bool.false_eq_true, or_self, if_false, if_true,
    List.foldl_nil]

theorem mSyncSend_sends {m : Module} {p : Nat} (role : m.tim.cfg.role = 1) (port : bitOf m.tim.cfg.ptpPorts p = true)
    (master : bitsOf (m.rd R.TIM_PTP_PORTS_STATE) (2 * p) 2 = 2) (up : m.linkUp p = true) (ready : m.ready 0 = true) :
    mSyncSend p m = (m.emit (.ptpSync p m.tns)).macCnt p 6 :=
  if_pos ⟨role, port, master, up, ready⟩

/-- An IRIG-B frame with a year shows the code present and hands over the difference from its on-time edge. -/
theorem mIrigbFrame_hands {m : Module} (run : m.mode ≠ .reset) (sec t : Nat) : mIrigbFrame (some sec) t m =
    ((m.reach t).flag R.SYS_HAUL_IRIGB_PRESENT).handOffset
      ⟨3, ((t : Int) - ((sec + m.rd R.TIM_UTC_UTC_OFFSET) * 1000000000 : Nat)) * 65536, 1000000000, none⟩ := by
  have stands := m.standsAs_reach t
  unfold mIrigbFrame
  generalize m.reach t = n at stands
  have utc : (n.flag R.SYS_HAUL_IRIGB_PRESENT).rd R.TIM_UTC_UTC_OFFSET = m.rd R.TIM_UTC_UTC_OFFSET :=
    (Module.rd_wr_other _ _ (by decide)).trans (stands.keeps _).2
  have on : ¬n.mode = .reset := stands.mode ▸ run
  simp only [if_neg on, utc]

/-! ### Qualified sources (R186) -/

/-- A source may be selected by what SRC_EN, the states of the PTP ports and its own run say. -/
theorem Module.srcQualified_eq (m : Module) (s : Nat) : m.srcQualified s =
    (m.srcEnabled s && ((m.tim.runs.get? s).map SrcRun.qualified).getD false && (s != 1 || m.ptpSlave)) := by
  unfold Module.srcQualified
  cases m.tim.runs.get? s <;> rfl

theorem Module.bestSrc_congr {m n : Module}
    (runs : ∀ s, (n.tim.runs.get? s).map SrcRun.qualified = (m.tim.runs.get? s).map SrcRun.qualified)
    (enabled : n.rd R.TIM_LOCK_SRC_EN = m.rd R.TIM_LOCK_SRC_EN) (ports : n.rd R.TIM_PTP_PORTS_STATE = m.rd R.TIM_PTP_PORTS_STATE) :
    n.bestSrc = m.bestSrc := by
  refine congrArg (List.find? · [1, 2, 3]) (funext fun s => ?_)
  rw [Module.srcQualified_eq, Module.srcQualified_eq, runs, Module.srcEnabled, Module.srcEnabled, enabled, Module.ptpSlave,
    Module.ptpSlave, ports]

/-- The best source is enabled, and where it is PTP a port is in SLAVE state. -/
theorem Module.enabled_of_bestSrc {m : Module} {s : Nat} (best : m.bestSrc = some s) :
    m.srcEnabled s = true ∧ (s = 1 → m.ptpSlave = true) := by
  have qualified : m.srcQualified s = true := List.find?_some best
  rw [Module.srcQualified_eq, Bool.and_eq_true, Bool.and_eq_true] at qualified
  obtain ⟨⟨enabled, -⟩, slave⟩ := qualified
  exact ⟨enabled, fun ptp => by simpa [ptp] using slave⟩

/-! ### Selection (R186, R191) -/

/-- The source s takes over: a selection that changes counts, and the lock begins anew. -/
def Module.choose (m : Module) (s : Nat) : Module :=
  (({ m with tim := { m.tim with selected := some s, ever := true } } : Module).unlock.timCnt 4).writes
    [(R.TIM_STATUS_SRC_CHG_STK, 1), (R.TIM_STATUS_SRC, s), (R.TIM_STATUS_HOLDOVER, 0), (R.TIM_STATUS_FREERUN, 0)]

/-- No source is left: the servo holds its frequency. -/
def Module.holdOver (m : Module) : Module :=
  let n := (({ m with tim := { m.tim with selected := none } } : Module).unlock.timCnt 3).writes
    [(R.TIM_STATUS_HOLDOVER_STK, 1), (R.TIM_STATUS_HOLDOVER, 1), (R.TIM_STATUS_SRC, 0), (R.TIM_STATUS_SLEWING, 0)]
  n.setY (n.freqOnly n.tim.tau)

theorem Module.reselect_of_best {m : Module} (best : m.bestSrc = m.tim.selected) : m.reselect = m := if_pos best

/-- A selection leaves the best source selected, has it take over, or finds none and holds over. -/
theorem Module.reselect_cases (m : Module) : m.bestSrc = m.tim.selected ∧ m.reselect = m ∨
    (∃ s, m.bestSrc = some s ∧ m.reselect = m.choose s) ∨ m.bestSrc = none ∧ m.reselect = m.holdOver := by
  by_cases same : m.bestSrc = m.tim.selected
  · exact .inl ⟨same, Module.reselect_of_best same⟩
  · unfold Module.reselect
    cases best : m.bestSrc with
    | some s => exact .inr (.inl ⟨s, rfl, if_neg (best ▸ same)⟩)
    | none => exact .inr (.inr ⟨rfl, if_neg (best ▸ same)⟩)

theorem Module.mono_tim_writes (m : Module) (l : List (Fld × Nat)) : ((m.writes l).mono, (m.writes l).tim) = (m.mono, m.tim) :=
  foldl_keeps (fun k : Module => (k.mono, k.tim)) (f := fun k (x : Fld × Nat) => k.wr x.1 x.2) (fun _ _ _ => rfl) m

/-- After a selection the selected source is the best there was. -/
theorem Module.selected_reselect (m : Module) : m.reselect.tim.selected = m.bestSrc := by
  have selected (k : Module) (l : List (Fld × Nat)) : (k.writes l).tim.selected = k.tim.selected :=
    congrArg (fun x : Nat × Tim => x.2.selected) (k.mono_tim_writes l)
  obtain ⟨best, eq⟩ | ⟨s, best, eq⟩ | ⟨best, eq⟩ := m.reselect_cases <;> rw [eq, best]
  · exact selected _ _
  · exact selected _ _

/-- The time that windows are judged by, the runs of the sources and the state of the echo: no selection moves them. -/
def Module.runsEcho (m : Module) : Nat × SMap SrcRun × Option (Nat × Nat) × Nat :=
  (m.mono, m.tim.runs, m.tim.echo, m.tim.echoFails)

theorem Module.runsEcho_reselect (m : Module) : m.reselect.runsEcho = m.runsEcho := by
  have beside (k : Module) (l : List (Fld × Nat)) : (k.writes l).runsEcho = k.runsEcho :=
    congrArg (fun x : Nat × Tim => (x.1, x.2.runs, x.2.echo, x.2.echoFails)) (k.mono_tim_writes l)
  obtain ⟨-, eq⟩ | ⟨s, -, eq⟩ | ⟨-, eq⟩ := m.reselect_cases <;> rw [eq]
  · exact beside _ _
  · exact beside _ _

theorem Module.runs_reselect (m : Module) : m.reselect.tim.runs = m.tim.runs := congrArg (·.2.1) m.runsEcho_reselect
theorem Module.mono_reselect (m : Module) : m.reselect.mono = m.mono := congrArg (·.1) m.runsEcho_reselect

/-- A field below the Timekeeper's counters that is none of TIM_STATUS: a selection writes no such field. -/
def Fld.besideStatus (f : Fld) : Prop := f.addr ≠ 0x200000 ∧ f.addr < 0x200200 ∧ f.lsb < 32

theorem srcEn_besideStatus : R.TIM_LOCK_SRC_EN.besideStatus := by unfold Fld.besideStatus; decide
theorem ptpPorts_besideStatus : R.TIM_PTP_PORTS_STATE.besideStatus := by unfold Fld.besideStatus; decide

theorem Fld.besideStatus.key_ne {f g : Fld} (beside : f.besideStatus) (status : g.addr = 0x200000 ∧ g.lsb < 32) : f.key ≠ g.key := by
  obtain ⟨apart, -, place⟩ := beside
  exact Fld.key_ne place status.2 (.inl (status.1 ▸ apart))

theorem Module.keeps_timCnt {f : Fld} (below : f.addr < 0x200200) (place : f.lsb < 32) (m : Module) (k : Nat) :
    m.Keeps f (m.timCnt k) :=
  (m.from_bump (R.TIM_CNT_CNT k) (Nat.le_add_right 0x200200 _) (show 0 < 32 by decide)).keeps below place

theorem Module.keeps_setY {f : Fld} (m : Module) (y : Int) : m.Keeps f (m.setY y) := .same rfl

theorem Module.keeps_reselect (m : Module) {f : Fld} (beside : f.besideStatus) : m.Keeps f m.reselect := by
  have count (k : Module) (n : Nat) : k.Keeps f (k.unlock.timCnt n) :=
    .trans (.trans (k.keeps_wr (g := R.TIM_STATUS_LOCKED) 0 (beside.key_ne (by decide))) (.same rfl))
      (Module.keeps_timCnt beside.2.1 beside.2.2 _ n)
  have shows (k : Module) {l : List (Fld × Nat)} (status : ∀ x ∈ l, x.1.addr = 0x200000 ∧ x.1.lsb < 32) : k.Keeps f (k.writes l) :=
    k.keeps_writes fun x hx => beside.key_ne (status x hx)
  obtain ⟨-, eq⟩ | ⟨s, -, eq⟩ | ⟨-, eq⟩ := m.reselect_cases <;> rw [eq]
  · exact .refl f m
  · have chosen : m.Keeps f { m with tim := { m.tim with selected := some s, ever := true } } := .same rfl
    refine (chosen.trans (count _ 4)).trans (shows _ ?_)
    simp [R.TIM_STATUS_SRC_CHG_STK, R.TIM_STATUS_SRC, R.TIM_STATUS_HOLDOVER, R.TIM_STATUS_FREERUN]
  · have chosen : m.Keeps f { m with tim := { m.tim with selected := none } } := .same rfl
    exact ((chosen.trans (count _ 3)).trans (shows _ (by decide))).trans (Module.keeps_setY _ _)

/-- A selection leaves which source is best, so that a second one changes nothing. -/
theorem Module.bestSrc_reselect (m : Module) : m.reselect.bestSrc = m.bestSrc :=
  Module.bestSrc_congr (fun s => by rw [m.runs_reselect]) (m.keeps_reselect srcEn_besideStatus).2
    (m.keeps_reselect ptpPorts_besideStatus).2

/-! ### The loss of a source (Table 7.3) -/

/-- The module without a source's run and its waiting offsets. -/
def Module.dropSource (m : Module) (s : Nat) : Module :=
  { m with tim := { m.tim with runs := m.tim.runs.erase s, offsets := m.tim.offsets.filter fun o => o.src != s } }

theorem Module.loseSource_eq (m : Module) (s : Nat) : m.loseSource s = (m.dropSource s).reselect := rfl

/-- SOURCE_LOST ends the run no sooner than its timeout, and the best source left is selected. -/
theorem mSourceLost_selects {m : Module} {src : Nat} {r : SrcRun} (run : m.tim.runs.get? src = some r)
    (still : m.sys.still = false) :
    (mSourceLost src m).tim.runs = m.tim.runs.erase src ∧ (mSourceLost src m).tim.selected = (mSourceLost src m).bestSrc ∧
      (mSourceLost src m).mono = max m.mono (r.last + m.rd R.TIM_HOLD_HOLD_TMO_MS * 1000000 * nsUnit) := by
  have lost : mSourceLost src m =
      ((m.reachMono (r.last + m.rd R.TIM_HOLD_HOLD_TMO_MS * 1000000 * nsUnit)).dropSource src).reselect := by
    rw [mSourceLost, run]
    rfl
  rw [lost, Module.runs_reselect, Module.selected_reselect, Module.bestSrc_reselect, Module.mono_reselect]
  exact ⟨congrArg (fun x : Tim => x.runs.erase src) (m.adv_tim _), rfl, Module.mono_reachMono still _⟩

/-- The canonical form shows the same source as best. -/
theorem Module.bestSrc_settle (m : Module) : m.settle.bestSrc = m.bestSrc :=
  Module.bestSrc_congr (fun _ => rfl) (m.rd_settle _) (m.rd_settle _)

/-- Settles O18: PTP messages and frames of IRIG-B come decoded (assumption 59), also without a copy at EP (assumption 52), and a
source is lost no sooner than its timeout (assumption 6). -/
theorem timeSources : Obligations.TimeSources := by
  refine ⟨fun s x o t ready sound port own quiet offset wf => ?_, fun s p role port master up ready => ?_,
    fun s sec t run ready wf => ?_, fun s src r run still => ?_⟩
  · have stands := s.m.standsAs_takePtp t
    have shown : (s.m.takePtp t).Keeps R.SYS_READY_READY ((s.m.takePtp t).wr R.TIM_PTP_PORTS_STATE x.states) :=
      Module.keeps_wr _ _ (by decide)
    have h : SMap.rising (s.m.takePtp t).regs = true := stands.regs ▸ Module.rising_regs_of_wf wf
    refine completes_of_upd (f := mPtpMessage x t) rfl ?_
    rw [mPtpMessage_hands ready sound port own quiet offset, Module.settle_tim, Module.settle_out, Module.rd_settle,
      Module.rd_handOffset, Module.out_handOffset, Module.tim_handOffset ((((stands.keeps _).trans shown).ready 0).trans ready),
      Module.rd_wr_same _ h, Module.wr_tim, Module.wr_out, stands.tim, stands.out]
    exact ⟨rfl, rfl, rfl⟩
  · refine completes_of_upd (f := mSyncSend p) rfl ?_
    rw [mSyncSend_sends role port master up ready]
    exact ⟨rfl, rfl⟩
  · have stands := s.m.standsAs_reach t
    have shown : (s.m.reach t).Keeps R.SYS_READY_READY ((s.m.reach t).flag R.SYS_HAUL_IRIGB_PRESENT) :=
      Module.keeps_wr _ _ (by decide)
    have h : SMap.rising (s.m.reach t).regs = true := stands.regs ▸ Module.rising_regs_of_wf wf
    refine completes_of_upd (f := mIrigbFrame (some sec) t) rfl ?_
    rw [mIrigbFrame_hands run, Module.settle_tim, Module.rd_settle, Module.rd_handOffset,
      Module.tim_handOffset ((((stands.keeps _).trans shown).ready 0).trans ready), Module.flag, Module.rd_wr_same _ h,
      Module.wr_tim, stands.tim]
    exact ⟨rfl, rfl⟩
  · refine completes_of_upd (f := mSourceLost src) rfl ?_
    rw [Module.settle_tim, Module.settle_mono, Module.bestSrc_settle]
    exact mSourceLost_selects run still

end Sys2Proof.Machine
end

section
/-!
PROOFS. The servo's equations (R187).
-/

namespace Sys2Proof.Machine
open Sys2Proof.Claims

/-! ### The run of the selected source (R186) -/

def Module.setRun (m : Module) (s : Nat) (r : SrcRun) : Module := { m with tim := { m.tim with runs := m.tim.runs.set s r } }

/-- A qualified source whose run goes on is as good as before. -/
theorem Module.bestSrc_setRun {m : Module} {s : Nat} {r k : SrcRun} (run : m.tim.runs.get? s = some r)
    (same : k.qualified = r.qualified) : (m.setRun s k).bestSrc = m.bestSrc := by
  refine Module.bestSrc_congr (fun x => ?_) rfl rfl
  rw [Module.setRun, SMap.get?_set]
  split
  case _ here => rw [here, run, Option.map_some, Option.map_some, same]
  case _ => rfl

/-- An offset in time of the source that is selected and best carries its run on; the selection stands. -/
theorem Module.runOffset_of_selected {m : Module} {s : Nat} {r : SrcRun} (run : m.tim.runs.get? s = some r)
    (qualified : r.qualified = true) (inTime : m.mono < r.last + m.rd R.TIM_HOLD_HOLD_TMO_MS * 1000000 * nsUnit)
    (selected : m.tim.selected = some s) (best : m.bestSrc = some s) :
    m.runOffset s = m.setRun s { r with last := m.mono, qualified := true } := by
  have stays : (m.setRun s { r with last := m.mono, qualified := true }).bestSrc = m.tim.selected := by
    rw [Module.bestSrc_setRun run qualified.symm, best, selected]
  unfold Module.runOffset
  simp only [run, if_neg (Nat.not_le.mpr inTime), qualified, Bool.true_or]
  exact Module.reselect_of_best (m := m.setRun s _) stays

/-! ### The equations (R187) -/

/-- What the servo does with an offset below STEP_NS that says nothing of UTC. -/
theorem Module.takeOffset_of_below {m : Module} {o : TimeOffset} (utc : o.utc = none)
    (below : o.theta.natAbs < m.rd R.TIM_STEP_NS_STEP_NS * 65536) : m.takeOffset o =
      (((m.timCnt 0).wr R.TIM_OFFSET_THETA (thetaShown o.theta)).servo o.theta o.tau).lockAfter o.theta := by
  have counted : m.Keeps R.TIM_STEP_NS_STEP_NS ((m.timCnt 0).wr R.TIM_OFFSET_THETA (thetaShown o.theta)) :=
    (m.keeps_timCnt (by decide) (by decide) 0).trans (Module.keeps_wr _ _ (by decide))
  have heard : ((m.timCnt 0).wr R.TIM_OFFSET_THETA (thetaShown o.theta)).takeUtc o =
      (m.timCnt 0).wr R.TIM_OFFSET_THETA (thetaShown o.theta) := by rw [Module.takeUtc, utc]
  rw [Module.takeOffset, heard, counted.2, if_neg (Nat.not_le.mpr below)]

/-- What the servo's equations set, the offsets that wait and the primary clock. -/
def Module.servoClk (m : Module) : Int × Int × Nat × List TimeOffset × Nat :=
  (m.tim.integ, m.tim.y, m.tim.incr, m.tim.offsets, m.clk)

theorem Module.servoClk_wr (m : Module) (f : Fld) (v : Nat) : (m.wr f v).servoClk = m.servoClk := rfl
theorem Module.servoClk_flag (m : Module) (f : Fld) : (m.flag f).servoClk = m.servoClk := rfl
theorem Module.servoClk_nearFar (m : Module) (a b : Nat) :
    ({ m with tim := { m.tim with near := a, far := b } } : Module).servoClk = m.servoClk := rfl

/-- What an offset means for LOCKED (R190) moves none of them. -/
theorem Module.servoClk_lockAfter (m : Module) (theta : Int) : (m.lockAfter theta).servoClk = m.servoClk := by
  simp only [Module.lockAfter, apply_ite Module.servoClk, Module.servoClk_wr, Module.servoClk_flag, Module.servoClk_nearFar,
    ite_self]

/-- I of R187, from the integral before. -/
def Module.servoI (m : Module) (theta : Int) (tau : Nat) : Int :=
  clampTo (m.rd R.TIM_LIMITS_MAX_PPB * 65536 * tau / 1000000000) (m.tim.integ + divRne (m.rd R.TIM_SERVO_KI * theta) 65536)

/-- y of R187. -/
def Module.servoY (m : Module) (theta : Int) (tau : Nat) : Int :=
  clampTo (m.rd R.TIM_LIMITS_MAX_PPB * 65536)
    (divRne (-((divRne (m.rd R.TIM_SERVO_KP * theta) 65536 + m.servoI theta tau) * 1000000000)) (max 1 tau))

theorem Module.servoClk_setY (m : Module) (y : Int) :
    (m.setY y).servoClk = (m.tim.integ, y, incrOf y, m.tim.offsets, m.clk) := rfl

theorem Module.servoClk_servo (m : Module) (theta : Int) (tau : Nat) : (m.servo theta tau).servoClk =
    (m.servoI theta tau, m.servoY theta tau, incrOf (m.servoY theta tau), m.tim.offsets, m.clk) := by
  rw [Module.servo, Module.servoClk_setY, Module.wr_tim, Module.wr_clk]
  simp only [Module.servoY, Module.servoI, Module.maxPpb]

/-- The servo's equations read three registers and the integral. -/
theorem Module.servoIY_congr {m n : Module} (integ : n.tim.integ = m.tim.integ)
    (same : ∀ f ∈ [R.TIM_LIMITS_MAX_PPB, R.TIM_SERVO_KI, R.TIM_SERVO_KP], n.rd f = m.rd f) (theta : Int) (tau : Nat) :
    n.servoI theta tau = m.servoI theta tau ∧ n.servoY theta tau = m.servoY theta tau := by
  have i : n.servoI theta tau = m.servoI theta tau := by
    rw [Module.servoI, Module.servoI, integ, same _ (by decide), same _ (by decide)]
  refine ⟨i, ?_⟩
  rw [Module.servoY, Module.servoY, i, same _ (by decide), same _ (by decide)]

/-- An offset below STEP_NS moves the servo by its equations; no clock moves with it. -/
theorem Module.servoClk_takeOffset {m : Module} {o : TimeOffset} (utc : o.utc = none)
    (below : o.theta.natAbs < m.rd R.TIM_STEP_NS_STEP_NS * 65536) : (m.takeOffset o).servoClk =
      (m.servoI o.theta o.tau, m.servoY o.theta o.tau, incrOf (m.servoY o.theta o.tau), m.tim.offsets, m.clk) := by
  have same (f : Fld) (read : f ∈ [R.TIM_LIMITS_MAX_PPB, R.TIM_SERVO_KI, R.TIM_SERVO_KP]) :
      ((m.timCnt 0).wr R.TIM_OFFSET_THETA (thetaShown o.theta)).rd f = m.rd f := by
    have place : f.addr < 0x200200 ∧ f.lsb < 32 ∧ f.key ≠ R.TIM_OFFSET_THETA.key := by revert f; decide
    exact (Module.rd_wr_other _ _ place.2.2).trans (m.keeps_timCnt place.1 place.2.1 0).2
  obtain ⟨i, y⟩ := Module.servoIY_congr (m := m) (n := (m.timCnt 0).wr R.TIM_OFFSET_THETA (thetaShown o.theta)) rfl same
    o.theta o.tau
  rw [Module.takeOffset_of_below utc below, Module.servoClk_lockAfter, Module.servoClk_servo, i, y]
  rfl

/-- The offsets that wait are taken off the queue. -/
def Module.dropOffsets (m : Module) : Module := { m with tim := { m.tim with offsets := [] } }

/-- SERVO_OFFSET takes the one offset that waits, of the selected and best source. -/
theorem mServoOffset_takes {m : Module} {o : TimeOffset} {r : SrcRun} (waits : m.tim.offsets = [o])
    (selected : m.tim.selected = some o.src) (best : m.bestSrc = some o.src) (ready : m.ready 0 = true) (on : m.mode ≠ .reset) (run : m.tim.runs.get? o.src = some r)
    (qualified : r.qualified = true) (inTime : m.mono < r.last + m.rd R.TIM_HOLD_HOLD_TMO_MS * 1000000 * nsUnit) :
    mServoOffset m = (m.dropOffsets.setRun o.src { r with last := m.mono, qualified := true }).takeOffset o := by
  obtain ⟨enabled, slave⟩ := Module.enabled_of_bestSrc best
  have takes : ¬((!m.ready 0) = true ∨ m.mode = .reset ∨ (!m.srcEnabled o.src) = true ∨ (o.src = 1 ∧ (!m.ptpSlave) = true)) := by
    rintro (h | h | h | ⟨ptp, h⟩)
    · exact absurd ready (by simpa using h)
    · exact on h
    · exact absurd enabled (by simpa using h)
    · exact absurd (slave ptp) (by simpa using h)
  have goesOn : m.dropOffsets.runOffset o.src = m.dropOffsets.setRun o.src { r with last := m.mono, qualified := true } :=
    Module.runOffset_of_selected (m := m.dropOffsets) run qualified inTime selected best
  rw [mServoOffset, waits]
  refine (if_neg takes).trans ?_
  change (if (m.dropOffsets.runOffset o.src).tim.selected = some o.src then (m.dropOffsets.runOffset o.src).takeOffset o
    else m.dropOffsets.runOffset o.src) = _
  rw [goesOn]
  exact if_pos selected

/-- Settles O19: the equations in the units of 2^-16 ns and 2^-16 ppb, each product rounded to nearest, ties to even, are those of
assumption 61. -/
theorem servoEquations : Obligations.ServoEquations := by
  intro s o r waits selected best ready on run qualified inTime utc below
  have moved : (mServoOffset s.m).servoClk = (s.m.servoI o.theta o.tau, s.m.servoY o.theta o.tau,
      incrOf (s.m.servoY o.theta o.tau), [], s.m.clk) := by
    rw [mServoOffset_takes waits selected best ready on run qualified inTime]
    exact Module.servoClk_takeOffset utc below
  simp only [Module.servoClk, Prod.mk.injEq] at moved
  refine completes_of_upd (f := mServoOffset) rfl ?_
  rw [Module.settle_tim, Module.settle_clk]
  exact moved

end Sys2Proof.Machine
end

section
/-!
PROOFS. The Haulato bus: the relay of edge and time frame, the originator's pair (R183), and the echo in both directions (R182,
R184).
-/

namespace Sys2Proof.Machine
open Sys2Proof.Claims

/-! ### Edge and time frame (R183) -/

theorem Module.StandsAs.haulOrig {m n : Module} (h : m.StandsAs n) : n.haulOrig = m.haulOrig := (h.keeps _).isOn

/-- A module that is not the originator takes part in the bus at the instant that time has run on to. -/
theorem Module.StandsAs.relays {m n : Module} (h : m.StandsAs n) (run : m.mode ≠ .reset) (relay : m.haulOrig = false) :
    ¬(n.mode = .reset ∨ n.haulOrig = true) := by
  simp [h.mode, run, h.haulOrig, relay]

/-- An edge on IN is held for its time frame and relayed 160 ns later. -/
theorem mHaulatoEdge_relays {m : Module} (run : m.mode ≠ .reset) (relay : m.haulOrig = false) (t : Nat) :
    (mHaulatoEdge t m).tim.edge = some t ∧ (mHaulatoEdge t m).out = m.out ++ [.edge (t + 160)] := by
  have stands := m.standsAs_reach t
  unfold mHaulatoEdge
  generalize m.reach t = n at stands
  dsimp only
  rw [if_neg (stands.relays run relay)]
  exact ⟨rfl, congrArg (· ++ [_]) stands.out⟩

/-- The body of a relayed time frame: HOPS + 1, and the delay of IN and of the relay added. -/
def relayedBody (b : Bytes) (dly : Nat) : Bytes :=
  (b.take 8).drop 1 ++ beBytes 4 (beAt b 8 4 + dly + 160) ++ beBytes 1 (beAt b 12 1 + 1) ++ (b.drop 13).take 3

/-- A frame of the bus around its body (Table 7.2). -/
def busFrame (body : Bytes) : Bytes := [0xA5] ++ body ++ beBytes 2 (crc16 body)

/-- What a time frame says of the edge that it follows (R183). -/
def haulatoOffset (b : Bytes) (e dly : Nat) : TimeOffset :=
  ⟨2, ((e : Int) - (beAt b 2 6 * 1000000000 + beAt b 8 4 + dly : Nat)) * 65536, 1000000000, some (beAt b 14 2, false, false)⟩

/-- The module has relayed a time frame, and the edge before it is used. -/
def Module.relayFrame (m : Module) (b : Bytes) (dly : Nat) : Module :=
  let n := m.emit (.haulato 0 (busFrame (relayedBody b dly)))
  { n with tim := { n.tim with edge := none } }

/-- A sound time frame of a good source is relayed and its offset handed over. -/
theorem mHaulatoTimeFrame_relays {m : Module} {b : Bytes} {e : Nat} (run : m.mode ≠ .reset) (relay : m.haulOrig = false)
    (length : b.length = 18) (sound : haulOk b 1 = true) (hops : beAt b 12 1 < 16) (good : beAt b 13 1 % 4 < 2)
    (edge : m.tim.edge = some e) (t : Nat) : mHaulatoTimeFrame b t m =
      ((m.reach t).relayFrame b (m.rd R.SYS_HAUL_IN_DLY_NS)).handOffset (haulatoOffset b e (m.rd R.SYS_HAUL_IN_DLY_NS)) := by
  have stands := m.standsAs_reach t
  have taken : ¬(b.length ≠ 18 ∨ (!haulOk b 1) = true ∨ 16 ≤ beAt b 12 1) := by simp [length, sound, hops]
  unfold mHaulatoTimeFrame
  generalize m.reach t = n at stands
  have held : ∀ x : Emission, (n.emit x).tim.edge = some e := fun _ => (congrArg Tim.edge stands.tim).trans edge
  dsimp only
  rw [if_neg (stands.relays run relay), if_neg taken, held]
  dsimp only
  rw [if_neg (Nat.not_le.mpr good), (stands.keeps _).2]
  rfl

/-- The originator's time frame for the second s (Table 7.2). -/
def Module.originBody (m : Module) (s : Nat) : Bytes :=
  beBytes 1 1 ++ beBytes 6 s ++ beBytes 4 0 ++ beBytes 1 0 ++ beBytes 1 m.haulQual ++ beBytes 2 (m.rd R.TIM_UTC_UTC_OFFSET)

theorem Module.StandsAs.originBody {m n : Module} (h : m.StandsAs n) (s : Nat) : n.originBody s = m.originBody s := by
  have qual : n.haulQual = m.haulQual := by
    rw [Module.haulQual, Module.haulQual, (h.keeps _).isOn, (h.keeps _).isOn, h.tim]
  rw [Module.originBody, Module.originBody, qual, (h.keeps _).2]

/-- The originator sends the edge and the frame of its next second. -/
theorem mHaulatoOriginEdge_sends {m : Module} (run : m.mode ≠ .reset) (origin : m.haulOrig = true) :
    (mHaulatoOriginEdge m).out = m.out ++ [.edge ((m.tns / 1000000000 + 1) * 1000000000),
      .haulato 0 (busFrame (m.originBody (m.tns / 1000000000 + 1)))] := by
  have sends : ¬(m.mode = .reset ∨ (!m.haulOrig) = true) := by simp [run, origin]
  have sent : mHaulatoOriginEdge m = (let s := m.tns / 1000000000 + 1
      let n := (m.reach (s * 1000000000)).emit (.edge (s * 1000000000))
      n.emit (.haulato 0 (busFrame (n.originBody s)))) := if_neg sends
  have body (s x : Nat) : ((m.reach x).emit (.edge x)).originBody s = m.originBody s := (m.standsAs_reach x).originBody s
  rw [sent]
  dsimp only
  rw [body]
  show ((m.reach _).out ++ [_]) ++ [_] = _
  rw [(m.standsAs_reach _).out, List.append_assoc]
  rfl

/-! ### The echo on IN (R184) -/

theorem inLink_key_ne_inDly : R.SYS_HAUL_IN_LINK.key ≠ R.SYS_HAUL_IN_DLY_NS.key := by decide

/-- An answer in time with the token asked for ends the echo and shows the link with its delay. -/
theorem mEchoAnswer_measures {m : Module} (h : SMap.rising m.regs = true) {b : Bytes} {t t0 : Nat}
    (asked : m.tim.echo = some (beAt b 2 2, t0)) (length : b.length = 6) (sound : haulOk b 6 = true) (after : t0 ≤ t)
    (inTime : t < t0 + 10000) : (mEchoAnswer b t m).tim.echo = none ∧ (mEchoAnswer b t m).tim.echoFails = 0 ∧
      (mEchoAnswer b t m).rd R.SYS_HAUL_IN_LINK = 1 ∧
      (mEchoAnswer b t m).rd R.SYS_HAUL_IN_DLY_NS = (t - t0 - 2000) / 2 % 2 ^ R.SYS_HAUL_IN_DLY_NS.width := by
  have stands := m.standsAs_reach t
  have taken : ¬(b.length ≠ 6 ∨ (!haulOk b 6) = true) := by simp [length, sound]
  have matching : ¬(beAt b 2 2 ≠ beAt b 2 2 ∨ t < t0 ∨ t0 + 10000 ≤ t) := by omega
  have run : mEchoAnswer b t m =
      (let n := m.reach t
      (({ n with tim := { n.tim with echo := none, echoFails := 0 } } : Module).wr R.SYS_HAUL_IN_DLY_NS ((t - t0 - 2000) / 2)).flag
        R.SYS_HAUL_IN_LINK) := by
    rw [mEchoAnswer, asked]
    dsimp only
    rw [if_neg taken, if_neg matching]
  have rising : SMap.rising (m.reach t).regs = true := stands.regs ▸ h
  rw [run]
  generalize m.reach t = n at rising
  refine ⟨rfl, rfl, Module.rd_wr_same _ (Module.rising_wr ?_ _ _) _ _, (Module.rd_wr_other _ _ inLink_key_ne_inDly.symm).trans
    (Module.rd_wr_same _ ?_ _ _)⟩
  · exact rising
  · exact rising

/-- The module after one more failed echo, before what three in a row mean. -/
def Module.countFail (m : Module) : Module :=
  ({ m with tim := { m.tim with echo := none, echoFails := m.tim.echoFails + 1 } } : Module).timCnt 5

theorem Module.echoFail_eq (m : Module) : m.echoFail = if m.tim.echoFails + 1 < 3 then m.countFail else
    ((m.countFail.wr R.SYS_HAUL_IN_LINK 0).wr R.SYS_HAUL_IN_DLY_NS 0).loseSource 2 := rfl

theorem Module.rising_countFail {m : Module} (h : SMap.rising m.regs = true) : SMap.rising m.countFail.regs = true :=
  Module.rising_wr (m := { m with tim := _ }) h _ _

theorem Module.echo_loseSource (m : Module) (s : Nat) :
    (m.loseSource s).tim.echo = m.tim.echo ∧ (m.loseSource s).tim.echoFails = m.tim.echoFails := by
  have stays := (m.dropSource s).runsEcho_reselect
  exact ⟨congrArg (·.2.2.1) stays, congrArg (·.2.2.2) stays⟩

theorem inLink_besideStatus : R.SYS_HAUL_IN_LINK.besideStatus := by unfold Fld.besideStatus; decide

theorem Module.keeps_loseSource (m : Module) (s : Nat) {f : Fld} (beside : f.besideStatus) : m.Keeps f (m.loseSource s) :=
  Module.Keeps.trans (b := m.dropSource s) (.same rfl) (Module.keeps_reselect _ beside)

/-- A failed echo ends the request and counts; the third in a row takes IN_LINK down. -/
theorem Module.echoFail_counts {m : Module} (h : SMap.rising m.regs = true) :
    m.echoFail.tim.echo = none ∧ m.echoFail.tim.echoFails = m.tim.echoFails + 1 ∧
      (2 ≤ m.tim.echoFails → m.echoFail.rd R.SYS_HAUL_IN_LINK = 0) := by
  rw [Module.echoFail_eq]
  split
  case _ few => exact ⟨rfl, rfl, fun many => by omega⟩
  case _ =>
    obtain ⟨echo, fails⟩ := ((m.countFail.wr R.SYS_HAUL_IN_LINK 0).wr R.SYS_HAUL_IN_DLY_NS 0).echo_loseSource 2
    refine ⟨echo, fails, fun _ => (Module.keeps_loseSource _ 2 inLink_besideStatus).2.trans ?_⟩
    exact (Module.rd_wr_other _ _ inLink_key_ne_inDly).trans (Module.rd_wr_same _ (Module.rising_countFail h) _ _)

theorem mEchoTimeout_fails {m : Module} {tok t0 : Nat} (asked : m.tim.echo = some (tok, t0)) :
    mEchoTimeout m = (m.reach (t0 + 10000)).echoFail := by
  rw [mEchoTimeout, asked]

/-! ### The echo on OUT (R184) -/

/-- A request on OUT is answered with its token, and OUT_LINK holds for 2 s. -/
theorem mEchoRequestReceive_answers {m : Module} (h : SMap.rising m.regs = true) (run : m.mode ≠ .reset) {b : Bytes}
    (length : b.length = 6) (sound : haulOk b 5 = true) (t : Nat) :
    (mEchoRequestReceive b t m).out = m.out ++ [.haulato 0 (echoFrame 6 (beAt b 2 2))] ∧
      (mEchoRequestReceive b t m).rd R.SYS_HAUL_OUT_LINK = 1 ∧ (mEchoRequestReceive b t m).tim.outUntil = t + 2000000000 := by
  have stands := m.standsAs_reach t
  have taken : ¬(b.length ≠ 6 ∨ (!haulOk b 5) = true) := by simp [length, sound]
  unfold mEchoRequestReceive
  generalize m.reach t = n at stands
  have on : ¬n.mode = .reset := stands.mode ▸ run
  have rising : SMap.rising n.regs = true := stands.regs ▸ h
  dsimp only
  rw [if_neg on, if_neg taken]
  exact ⟨congrArg (· ++ [_]) stands.out, Module.rd_wr_same { n with tim := _ } rising R.SYS_HAUL_OUT_LINK 1, rfl⟩

/-- OUT_LINK falls when its hold ends. -/
theorem rd_mOutLinkExpiry {m : Module} (h : SMap.rising m.regs = true) (up : m.rd R.SYS_HAUL_OUT_LINK = 1) :
    (mOutLinkExpiry m).rd R.SYS_HAUL_OUT_LINK = 0 := by
  have on : m.isOn R.SYS_HAUL_OUT_LINK = true := by simp [Module.isOn, up]
  rw [mOutLinkExpiry, if_pos on]
  exact Module.rd_wr_same _ ((m.standsAs_reach _).regs ▸ h) _ _

/-! ### The clauses -/

/-- Settles O20, each clause from the lemma about its command: frames and edges that leave on the bus stand in the list of
assumption 7, and an echo or a hold ends no sooner than its instant (assumption 6). -/
theorem haulatoBus : Obligations.HaulatoBus := by
  refine ⟨fun s t run relay => ?_, fun s b t e run relay length sound hops good edge ready => ?_, fun s run origin => ?_,
    fun s token run => ?_, fun s b t t0 asked length sound after inTime wf => ?_, fun s tok t0 asked wf => ?_,
    fun s b t run length sound wf => ?_, fun s up wf => ?_⟩
  · exact completes_of_upd (f := mHaulatoEdge t) rfl (mHaulatoEdge_relays run relay t)
  · have stands := s.m.standsAs_reach t
    have still : s.m.Keeps R.SYS_READY_READY ((s.m.reach t).relayFrame b (s.m.rd R.SYS_HAUL_IN_DLY_NS)) :=
      (stands.keeps _).trans (.same rfl)
    refine completes_of_upd (f := mHaulatoTimeFrame b t) rfl ?_
    rw [mHaulatoTimeFrame_relays run relay length sound hops good edge, Module.settle_tim, Module.settle_out, Module.out_handOffset,
      Module.tim_handOffset ((still.ready 0).trans ready)]
    exact ⟨congrArg (· ++ [_]) stands.out, rfl, congrArg (· ++ [_]) (congrArg Tim.offsets stands.tim :)⟩
  · exact completes_of_upd (f := mHaulatoOriginEdge) rfl (mHaulatoOriginEdge_sends run origin)
  · have asks : mEchoRequest token s.m = _ := if_neg run
    refine completes_of_upd (f := mEchoRequest token) rfl ?_
    rw [asks]
    exact ⟨rfl, rfl⟩
  · refine completes_of_upd (f := mEchoAnswer b t) rfl ?_
    rw [Module.settle_tim, Module.rd_settle, Module.rd_settle]
    exact mEchoAnswer_measures (Module.rising_regs_of_wf wf) asked length sound after inTime
  · have stands := s.m.standsAs_reach (t0 + 10000)
    have fails := Module.echoFail_counts (m := s.m.reach (t0 + 10000)) (stands.regs ▸ Module.rising_regs_of_wf wf)
    refine completes_of_upd (f := mEchoTimeout) rfl ?_
    rw [Module.settle_tim, Module.rd_settle, mEchoTimeout_fails asked]
    rwa [stands.tim] at fails
  · refine completes_of_upd (f := mEchoRequestReceive b t) rfl ?_
    rw [Module.settle_tim, Module.settle_out, Module.rd_settle]
    exact mEchoRequestReceive_answers (Module.rising_regs_of_wf wf) run length sound t
  · refine completes_of_upd (f := mOutLinkExpiry) rfl ?_
    rw [Module.rd_settle]
    exact rd_mOutLinkExpiry (Module.rising_regs_of_wf wf) up

end Sys2Proof.Machine
end

section
/-!
PROOFS. A sample of a synchronised stream on its way into its slot (R199, R203), and the second boundary at which the estimate takes
the mean of its terms (R204) and every chain the skew that VAT_SKEW shows (R225).
-/

namespace Sys2Proof.Machine
open Sys2Proof.Claims

/-! ### What placing depends on -/

/-- n places the samples of stream k as m does: the clock, the Vat, the sessions and the rate of the stream are the same. -/
structure Module.PlacesAs (k : Nat) (m n : Module) : Prop where
  clk : n.clk = m.clk
  vat : n.vat = m.vat
  acq : n.acq = m.acq
  rate : n.streamRate k = m.streamRate k

theorem Module.PlacesAs.trans {k : Nat} {a b c : Module} (h : a.PlacesAs k b) (g : b.PlacesAs k c) : a.PlacesAs k c :=
  ⟨g.clk.trans h.clk, g.vat.trans h.vat, g.acq.trans h.acq, g.rate.trans h.rate⟩

/-- A write behind VAT_STRM_CFG of the stream. -/
theorem Module.placesAs_wr {k : Nat} (m : Module) {f : Fld} (behind : 0x510000 + 0x80 * k < f.addr) (v : Nat) :
    m.PlacesAs k (m.wr f v) := by
  refine ⟨rfl, rfl, rfl, congrArg rateCode (m.rd_wr_other v ?_)⟩
  simp only [Fld.key, R.VAT_STRM_CFG_RATE_CODE]
  omega

theorem Module.placesAs_strmCnt (k : Nat) (m : Module) (j : Nat) : m.PlacesAs k (m.strmCnt k j) :=
  m.placesAs_wr (by simp only [R.VAT_STRM_CNT_CNT]; omega) _

theorem Module.PlacesAs.tns {k : Nat} {m n : Module} (h : m.PlacesAs k n) : n.tns = m.tns := Module.tns_of_clk h.clk

theorem Module.PlacesAs.inRing {k : Nat} {m n : Module} (h : m.PlacesAs k n) (x : Stream) (g : Int) :
    n.inRing k x g = m.inRing k x g := by
  unfold Module.inRing
  rw [h.tns, h.rate]

theorem Module.PlacesAs.slotShut {k : Nat} {m n : Module} (h : m.PlacesAs k n) (x : Stream) (g : Nat) :
    n.slotShut k x g = m.slotShut k x g := by
  unfold Module.slotShut Module.streamFeeds Module.decimOf
  rw [h.tns, h.rate, h.vat]

/-! ### Placing (R203) -/

/-- The grid index of the sample's counter instant (R199). -/
def Module.counterSlot (m : Module) (k : Nat) (a : Asdu) : Int :=
  counterInstant (m.streamRate k) a.smpCnt m.tns / 1000000000 * m.streamRate k + a.smpCnt

theorem Module.PlacesAs.counterSlot {k : Nat} {m n : Module} (h : m.PlacesAs k n) (a : Asdu) :
    n.counterSlot k a = m.counterSlot k a := by
  unfold Module.counterSlot
  rw [h.tns, h.rate]

/-- An EMPTY slot of the ring whose frame has not closed takes the sample (checks 11 to 13 of Table 8.1). -/
theorem Module.placeAsdu_fills {m : Module} {k : Nat} {x : Stream} {g : Int} (stream : m.vat.streams.get? k = some x)
    (held : m.inRing k x g = true) (empty : x.slots.get? g.toNat = none) (unshut : m.slotShut k x g.toNat = false) (tc : Int)
    (marks : Nat) (data : List (Nat × Nat)) :
    ((m.placeAsdu k g tc marks data).vat.streams.get? k).bind (·.slots.get? g.toNat) =
        some ⟨true, false, data.map fun d => (d.1 % 2 ^ 32, d.2 % 2 ^ 14 + marks), []⟩ ∧
      (m.placeAsdu k g tc marks data).acq = m.acq := by
  simp only [Module.placeAsdu, stream, held, empty, unshut, Bool.not_true, Bool.false_eq_true, if_false]
  refine ⟨?_, rfl⟩
  have shown : ∀ y : Stream, ((m.setStream k y).strmCnt k 1).vat.streams.get? k = some y := fun y => SMap.get?_set_same _ _ y
  rw [shown, Option.bind_some]
  split <;> exact SMap.get?_set_same _ _ _

/-- LAST_SMPSYNCH and UNSYNC after a synchronised sample. -/
def Module.markSynced (m : Module) (k : Nat) (a : Asdu) : Module :=
  (m.wr (R.VAT_STRM_STAT_LAST_SMPSYNCH k) a.smpSynch).wr (R.VAT_STRM_STAT_UNSYNC k) 0

theorem Module.placesAs_markSynced (m : Module) (k : Nat) (a : Asdu) : m.PlacesAs k (m.markSynced k a) :=
  (m.placesAs_wr (by simp only [R.VAT_STRM_STAT_LAST_SMPSYNCH]; omega) _).trans
    (Module.placesAs_wr _ (by simp only [R.VAT_STRM_STAT_UNSYNC]; omega) _)

theorem Module.setPlacement_of_same {m : Module} {k : Nat} {x : Stream} {est : Bool} (stream : m.vat.streams.get? k = some x)
    (same : x.byEstimate = some est) (first : Int) : m.setPlacement k est first = m := by
  simp only [Module.setPlacement, stream, same, if_true]

/-- A sample that meets the stream's requirement is placed by its counter instant (R199, R201). -/
theorem Module.svAsdu_synced {m : Module} {x : SvFrame} {k : Nat} {st : Stream} {a : Asdu}
    (stream : m.vat.streams.get? k = some st) (counter : a.smpCnt < m.streamRate k) (synced : syncMeets st.cfg a.smpSynch = true)
    (byCounter : st.byEstimate = some false) (est : Int) :
    m.svAsdu x k est a = (m.markSynced k a).placeAsdu k (m.counterSlot k a) (counterInstant (m.streamRate k) a.smpCnt m.tns)
      (b2n x.sim * 2 ^ 22) a.data := by
  simp only [Module.svAsdu, stream]
  rw [if_neg (Nat.not_le.mpr counter), if_pos synced]
  exact congrArg (Module.placeAsdu · k _ _ _ _) (Module.setPlacement_of_same (m := m.markSynced k a) stream byCounter 0)

/-! ### A frame at the Vat (R200 to R202) -/

/-- The Vat takes a frame from EP at t. -/
def Module.reachSv (m : Module) (t : Nat) : Module := (m.reach t).takeEp fun c => (ethOf c.bytes).etype == 0x88BA

theorem Module.reachSv_eq (m : Module) (t : Nat) : ∃ x, m.reachSv t = { m.reach t with sw := x } := (m.reach t).takeEp_eq _

/-- What a frame that passed the frame-level checks leaves in its stream's registers. -/
def Module.acceptSv (m : Module) (x : SvFrame) (k : Nat) : Module :=
  let n := (m.strmCnt k 0).wr (R.VAT_STRM_LAST_TW k) m.ts32
  if x.sim then n.flag (R.VAT_STRM_STAT_SIM_LATCHED k) else n

theorem Module.placesAs_acceptSv (m : Module) (x : SvFrame) (k : Nat) : m.PlacesAs k (m.acceptSv x k) := by
  have counted : m.PlacesAs k ((m.strmCnt k 0).wr (R.VAT_STRM_LAST_TW k) m.ts32) :=
    (m.placesAs_strmCnt k 0).trans (Module.placesAs_wr _ (by simp only [R.VAT_STRM_LAST_TW]; omega) _)
  unfold Module.acceptSv
  dsimp only
  split
  · exact counted.trans (Module.placesAs_wr _ (by simp only [R.VAT_STRM_STAT_SIM_LATCHED]; omega) 1)
  · exact counted

theorem Module.vatOn_congr {m n : Module} (regs : n.regs = m.regs) (mode : n.mode = m.mode) : n.vatOn = m.vatOn := by
  unfold Module.vatOn Module.ready
  rw [Module.rd_congr regs, mode]

theorem Module.svKey_congr {m n : Module} (regs : n.regs = m.regs) (x : SvFrame) (k : Nat) (st : Stream) :
    n.svKey x k st = m.svKey x k st := by
  unfold Module.svKey
  simp only [Module.rd_congr regs]

/-- A synchronised sample adds no term to the estimate (R204). -/
theorem Module.frameTerms_synced {x : SvFrame} {st : Stream} {a : Asdu} (one : x.asdus = [a])
    (synced : syncMeets st.cfg a.smpSynch = true) (m : Module) (k : Nat) : m.frameTerms x k st = [] := by
  simp [Module.frameTerms, one, synced]

/-- The frame of one synchronised sample that passes the frame-level checks of the one stream it is for. -/
theorem Module.takeSv_one {m : Module} {x : SvFrame} {t k : Nat} {st : Stream} {a : Asdu} (on : m.vatOn = true)
    (fed : ∀ y ∈ m.vat.streams, (m.vat.chans.any fun z => z.2.stream == y.1) = true)
    (hit : (m.vat.streams.filter fun y => m.svKey x y.1 y.2) = [(k, st)]) (enabled : st.state ≠ .disabled)
    (passes : (m.reach t).svFrameCheck x k st = none) (one : x.asdus = [a]) (synced : syncMeets st.cfg a.smpSynch = true) :
    (m.takeSv x t).1 = ((m.reachSv t).acceptSv x k).svAsdu x k 0 a := by
  obtain ⟨sw, took⟩ := m.reachSv_eq t
  have vat : (m.reachSv t).vat = m.vat := by rw [took, ← m.reach_vat t]
  have regs : (m.reachSv t).regs = m.regs := by rw [took, ← m.reach_regs t]
  have mode : (m.reachSv t).mode = m.mode := by rw [took, ← m.adv_mode _]; rfl
  have runs : (m.reachSv t).vatOn = true := (Module.vatOn_congr regs mode).trans on
  have judged : (m.reachSv t).svFrameCheck x k st = none := by rw [took]; exact passes
  have unfed : (m.vat.streams.filter fun (s, _) => !(m.vat.chans.any fun (_, c) => c.stream == s)) = [] :=
    List.filter_eq_nil_iff.mpr fun y hy => by simpa using fed y hy
  have hits : (m.vat.streams.filter fun (s, st) => (m.reachSv t).svKey x s st) = [(k, st)] := by
    simpa only [Module.svKey_congr regs] using hit
  have found : (([(k, st)] : SMap Stream).find? fun (_, st) => st.state != .disabled) = some (k, st) := by simp [enabled]
  have noTerms : ∀ n : Module, n.frameTerms x k st = [] := fun n => n.frameTerms_synced one synced k
  have named : ((m.reach t).takeEp fun c => (ethOf c.bytes).etype == 0x88BA) = m.reachSv t := rfl
  simp only [Module.takeSv, named, runs, vat, unfed, hits, found, judged, noTerms, one, List.foldl_cons, List.foldl_nil,
    Bool.not_true, Bool.false_eq_true, true_or, if_false, if_true]
  split <;> rfl

theorem Module.fieldTrig_of_no_session {m : Module} (noSession : m.acq.sessions = []) (kind src : Nat) (raw : Bytes)
    (sel : Nat → Option Bytes) (t : Nat) : m.fieldTrig kind src raw sel t = m := by
  unfold Module.fieldTrig
  rw [noSession]
  split <;> rfl

/-- Where no session stands, an SV_FRAME does nothing behind the Vat. -/
theorem mSvFrame_of_no_session {m : Module} {x : SvFrame} {t : Nat} (noSession : (m.takeSv x t).1.acq.sessions = []) :
    mSvFrame x t m = (m.takeSv x t).1 := by
  unfold mSvFrame
  split
  · next e => rw [e]
  · next n s e =>
    rw [e] at noSession ⊢
    refine List.foldlRecOn _ _ (motive := (· = n)) rfl ?_
    rintro _ rfl a -
    exact Module.fieldTrig_of_no_session noSession ..

/-! ### Second boundaries (R204, R225) -/

/-- The second boundary that DELTA_UPDATE is for. -/
def Module.nextSecond (m : Module) : Nat := max (m.vat.second + 1) (m.tns / 1000000000)

/-- The parts of the module in which a new estimate shows. -/
def Module.clkVat (m : Module) : Nat × Vat := (m.clk, m.vat)

theorem Module.clkVat_wr (m : Module) (f : Fld) (v : Nat) : (m.wr f v).clkVat = m.clkVat := rfl
theorem Module.clkVat_setStream (m : Module) (k : Nat) (x : Stream) :
    (m.setStream k x).clkVat = (m.clk, { m.vat with streams := m.vat.streams.set k x }) := rfl

theorem SMap.set_singleton {α : Type} (k : Nat) (v w : α) : SMap.set [(k, v)] k w = [(k, w)] := by simp [SMap.set]

/-- At the boundary the one stream, which the estimate places, takes the mean of its terms (R204). -/
theorem mDeltaUpdate_means {m : Module} {k : Nat} {x : Stream} (on : m.vatOn = true) (one : m.vat.streams = [(k, x)])
    (byEstimate : x.byEstimate = some true) (terms : x.terms ≠ []) :
    (mDeltaUpdate m).clkVat = ((m.reach (m.nextSecond * 1000000000)).clk,
      { m.vat with second := m.nextSecond, streams := [(k, { x with delta := meanOf x.terms.flatten })] }) := by
  have placed : ¬(x.byEstimate ≠ some true ∨ x.terms = []) := by simp [byEstimate, terms]
  rw [mDeltaUpdate, if_neg (by simp [on])]
  refine (foldl_keeps Module.clkVat ?_ _).trans ?_
  · exact fun n p _ => n.clkVat_wr ..
  simp only [m.reach_vat, one, List.foldl_cons, List.foldl_nil]
  rw [if_neg placed, Module.clkVat_wr, Module.clkVat_setStream, Module.bumpBy_clk, Module.bumpBy_vat]
  exact congrArg (fun l => (_, { m.vat with second := m.nextSecond, streams := l })) (SMap.set_singleton k x _)

/-- Chain c takes the skew that VAT_SKEW shows from the second boundary on. -/
def Module.takeSkew (m : Module) (c : Nat) (ch : Chan) : Module :=
  m.setChan c { ch with sigmaNext := some (m.rd (R.VAT_SKEW_SIGMA_NS c), m.vat.second * 1000000000) }

theorem Module.chan?_takeSkew_same (m : Module) (c : Nat) (ch : Chan) : (m.takeSkew c ch).chan? c =
    some { ch with sigmaNext := some (m.rd (R.VAT_SKEW_SIGMA_NS c), m.vat.second * 1000000000) } := SMap.get?_set_same ..

theorem Module.chan?_takeSkew_other (m : Module) {c d : Nat} (other : d ≠ c) (ch : Chan) :
    (m.takeSkew c ch).chan? d = m.chan? d := SMap.get?_set_other _ _ other

/-- Where each chain takes its skew in turn, every one of them has it afterwards. -/
theorem Module.chan?_foldl_takeSkew (m : Module) {l : SMap Chan} (rising : SMap.rising l = true) {c : Nat} {ch : Chan}
    (mem : (c, ch) ∈ l) : (l.foldl (fun n p => n.takeSkew p.1 p.2) m).chan? c =
      some { ch with sigmaNext := some (m.rd (R.VAT_SKEW_SIGMA_NS c), m.vat.second * 1000000000) } := by
  induction l generalizing m with
  | nil => cases mem
  | cons p r ih =>
    obtain ⟨above, rest⟩ := (SMap.rising_cons p r).mp rising
    rcases List.mem_cons.mp mem with rfl | later
    · exact (foldl_keeps (Module.chan? · c) (fun n q hq => n.chan?_takeSkew_other (Nat.ne_of_lt (above q hq)) _) _).trans
        (m.chan?_takeSkew_same c ch)
    · exact ih (m.takeSkew p.1 p.2) rest later

theorem mSigmaUpdate_eq {m : Module} (on : m.vatOn = true) :
    mSigmaUpdate m = m.vat.chans.foldl (fun n p => n.takeSkew p.1 p.2) m := if_neg (by simp [on])

/-! ### The clauses -/

/-- R199, R203: the sample of a synchronised stream. -/
theorem sampledValuesClaim : SampledValuesClaim := by
  intro s x t k st a m0 slot on fed noSession hit stream enabled passes one counter synced byCounter held empty unshut
  have reached : m0.PlacesAs k (s.m.reachSv t) := by
    obtain ⟨_, took⟩ := s.m.reachSv_eq t
    rw [took]
    exact ⟨rfl, rfl, rfl, rfl⟩
  have accepted := reached.trans ((s.m.reachSv t).placesAs_acceptSv x k)
  have marked := accepted.trans (Module.placesAs_markSynced _ k a)
  have streams : ∀ {n : Module}, m0.PlacesAs k n → n.vat.streams.get? k = some st := fun h => by
    rw [h.vat, s.m.reach_vat, stream]
  have placed := Module.svAsdu_synced (x := x) (streams accepted) (accepted.rate.symm ▸ counter) synced byCounter 0
  rw [accepted.counterSlot] at placed
  obtain ⟨filled, acq⟩ := Module.placeAsdu_fills (streams marked) ((marked.inRing st slot).trans held) empty
    ((marked.slotShut st slot.toNat).trans unshut)
    (counterInstant (((s.m.reachSv t).acceptSv x k).streamRate k) a.smpCnt ((s.m.reachSv t).acceptSv x k).tns)
    (b2n x.sim * 2 ^ 22) a.data
  have taken := (Module.takeSv_one on fed hit enabled passes one synced).trans placed
  refine completes_of_upd (f := mSvFrame x t) rfl ?_
  rw [Module.settle_vat, mSvFrame_of_no_session, taken]
  · exact filled
  · rw [taken]
    exact (congrArg Acq.sessions (acq.trans (marked.acq.trans (s.m.adv_acq _)))).trans noSession

/-- R204, R225: the estimate and the skew at a second boundary. -/
theorem secondBoundaryClaim : SecondBoundaryClaim := by
  refine ⟨fun s k x on still one byEstimate terms => ?_, fun s c ch on rising held => ?_⟩
  · obtain ⟨clk, vat⟩ := Prod.mk.inj (mDeltaUpdate_means on one byEstimate terms)
    refine completes_of_upd (f := mDeltaUpdate) rfl ?_
    rw [Module.settle_vat, Module.settle_tns, vat, Module.tns_of_clk clk,
      Module.tns_reach (Module.mode_ne_reset_of_vatOn on) still]
    exact ⟨rfl, rfl, rfl⟩
  · refine completes_of_upd (f := mSigmaUpdate) rfl ?_
    rw [mSigmaUpdate_eq on]
    exact s.m.chan?_foldl_takeSkew rising (SMap.mem_of_get? held)

/-- Settles O50: `sampledValuesClaim` for a sample on its way into its slot, and `secondBoundaryClaim` for the second boundary,
each from the lemmas about its commands. The slot that is filled once and the decoded PDU are assumption 66, the frame without a copy
at EP assumption 52, and time that runs on to the boundary assumption 6. -/
theorem streamSamples : Obligations.StreamSamples := ⟨sampledValuesClaim, secondBoundaryClaim⟩

end Sys2Proof.Machine
end

section
/-!
PROOFS. The commands of the filter chains: a switch and its fade (R232, R233), a restart (R235), and the writes of coefficient memory
and of a set that nothing uses (R235).
-/

namespace Sys2Proof.Machine
open Sys2Proof.Claims

/-! ### Stores -/

/-- A store that does not list its default reads back what is put into it. -/
theorem SMap.getD_put {α : Type} [DecidableEq α] {l : SMap α} (h : SMap.rising l = true) (k : Nat) (v d : α) (x : Nat) :
    SMap.getD (if v = d then l.erase k else l.set k v) x d = if x = k then v else l.getD x d := by
  split
  · rename_i isDefault
    subst isDefault
    unfold SMap.getD
    split
    · subst x; rw [SMap.get?_erase_same h, Option.getD_none]
    · rename_i away; rw [SMap.get?_erase_other l away]
  · unfold SMap.getD
    rw [SMap.get?_set]
    split <;> rfl

/-- The entry of a key is the first of its kind where no entry of a lower key is of that kind. -/
theorem SMap.find?_eq_of_get? {α : Type} {l : SMap α} {p : Nat × α → Bool} {k : Nat} {v : α} (rising : SMap.rising l = true)
    (held : l.get? k = some v) (here : p (k, v) = true) (below : ∀ y ∈ l, y.1 < k → p y = false) : l.find? p = some (k, v) := by
  induction l with
  | nil => cases held
  | cons q r ih =>
    obtain ⟨above, rest⟩ := (SMap.rising_cons q r).mp rising
    rcases List.mem_cons.mp (SMap.mem_of_get? held) with rfl | later
    · exact List.find?_cons_of_pos here
    · have first : q.1 < k := above _ later
      rw [SMap.get?, if_neg (Nat.ne_of_lt first)] at held
      rw [List.find?_cons_of_neg (by simp [below q List.mem_cons_self first])]
      exact ih rest held fun y hy => below y (List.mem_cons_of_mem _ hy)

/-! ### Writes that the Seal Bank governs -/

/-- The PF writes a register whose Seal Bank switch is on (R15). -/
theorem Module.sealed_on {m : Module} {k : Nat} (run : m.mode ≠ .reset) (on : m.sealOn k = true) (addr : Nat)
    (f : Module → Module) : m.sealed k addr 0 f = f m := by
  simp [Module.sealed, run, on]

theorem Module.from_writes {a : Nat} (m : Module) {l : List (Fld × Nat)} (behind : ∀ x ∈ l, a ≤ x.1.addr ∧ x.1.lsb < 32) :
    m.From a (m.writes l) :=
  List.foldlRecOn l _ (motive := m.From a) (.refl a m) fun n hn x hx =>
    hn.trans (n.from_wr x.1 x.2 (behind x hx).1 (behind x hx).2)

/-- What FLT_CHAIN_CMD(c) keeps of the last command. -/
def chainCmdFields (c cmd stage set k : Nat) : List (Fld × Nat) :=
  [(R.FLT_CHAIN_CMD_CMD c, cmd), (R.FLT_CHAIN_CMD_STAGE c, stage), (R.FLT_CHAIN_CMD_SET c, set), (R.FLT_CHAIN_CMD_K c, k)]

/-- The register of chain c after a command. -/
def Module.keepChainCmd (m : Module) (c cmd stage set k : Nat) : Module := m.writes (chainCmdFields c cmd stage set k)

theorem Module.chainCmd_switch (m : Module) (c stage set k : Nat) :
    m.chainCmd c 1 stage set k = (m.keepChainCmd c 1 stage set k).switchChain c stage set k := rfl
theorem Module.chainCmd_restart (m : Module) (c stage set k : Nat) :
    m.chainCmd c 2 stage set k = (m.keepChainCmd c 2 stage set k).restartChain c := rfl

theorem Module.vat_keepChainCmd (m : Module) (c cmd stage set k : Nat) : (m.keepChainCmd c cmd stage set k).vat = m.vat := rfl

theorem Module.from_keepChainCmd (m : Module) (c cmd stage set k : Nat) : m.From 0x6c0000 (m.keepChainCmd c cmd stage set k) := by
  refine m.from_writes ?_
  simp [chainCmdFields, R.FLT_CHAIN_CMD_CMD, R.FLT_CHAIN_CMD_STAGE, R.FLT_CHAIN_CMD_SET, R.FLT_CHAIN_CMD_K]

/-! ### The fade reserve (R233) -/

theorem Module.fadeCost_congr {m n : Module} {c : Chan} (rate : n.streamRate c.stream = m.streamRate c.stream) (i : Nat) :
    n.fadeCost c i = m.fadeCost c i := by
  unfold Module.fadeCost
  rw [rate]

/-- The reserve in use is that of the chains and the rates of their streams. -/
theorem Module.fadeLoad_congr {m n : Module} (chans : n.vat.chans = m.vat.chans)
    (rate : ∀ y ∈ m.vat.chans, n.streamRate y.2.stream = m.streamRate y.2.stream) : n.fadeLoad = m.fadeLoad := by
  unfold Module.fadeLoad
  rw [chans]
  refine List.foldl_ext _ _ _ ?_
  rintro acc ⟨_, c⟩ hy
  have cost := Module.fadeCost_congr (m := m) (n := n) (rate _ hy)
  simp only [cost]

theorem Module.fadeFits_congr {m n : Module} (chans : n.vat.chans = m.vat.chans)
    (rate : ∀ y ∈ m.vat.chans, n.streamRate y.2.stream = m.streamRate y.2.stream) {c : Nat} {x : Chan} (held : m.chan? c = some x)
    (i : Nat) : n.fadeFits x i = m.fadeFits x i := by
  unfold Module.fadeFits
  rw [Module.fadeLoad_congr chans rate, Module.fadeCost_congr (rate _ (SMap.mem_of_get? held))]

/-- The command register of a chain lies behind the configuration of every stream. -/
theorem Module.fadeFits_keepChainCmd {m : Module} (streams : ∀ y ∈ m.vat.chans, y.2.stream < 2048) {c : Nat} {x : Chan}
    (held : m.chan? c = some x) (n cmd stage set k i : Nat) : (m.keepChainCmd n cmd stage set k).fadeFits x i = m.fadeFits x i := by
  refine Module.fadeFits_congr (congrArg Vat.chans (m.vat_keepChainCmd ..)) (fun y hy => congrArg rateCode ?_) held i
  have := streams y hy
  refine (m.from_keepChainCmd n cmd stage set k).2 _ ?_ (by simp [R.VAT_STRM_CFG_RATE_CODE])
  simp only [R.VAT_STRM_CFG_RATE_CODE]
  omega

/-! ### A fade begins (R232) -/

/-- The fade to a set that begins in chain c: it has delivered nothing and acts from the grid index that opens next. -/
def Module.fadeTo (m : Module) (c : Chan) (i set k : Nat) : Fade :=
  ⟨i, set, k, 0, ((m.vat.rates.get? c.vrate).map (·.nextG)).getD 0, m.gHalf c.stages == m.gHalf (switchedStages c.stages i set)⟩

theorem Module.chan?_setChan_same (m : Module) (n : Nat) (c : Chan) : (m.setChan n c).chan? n = some c := SMap.get?_set_same ..

theorem Module.chan?_beginFade (m : Module) (n : Nat) (c : Chan) (i set k : Nat) :
    (m.beginFade n c i set k).chan? n = some { c with fade := some (m.fadeTo c i set k), pend := none } := m.chan?_setChan_same ..

/-- A SWITCH of a chain that does not fade, to a VALID set of the stage's kind and length for which the reserve has room. -/
theorem Module.switchChain_begins {m : Module} {c stage set : Nat} {x : Chan} {st : Stage} (held : m.chan? c = some x)
    (there : x.stages[stage]? = some st) (valid : m.isOn (R.FLT_SET_VALID set) = true)
    (kind : m.isOn (R.FLT_SET_KIND set) = (stage == 0)) (short : m.rd (R.FLT_SET_N set) ≤ st.nmax) (idle : x.fade = none)
    (room : m.fadeFits x stage = true) (k : Nat) :
    m.switchChain c stage set k = m.beginFade c x stage set (if k = 0 then x.kdef else k) := by
  have allowed : ¬((!m.isOn (R.FLT_SET_VALID set)) = true ∨ m.isOn (R.FLT_SET_KIND set) ≠ (stage == 0) ∨
      st.nmax < m.rd (R.FLT_SET_N set)) := by
    simp [valid, kind, short]
  simp only [Module.switchChain, held, there]
  rw [if_neg allowed, if_neg (by simp [idle]), if_pos room]

/-- CHAIN_SWITCH by the PF begins a fade (R232): the sets and the streams' rates stand in registers that the command leaves alone. -/
theorem mChainSwitch_begins {m : Module} {c stage set : Nat} {x : Chan} {st : Stage} (run : m.mode ≠ .reset)
    (on : m.sealOn 3 = true) (small : set < 1024) (held : m.chan? c = some x) (there : x.stages[stage]? = some st)
    (valid : m.isOn (R.FLT_SET_VALID set) = true) (kind : m.isOn (R.FLT_SET_KIND set) = (stage == 0))
    (short : m.rd (R.FLT_SET_N set) ≤ st.nmax) (idle : x.fade = none) (streams : ∀ y ∈ m.vat.chans, y.2.stream < 2048)
    (room : m.fadeFits x stage = true) (k : Nat) :
    mChainSwitch 0 c stage set k m =
      (m.keepChainCmd c 1 stage set k).beginFade c x stage set (if k = 0 then x.kdef else k) := by
  have same := (m.from_keepChainCmd c 1 stage set k).2
  have below : 0x601000 + 0x4 * set < 0x6c0000 := by omega
  have readValid := same (R.FLT_SET_VALID set) below (by simp [R.FLT_SET_VALID])
  have readKind := same (R.FLT_SET_KIND set) below (by simp [R.FLT_SET_KIND])
  have readN := same (R.FLT_SET_N set) below (by simp [R.FLT_SET_N])
  have fits := Module.fadeFits_keepChainCmd streams held c 1 stage set k stage
  rw [mChainSwitch, Module.sealed_on run on, Module.chainCmd_switch]
  exact Module.switchChain_begins (m := m.keepChainCmd c 1 stage set k) held there ((congrArg (· == 1) readValid).trans valid)
    ((congrArg (· == 1) readKind).trans kind) (readN.symm ▸ short) idle (fits.trans room) k

/-! ### Pending fades (R233) -/

theorem Module.tryPending_of_no_switch {m : Module} {n : Nat} {c : Chan} (held : m.chan? n = some c) (noSwitch : c.pend = none) :
    m.tryPending n = m := by
  simp only [Module.tryPending, held, noSwitch]
  cases c.fade <;> rfl

theorem Module.tryPending_begins {m : Module} {n i set k : Nat} {c : Chan} (held : m.chan? n = some c) (idle : c.fade = none)
    (waits : c.pend = some (i, set, k)) (room : m.fadeFits c i = true) : m.tryPending n = m.beginFade n c i set k := by
  simp only [Module.tryPending, held, idle, waits, room, if_true]

/-- FADE_START begins the fade of the lowest chain with a pending switch, where that chain and the reserve allow it. -/
theorem mFadeStart_begins {m : Module} {n i set k : Nat} {c : Chan} (rising : SMap.rising m.vat.chans = true)
    (held : m.chan? n = some c) (idle : c.fade = none) (waits : c.pend = some (i, set, k)) (room : m.fadeFits c i = true)
    (lowest : ∀ y ∈ m.vat.chans, y.1 < n → y.2.pend = none) : mFadeStart m = m.beginFade n c i set k := by
  rw [mFadeStart, SMap.find?_eq_of_get? rising held]
  · exact Module.tryPending_begins held idle waits room
  · simp [idle, waits, room]
  · intro y hy first
    simp [lowest y hy first]

/-! ### A restart (R235) -/

theorem Module.vat_fltEvent (m : Module) (n c : Nat) : (m.fltEvent n c).vat = m.vat := by
  obtain ⟨_, _, raised⟩ := m.events_raiseIf R.FLT_CTRL_LOG_EN 5 n 0 0xFFFF 0xFFFF c
  rw [Module.fltEvent, raised]

/-- A chain after a restart outside a fade: empty histories, and the next input is the first one. -/
def Chan.restarted (c : Chan) : Chan :=
  { c with stages := c.stages.map fun st => { st with hist := [] }, fresh := true, tr := none }

theorem Module.chan?_restartChain {m : Module} {n : Nat} {c : Chan} (held : m.chan? n = some c) (idle : c.fade = none)
    (noSwitch : c.pend = none) : (m.restartChain n).chan? n = some c.restarted := by
  have emptied : { c with stages := c.stages.map fun st => { st with hist := [] }, fade := none, fresh := true, tr := none } =
      c.restarted := by
    rw [← idle]; rfl
  have shown : (((m.setChan n c.restarted).fltCnt 0).fltEvent 3 n).chan? n = some c.restarted := by
    rw [Module.chan?, Module.vat_fltEvent]
    exact m.chan?_setChan_same ..
  simp only [Module.restartChain, held, idle, emptied]
  rw [Module.tryPending_of_no_switch shown noSwitch]
  exact shown

theorem chan?_mChainReset {m : Module} {c : Nat} {x : Chan} (run : m.mode ≠ .reset) (on : m.sealOn 3 = true)
    (held : m.chan? c = some x) (idle : x.fade = none) (noSwitch : x.pend = none) :
    (mChainReset 0 c m).chan? c = some x.restarted := by
  rw [mChainReset, Module.sealed_on run on, Module.chainCmd_restart]
  exact Module.chan?_restartChain held idle noSwitch

/-! ### Coefficient memory and sets (R235) -/

/-- A coefficient word that no set in use holds is written, and the address moves on. -/
theorem Module.cmemStore_of_unused {m : Module}
    (unused : ∀ n ∈ m.setsInUse, m.rd R.FLT_CMEM_ADDR_WORD < m.rd (R.FLT_SET_WORD n) ∨
      m.rd (R.FLT_SET_WORD n) + m.setWords n ≤ m.rd R.FLT_CMEM_ADDR_WORD) (v : Nat) :
    m.cmemStore v =
      { m.wr R.FLT_CMEM_ADDR_WORD (m.rd R.FLT_CMEM_ADDR_WORD + 1) with
        vat := { m.vat with
          cmem := if v % 2 ^ 32 = 0 then m.vat.cmem.erase (m.rd R.FLT_CMEM_ADDR_WORD)
            else m.vat.cmem.set (m.rd R.FLT_CMEM_ADDR_WORD) (v % 2 ^ 32) } } := by
  unfold Module.cmemStore
  dsimp only
  rw [if_neg]
  · rfl
  · simp only [List.any_eq_true, Bool.and_eq_true, decide_eq_true_eq, not_exists, not_and]
    intro n hn low
    have := unused n hn
    omega

/-- FLT_SET(n) as written. -/
def setFields (n v : Nat) : List (Fld × Nat) :=
  [(R.FLT_SET_WORD n, v), (R.FLT_SET_N n, bitsOf v 18 9), (R.FLT_SET_KIND n, bitsOf v 27 1), (R.FLT_SET_VALID n, bitsOf v 28 1)]

theorem setFields_apart (n v : Nat) : ((setFields n v).map (·.1.key)).Nodup := by
  simp [setFields, Fld.key, R.FLT_SET_WORD, R.FLT_SET_N, R.FLT_SET_KIND, R.FLT_SET_VALID]

theorem Module.setStore_of_unused {m : Module} {n : Nat} (unused : n ∉ m.setsInUse) (v : Nat) :
    m.setStore n v = m.writes (setFields n v) := if_neg (by simpa using unused)

theorem Module.vat_setStore {m : Module} {n : Nat} (unused : n ∉ m.setsInUse) (v : Nat) : (m.setStore n v).vat = m.vat := by
  rw [Module.setStore_of_unused unused]
  rfl

/-- A set that nothing uses holds what is written to it. -/
theorem Module.rd_setStore {m : Module} (h : SMap.rising m.regs = true) {n : Nat} (unused : n ∉ m.setsInUse) (v : Nat) :
    (m.setStore n v).rd (R.FLT_SET_WORD n) = bitsOf v 0 18 ∧ (m.setStore n v).rd (R.FLT_SET_N n) = bitsOf v 18 9 ∧
      (m.setStore n v).rd (R.FLT_SET_KIND n) = bitsOf v 27 1 ∧ (m.setStore n v).rd (R.FLT_SET_VALID n) = bitsOf v 28 1 := by
  have written (f : Fld) (x : Nat) (mem : (f, x) ∈ setFields n v) : (m.setStore n v).rd f = x % 2 ^ f.width := by
    rw [Module.setStore_of_unused unused]
    exact Module.rd_writes h (setFields_apart n v) (x := (f, x)) mem
  have cut (lsb w : Nat) : bitsOf v lsb w % 2 ^ w = bitsOf v lsb w := Nat.mod_mod ..
  have low : v % 2 ^ 18 = bitsOf v 0 18 := by simp [bitsOf]
  rw [written (R.FLT_SET_WORD n) v (by simp [setFields]), written (R.FLT_SET_N n) (bitsOf v 18 9) (by simp [setFields]),
    written (R.FLT_SET_KIND n) (bitsOf v 27 1) (by simp [setFields]), written (R.FLT_SET_VALID n) (bitsOf v 28 1) (by simp [setFields])]
  exact ⟨low, cut 18 9, cut 27 1, cut 28 1⟩

/-! ### The obligation -/

/-- Settles O23, each clause from the lemma about its command: a pending fade begins by FADE_START (assumption 70), and a fade counts
its chain's outputs from 0 (assumption 69). The two fields that the statement leaves open are those of `Module.fadeTo`. -/
theorem filterCommands : Obligations.FilterCommands := by
  refine ⟨?_, ?_, ?_, ?_, ?_⟩
  · intro s c stage set k x st run on _ small held there valid kind short idle streams room
    refine completes_of_upd (f := mChainSwitch 0 c stage set k) rfl ?_
    rw [mChainSwitch_begins run on small held there valid kind short idle streams room]
    exact ⟨_, _, Module.chan?_beginFade ..⟩
  · intro s c x run on held idle noSwitch
    exact completes_of_upd (f := mChainReset 0 c) rfl (chan?_mChainReset run on held idle noSwitch)
  · intro s n i set k c rising held idle waits room lowest
    refine completes_of_upd (f := mFadeStart) rfl ?_
    rw [mFadeStart_begins rising held idle waits room lowest]
    exact ⟨_, _, Module.chan?_beginFade ..⟩
  · intro s v run on wf rising w unused
    have put := SMap.getD_put rising w (v % 2 ^ 32) 0
    refine completes_of_upd (f := mCmemWrite 0 v) rfl ?_
    rw [Module.rd_settle, Module.settle_vat, mCmemWrite, Module.sealed_on run on, Module.cmemStore_of_unused unused]
    exact ⟨(put w).trans (if_pos rfl), s.m.rd_wr_same (Module.rising_regs_of_wf wf) R.FLT_CMEM_ADDR_WORD (w + 1),
      fun a away => (put a).trans (if_neg away)⟩
  · intro s n v run on unused wf
    obtain ⟨word, length, kind, valid⟩ := Module.rd_setStore (Module.rising_regs_of_wf wf) unused v
    refine completes_of_upd (f := mSetWrite 0 n v) rfl ?_
    rw [mSetWrite, Module.sealed_on run on]
    simp only [Module.rd_settle, Module.settle_vat]
    exact ⟨word, length, kind, valid, Module.vat_setStore unused v⟩

end Sys2Proof.Machine
end

section
/-!
PROOFS. A store into the context area (R250) and an entry of the exception ring (R256).
-/

namespace Sys2Proof.Machine
open Sys2Proof.Claims

/-! ### The bytes of the context area (R250) -/

/-- Bytes that are put into LOC stand from their offset on, zeros too, and every other byte stays. -/
theorem get?_putLoc (l : SMap Byte) (off : Nat) (b : Bytes) (a : Nat) :
    (putLoc l off b).get? a = if off ≤ a ∧ a < off + b.length then some (b.getD (a - off) 0) else l.get? a := by
  induction b generalizing l off with
  | nil => rw [if_neg (by simp)]; rfl
  | cons y r ih =>
    rw [putLoc, ih, SMap.get?_set, List.length_cons]
    by_cases here : a = off
    · subst a
      rw [if_neg (by omega), if_pos rfl, if_pos (by omega), Nat.sub_self, List.getD_cons_zero]
    · by_cases later : off + 1 ≤ a ∧ a < off + 1 + r.length
      · rw [if_pos later, if_pos (by omega), show a - off = a - (off + 1) + 1 by omega, List.getD_cons_succ]
      · rw [if_neg later, if_neg here, if_neg (by omega)]

/-- A LOC byte after a store: what the cycle wrote, and the byte it held where it wrote nothing (R246). -/
theorem Ctx.locByte_putLoc (x : Ctx) (off : Nat) (b : Bytes) (a : Nat) :
    Ctx.locByte { x with loc := putLoc x.loc off b } a =
      if off ≤ a ∧ a < off + b.length then b.getD (a - off) 0 else x.locByte a := by
  have put : ({ x with loc := putLoc x.loc off b } : Ctx).loc.get? a = _ := get?_putLoc x.loc off b a
  unfold Ctx.locByte
  by_cases inside : off ≤ a ∧ a < off + b.length
  · rw [put, if_pos inside, if_pos inside]
  · rw [put, if_neg inside, if_neg inside]

/-- A store leaves the other spaces as they were. -/
theorem Ctx.byteAt_storeBytes_other (x : Ctx) {sp : Nat} (stores : sp = 0 ∨ sp = 2 ∨ sp = 3) (off : Nat) (b : Bytes) {sq : Nat}
    (space : sq < 4) (other : sq ≠ sp) (a : Nat) : (x.storeBytes sp off b).byteAt sq a = x.byteAt sq a := by
  rcases stores with rfl | rfl | rfl
  · simp [Ctx.byteAt, Ctx.storeBytes, Ctx.locByte, other]
  · simp [Ctx.byteAt, Ctx.storeBytes, Ctx.locByte, other]
  · obtain rfl | rfl | rfl : sq = 0 ∨ sq = 1 ∨ sq = 2 := by omega
    all_goals rfl

/-- R250: every byte of the space after a store into it. -/
theorem Ctx.byteAt_storeBytes_same {x : Ctx} (inst : SMap.rising x.instImg = true) (out : SMap.rising x.outImg = true) {sp : Nat}
    (stores : sp = 0 ∨ sp = 2 ∨ sp = 3) (off : Nat) (b : Bytes) (a : Nat) :
    (x.storeBytes sp off b).byteAt sp a = if off ≤ a ∧ a < off + b.length then b.getD (a - off) 0 else x.byteAt sp a := by
  rcases stores with rfl | rfl | rfl
  · exact getD_memPut inst off b a
  · exact getD_memPut out off b a
  · exact x.locByte_putLoc off b a

/-- Settles O8, space by space: the bytes of the space that the store is into, and those of the others. -/
theorem storeFrame : Obligations.StoreFrame := by
  intro x sp off b stores inst out
  have bytes := Ctx.byteAt_storeBytes_same (Bool.and_eq_true_iff.mp inst).1 (Bool.and_eq_true_iff.mp out).1 stores off b
  refine ⟨fun i inside => ?_, fun sq a space away => ?_⟩
  · rw [bytes, if_pos ⟨by omega, by omega⟩, Nat.add_sub_cancel_left]
  · by_cases same : sq = sp
    · subst sq
      rw [bytes, if_neg fun inside => away ⟨rfl, inside⟩]
    · exact x.byteAt_storeBytes_other stores off b space same a

/-! ### The exception ring (R256, Table 10.6) -/

/-- The fields of entry i of the exception ring, and the index of the next entry, as an exception writes them. -/
def excFields (i code e c detail pc task inst gen ct at_ addr : Nat) : List (Fld × Nat) :=
  [(R.BEN_EXC0_CODE i, code), (R.BEN_EXC0_ENGINE i, e), (R.BEN_EXC0_CONTEXT i, c), (R.BEN_EXC0_DETAIL i, detail),
   (R.BEN_EXC1_PC i, pc), (R.BEN_EXC1_TASK i, task), (R.BEN_EXC2_INSTANCE i, inst), (R.BEN_EXC2_GEN i, gen),
   (R.BEN_EXC3_CYCLE_TS i, ct), (R.BEN_EXC4_AT i, at_), (R.BEN_EXC5_ADDR i, addr), (R.BEN_EXC_WR_NEXT, i + 1)]

/-- Where each field of an entry begins, in bits from the entry's first one (Table 10.6). -/
def excPlaces : List Nat := [0, 8, 13, 16, 128, 146, 256, 268, 384, 512, 640]

theorem keys_excFields (i code e c detail pc task inst gen ct at_ addr : Nat) :
    (excFields i code e c detail pc task inst gen ct at_ addr).map (·.1.key) =
      excPlaces.map (fun p => (R.BEN_EXC0_CODE i).key + p) ++ [R.BEN_EXC_WR_NEXT.key] := by
  simp only [excFields, excPlaces, List.map_cons, List.map_nil, List.cons_append, List.nil_append, List.cons.injEq, and_true, true_and,
    Fld.key, R.BEN_EXC0_CODE, R.BEN_EXC0_ENGINE, R.BEN_EXC0_CONTEXT, R.BEN_EXC0_DETAIL, R.BEN_EXC1_PC, R.BEN_EXC1_TASK,
    R.BEN_EXC2_INSTANCE, R.BEN_EXC2_GEN, R.BEN_EXC3_CYCLE_TS, R.BEN_EXC4_AT, R.BEN_EXC5_ADDR]
  omega

theorem excFields_apart (i code e c detail pc task inst gen ct at_ addr : Nat) :
    ((excFields i code e c detail pc task inst gen ct at_ addr).map (·.1.key)).Nodup := by
  rw [keys_excFields]
  refine List.nodup_append.mpr ⟨List.Nodup.map (fun _ _ => Nat.add_left_cancel) (by decide), List.nodup_singleton _, ?_⟩
  intro a ring b next
  obtain ⟨p, -, rfl⟩ := List.mem_map.mp ring
  have before : R.BEN_EXC_WR_NEXT.key < (R.BEN_EXC0_CODE i).key := by
    simp only [Fld.key, R.BEN_EXC_WR_NEXT, R.BEN_EXC0_CODE]
    omega
  rw [List.mem_singleton.mp next]
  exact Nat.ne_of_gt (Nat.lt_add_right p before)

theorem Module.ts32_wr (m : Module) (f : Fld) (v : Nat) : (m.wr f v).ts32 = m.ts32 := rfl

theorem Module.excEntry_eq (m : Module) (code e c detail pc task inst gen ct addr : Nat) :
    m.excEntry code e c detail pc task inst gen ct addr =
      m.writes (excFields (m.rd R.BEN_EXC_WR_NEXT) code e c detail pc task inst gen ct m.ts32 addr) := by
  simp only [Module.excEntry, Module.ts32_wr, Module.writes, excFields, List.foldl_cons, List.foldl_nil]

/-- R256: each field of the entry holds what the exception wrote, cut to the field's width. -/
theorem Module.rd_excEntry {m : Module} (rising : SMap.rising m.regs = true) {code e c detail pc task inst gen ct addr : Nat}
    {f : Fld} {v : Nat}
    (mem : (f, v) ∈ excFields (m.rd R.BEN_EXC_WR_NEXT) code e c detail pc task inst gen ct m.ts32 addr) :
    (m.excEntry code e c detail pc task inst gen ct addr).rd f = v % 2 ^ f.width := by
  rw [Module.excEntry_eq]
  exact Module.rd_writes rising (excFields_apart ..) (x := (f, v)) mem

/-- Settles O11: an entry is written field by field, each field at a place of its own. -/
theorem exceptionEntry : Obligations.ExceptionEntry := by
  intro m code e c detail pc task inst gen ct addr rising
  dsimp only
  intro _
  have written {f : Fld} {v : Nat} := Module.rd_excEntry rising (code := code) (e := e) (c := c) (detail := detail) (pc := pc)
    (task := task) (inst := inst) (gen := gen) (ct := ct) (addr := addr) (f := f) (v := v)
  have now : m.ts32 % 2 ^ 32 = m.ts32 := Nat.mod_mod ..
  generalize m.excEntry code e c detail pc task inst gen ct addr = t at written ⊢
  generalize m.rd R.BEN_EXC_WR_NEXT = i at written ⊢
  refine ⟨written ?_, written ?_, written ?_, written ?_, written ?_, written ?_, (written ?_).trans now, written ?_, written ?_⟩
  all_goals simp [excFields]

end Sys2Proof.Machine
end

section
/-!
PROOFS. The instructions that ask for an answer from outside their context (R240, R276), and the answers (R276, R277, R286).
-/

namespace Sys2Proof.Machine
open Sys2Proof.Claims

/-! ### Instructions that only compute -/

/-- An instruction that acts on its own context alone, and acts (R240, R267). -/
theorem Module.issueP_of_acts {s : State} {e c op : Nat} {x : Ctx} {w : Kw} (h : acts s e c x op w) (f : Ctx → Ctx) :
    s.m.issueP e c op w f = Claims.holding s e c x (f (past s e c x)) := by
  obtain ⟨issuer, sound, qualified⟩ := h
  unfold Module.issueP Module.issue
  rw [Module.issueM_eq _ _ _ _ _ _ x issuer]
  simp only [sound, qualified, Bool.true_eq_false, if_false]
  exact Module.setCtx_setCtx ..

/-- R240, R276: the rows that ask. -/
theorem asksClaim : AsksClaim := by
  intro r row s e c x w h
  simp only [askRows, List.mem_cons, List.not_mem_nil, or_false] at row
  rcases row with rfl | rfl | rfl | rfl
  · exact becomes_of_upd (f := mRdclk e c w) rfl (Module.issueP_of_acts h _)
  · exact becomes_of_upd (f := mCrdv e c w) rfl (Module.issueP_of_acts h _)
  · exact becomes_of_upd (f := mCrdq e c w) rfl (Module.issueP_of_acts h _)
  · exact becomes_of_upd (f := mCrdh e c w) rfl (Module.issueP_of_acts h _)

/-! ### Answers -/

theorem Module.cul_readReport (m : Module) (err : ReadErr) (a b k i e : Nat) : (m.readReport err a b k i e).cul = m.cul := by
  obtain ⟨_, _, _, eq⟩ := m.errors_readReport err a b k i e
  rw [eq]

/-- R276: a context that waits for a clock. -/
theorem mGlobalReadAnswer_clock {m : Module} {e c : Nat} {x : Ctx} {a : BitVec 6} {sel : Nat} (held : m.ctx? e c = some x)
    (waits : x.phase = .waiting (.clock a sel)) (err : ReadErr) : mGlobalReadAnswer e c err m =
      m.setCtx e c { x.setG a (BitVec.ofNat 64 (m.clockWord sel)) with phase := .running } := by
  simp only [mGlobalReadAnswer, held, waits]

/-- R274: a context that waits for a constant which the read finds. -/
theorem mGlobalReadAnswer_const {m : Module} {e c : Nat} {x : Ctx} {a : BitVec 6} {off n : Nat} {sx : Bool}
    (held : m.ctx? e c = some x) (waits : x.phase = .waiting (.constLd a off n sx)) {err : ReadErr} (found : err.isUe = false) :
    mGlobalReadAnswer e c err m = (m.readReport err 0 0 2 x.inst e).setCtx e c
      { x.setG a (extendLoad (slice m.cul.consts off n) sx) with phase := .running } := by
  simp only [mGlobalReadAnswer, held, waits, found, Bool.false_eq_true, if_false, Module.cul_readReport]

/-- R286: a context that waits for a check-value unit. -/
theorem mGlobalReadAnswer_crc {m : Module} {e c : Nat} {x : Ctx} {a : BitVec 6} {u : Nat} {v : BitVec 64}
    (held : m.ctx? e c = some x) (waits : x.phase = .waiting (.crc a u v)) (err : ReadErr) : mGlobalReadAnswer e c err m =
      (m.bump (R.CRC_REQ_CNT_CNT u)).setCtx e c { x.setG a v with phase := .running } := by
  simp only [mGlobalReadAnswer, held, waits]

/-- R276, R277, R286: the answers. -/
theorem answersClaim : AnswersClaim := by
  intro s e c x err held
  refine ⟨fun a waits => ?_, fun a waits => ?_, fun a off n sx waits found => ?_, fun a u v waits => ?_⟩
  · exact becomes_of_upd (f := mGlobalReadAnswer e c err) rfl (mGlobalReadAnswer_clock held waits err)
  · exact becomes_of_upd (f := mGlobalReadAnswer e c err) rfl (mGlobalReadAnswer_clock held waits err)
  · exact becomes_of_upd (f := mGlobalReadAnswer e c err) rfl (mGlobalReadAnswer_const held waits found)
  · exact becomes_of_upd (f := mGlobalReadAnswer e c err) rfl (mGlobalReadAnswer_crc held waits err)

/-- Settles O43: the check value that a unit answers was fixed at the issue (assumption 26). -/
theorem globalReads : Obligations.GlobalReads := ⟨asksClaim, answersClaim⟩

end Sys2Proof.Machine
end

section
/-!
PROOFS. The Ladle from an operand's arrival over the dispatch of its cycle to the end of the cycle's capture (R249, R290 to R292,
R295, R296, R299).
-/

namespace Sys2Proof.Machine
open Sys2Proof.Claims

/-! ### What a decision record changes (R315) -/

/-- Agreement outside the registers, the trace and the number of dispatches. -/
def Module.ExceptRecords (m n : Module) : Prop :=
  ∃ r t o, n = { m with regs := r, ladle := { m.ladle with trace := t, order := o } }

theorem Module.ExceptRecords.refl (m : Module) : m.ExceptRecords m := ⟨_, _, _, rfl⟩

theorem Module.ExceptRecords.trans {a b c : Module} (h : a.ExceptRecords b) (k : b.ExceptRecords c) : a.ExceptRecords c := by
  obtain ⟨_, _, _, rfl⟩ := h
  obtain ⟨_, _, _, rfl⟩ := k
  exact ⟨_, _, _, rfl⟩

theorem Module.records_bump (m : Module) (f : Fld) : m.ExceptRecords (m.bump f) := ⟨_, _, _, rfl⟩

theorem Module.records_trace (m : Module) (typ cause t ct e c detail : Nat) :
    m.ExceptRecords (m.trace typ cause t ct e c detail) := by
  unfold Module.trace Module.traceWords
  split
  · exact .refl m
  · split
    · exact ⟨_, _, _, rfl⟩
    · split
      · exact ⟨_, _, _, rfl⟩
      · exact ⟨_, _, _, rfl⟩

theorem Module.ExceptRecords.task {m n : Module} (h : m.ExceptRecords n) (t : Nat) : n.task t = m.task t := by
  obtain ⟨_, _, _, rfl⟩ := h
  rfl

theorem Module.ExceptRecords.arrivals {m n : Module} (h : m.ExceptRecords n) : n.ladle.arrivals = m.ladle.arrivals := by
  obtain ⟨_, _, _, rfl⟩ := h
  rfl

theorem Module.ExceptRecords.red {m n : Module} (h : m.ExceptRecords n) : n.red = m.red := by
  obtain ⟨_, _, _, rfl⟩ := h
  rfl

theorem Module.ExceptRecords.ctx? {m n : Module} (h : m.ExceptRecords n) (e c : Nat) : n.ctx? e c = m.ctx? e c := by
  obtain ⟨_, _, _, rfl⟩ := h
  rfl

theorem Module.task_setTask_same (m : Module) (t : Nat) (x : TaskSt) : (m.setTask t x).task t = x := SMap.getD_set_same ..

/-! ### Open cycles (R291) -/

/-- The cycle with the operand of slot k at an instant: it is ready once all of the mask have arrived. -/
def OpenCycle.take (o : OpenCycle) (k ct mask : Nat) : OpenCycle :=
  if o.ct = ct then { o with bits := o.bits ||| 2 ^ k, ready := (o.bits ||| 2 ^ k) &&& mask == mask } else o

theorem length_insOpen (o : OpenCycle) (l : List OpenCycle) : (insOpen o l).length = l.length + 1 := by
  induction l with
  | nil => rfl
  | cons x r ih =>
    rw [insOpen]
    split
    · rfl
    · rw [List.length_cons, ih, List.length_cons]

theorem mem_insOpen (o : OpenCycle) (l : List OpenCycle) : o ∈ insOpen o l := by
  induction l with
  | nil => exact List.mem_cons_self
  | cons x r ih =>
    rw [insOpen]
    split
    · exact List.mem_cons_self
    · exact List.mem_cons_of_mem x ih

/-- The bit of an arrival is set in the task's open cycles; beside them, only a record is made. -/
theorem Module.setBit_takes (m : Module) (t k ct : Nat) (r : TaskRec) :
    (m.setTask t { m.task t with opens := (m.task t).opens.map fun o => o.take k ct r.waitMask }).ExceptRecords
      (m.setBit t k ct r) := by
  unfold Module.setBit
  dsimp only
  split
  · exact (Module.records_trace ..).trans (Module.records_bump _ _)
  · exact .refl _

/-! ### An operand arrives (R290 to R292) -/

/-- The module without its oldest arrival. -/
def Module.dropArrival (m : Module) (rest : List (Nat × Nat × Nat)) : Module := { m with ladle := { m.ladle with arrivals := rest } }

/-- Without a transfer no task waits for the peer (R408). -/
theorem Module.joinCancel_of_no_xfer {m : Module} (noXfer : m.red.xfers = []) (t : Nat) : m.joinCancel t = m := by
  simp [Module.joinCancel, noXfer]

theorem Module.arrive_latest {m : Module} {t k : Nat} {r : TaskRec} {p : Operand} (present : m.gone 6 t = false)
    (known : m.taskRec t = some r) (slot : r.ops[k]? = some p) (latest : p.mode = 2) (ct : Nat) :
    m.arrive t k ct = m.setTask t { m.task t with latest := (m.task t).latest ||| 2 ^ k } := by
  simp only [Module.arrive, present, known, slot, latest, Bool.false_eq_true, if_false, if_true]

/-- A cycle opens for the instant of an operand, which it has taken (R291). -/
def Module.openCycle (m : Module) (t k ct : Nat) (r : TaskRec) : Module :=
  ((m.modTask t fun x => { x with opens := insOpen ⟨ct, 0, false, 0, none, none⟩ x.opens }).bump (R.SCH_CNT_CNT 0)).setBit t k ct r

/-- R291: an operand of an instant without an open cycle opens one, where the task has room for it. -/
theorem Module.arrive_opens {m : Module} {t k ct : Nat} {r : TaskRec} {p : Operand} (present : m.gone 6 t = false)
    (known : m.taskRec t = some r) (slot : r.ops[k]? = some p) (matched : p.mode ≠ 2) (enabled : (m.task t).state = .enabled)
    (runs : m.tasksRun = true) (ready : m.ready 5 = true) (fresh : ((m.task t).opens.all fun o => o.ct != ct) = true)
    (later : ∀ l, (m.task t).lastDispatched = some l → tsLater ct l = true) (room : (m.task t).opens.length < r.maxOpen) :
    m.arrive t k ct = m.openCycle t k ct r := by
  have unopened : ((m.task t).opens.any fun o => o.ct == ct) = false := by
    rw [List.all_eq_not_any_not] at fresh
    simpa using fresh
  unfold Module.arrive
  simp only [present, known, slot, matched, enabled, runs, ready, unopened, room, Bool.false_eq_true, ne_eq, not_true_eq_false,
    Bool.not_true, or_self, if_false, if_true]
  cases last : (m.task t).lastDispatched with
  | none => rfl
  | some l =>
    simp only [later l last, Bool.not_true, Bool.false_eq_true, if_false]
    rfl

/-- The task's open cycles after one has opened; the waiting arrivals and the transfers stay. -/
theorem Module.openCycle_opens (m : Module) (t k ct : Nat) (r : TaskRec) :
    ((m.openCycle t k ct r).task t).opens =
        (insOpen ⟨ct, 0, false, 0, none, none⟩ (m.task t).opens).map (fun o => o.take k ct r.waitMask) ∧
      (m.openCycle t k ct r).ladle.arrivals = m.ladle.arrivals ∧ (m.openCycle t k ct r).red = m.red := by
  unfold Module.openCycle
  generalize opened : m.modTask t _ = n
  have put : (n.task t).opens = insOpen ⟨ct, 0, false, 0, none, none⟩ (m.task t).opens := by
    rw [← opened, Module.task_modTask, if_pos rfl]
  have rest : n.ladle.arrivals = m.ladle.arrivals ∧ n.red = m.red := by
    rw [← opened]
    exact ⟨rfl, rfl⟩
  have counted := n.records_bump (R.SCH_CNT_CNT 0)
  have taken := (n.bump (R.SCH_CNT_CNT 0)).setBit_takes t k ct r
  refine ⟨?_, taken.arrivals.trans (counted.arrivals.trans rest.1), taken.red.trans (counted.red.trans rest.2)⟩
  rw [taken.task, Module.task_setTask_same, counted.task, put]

/-- The oldest arrival reaches its task, where no task waits for the peer (assumption 71). -/
theorem mOperandArrival_eq {m : Module} {t k ct : Nat} {rest : List (Nat × Nat × Nat)} (oldest : m.ladle.arrivals = (t, k, ct) :: rest)
    (noXfer : ((m.dropArrival rest).arrive t k ct).red.xfers = []) : mOperandArrival m = (m.dropArrival rest).arrive t k ct := by
  simp only [mOperandArrival, oldest]
  exact Module.joinCancel_of_no_xfer noXfer t

/-! ### A tick (Table 12.1) -/

theorem Module.mode_ne_reset_of_tasksRun {m : Module} (runs : m.tasksRun = true) : m.mode ≠ .reset := by
  intro reset
  simp [Module.tasksRun, reset] at runs

/-- The module in which a tick operand has reached an instant and waits at its slot. -/
def Module.ticked (m : Module) (t k at_ : Nat) : Module :=
  { m.reach at_ with ladle := { (m.reach at_).ladle with
      arrivals := (m.reach at_).ladle.arrivals ++ [(t, k, at_ % 2 ^ 32)]
      lastTick := (m.reach at_).ladle.lastTick.set (t * 8 + k) at_ } }

theorem mTick_reaches {m : Module} {t k : Nat} {r : TaskRec} {p : Operand} (known : m.taskRec t = some r)
    (slot : r.ops[k]? = some p) (tick : p.kind = 4) (runs : m.tasksRun = true) (ready : m.ready 5 = true) :
    mTick t k m = m.ticked t k (nextTick p (m.ladle.lastTick.getD (t * 8 + k) m.tns)) := by
  simp only [mTick, known, Option.bind_some, slot, tick, runs, ready, ne_eq, not_true_eq_false, Bool.not_true, Bool.false_eq_true,
    or_self, if_false]
  rfl

/-- R290 to R292, Table 12.1: the arrival of an operand, and a tick. -/
theorem operandsClaim : OperandsClaim := by
  refine ⟨?_, ?_⟩
  · intro s t k ct rest r p oldest present known slot noXfer
    refine ⟨fun latest => ?_, fun matched enabled runs ready fresh later room => ?_⟩
    · have noted := Module.arrive_latest (m := s.m.dropArrival rest) present known slot latest ct
      refine completes_of_upd (f := mOperandArrival) rfl ?_
      rw [mOperandArrival_eq oldest (by rw [noted]; exact noXfer), noted, Module.task_settle, Module.task_setTask_same]
      exact ⟨rfl, rfl⟩
    · have opened := Module.arrive_opens (m := s.m.dropArrival rest) present known slot matched enabled runs ready fresh later room
      obtain ⟨opens, arrivals, red⟩ := (s.m.dropArrival rest).openCycle_opens t k ct r
      refine completes_of_upd (f := mOperandArrival) rfl ?_
      rw [mOperandArrival_eq oldest (by rw [opened, red]; exact noXfer), opened, Module.task_settle, opens]
      refine ⟨arrivals, by rw [List.length_map, length_insOpen]; rfl, _, List.mem_map_of_mem (mem_insOpen _ _), ?_⟩
      simp [OpenCycle.take]
  · intro s t k r p known slot tick runs ready still
    refine completes_of_upd (f := mTick t k) rfl ?_
    rw [mTick_reaches known slot tick runs ready]
    refine ⟨?_, Module.tns_reach (Module.mode_ne_reset_of_tasksRun runs) still _⟩
    show (s.m.reach _).ladle.arrivals ++ _ = _
    rw [Module.reach, Module.adv_ladle]

/-! ### Dispatch (R292, R295, R296) -/

/-- No instant is later than itself (R14). -/
theorem tsLater_self (t : Nat) : tsLater t t = false := by
  rw [tsLater, tsDiff_eq_sub (by omega) (by omega), Int.sub_self]
  rfl

/-- The cycle o of a task runs in context c of engine e; `i` is the free value that its LOC reads as (R246). -/
def Module.startCycle (m : Module) (r : TaskRec) (t e c : Nat) (o : OpenCycle) (i : Option Nat) : Module :=
  let x := m.task t
  (m.setCtx e c (m.newCtx t o.ct r (o.present.getD (o.bits ||| x.latest)) o.retries i)).setTask t { x with
    opens := x.opens.filter (·.ct != o.ct), running := some (e, c), lastDispatched := some o.ct
    latest := if o.present.isSome then x.latest else 0 }

/-- The only open cycle of a task is dispatched; beside it, only free values and records are taken. -/
theorem Module.dispatch_one {m : Module} {t e c : Nat} {o : OpenCycle} (r : TaskRec) (free : (m.engine e).freeCtxs.head? = some c)
    (one : (m.task t).opens = [o]) :
    ∃ i n, Module.ExceptRecords (Module.startCycle { m with freeIdx := n } r t e c o i) (m.dispatch t o.ct r e) := by
  have found : (m.task t).opens.find? (·.ct == o.ct) = some o := by simp [one]
  have noOlder : (m.task t).opens.filter (fun x => tsLater o.ct x.ct) = [] := by simp [one, tsLater_self]
  have noActs (k : Module) : k.doActs [] = k := Module.run_nil _ k
  obtain ⟨i, n, taken⟩ : ∃ i n, (if (m.engine e).lastInst.get? c = some r.inst ∨ (m.engine e).lastInst.get? c = none
      then (some m.freeIdx, { m with freeIdx := m.freeIdx + 1 }) else (none, m)) = (i, { m with freeIdx := n }) := by
    split
    · exact ⟨_, _, rfl⟩
    · exact ⟨_, _, rfl⟩
  unfold Module.dispatch
  simp only [free, found, noOlder, List.map_nil, noActs, Module.freshIdx, taken]
  refine ⟨i, n, .trans ?_ ((Module.records_bump _ _).trans (Module.records_bump _ _))⟩
  split
  · exact .trans (.trans ⟨_, _, _, rfl⟩ (Module.records_trace ..)) (Module.records_bump ..)
  · exact .trans ⟨_, _, _, rfl⟩ (Module.records_trace ..)

/-- R295: the one ready cycle is dispatched to the engine that the Ladle chooses (assumption 75). -/
theorem mDispatch_one {m : Module} {rc : ReadyCycle} {r : TaskRec} {e : Nat} (runs : m.tasksRun = true) (ready : m.ready 5 = true)
    (one : m.readyCycles = [rc]) (known : m.taskRec rc.task = some r) (idle : (m.task rc.task).running = none)
    (present : m.gone 6 rc.task = false) (chosen : m.chooseEngine (m.candidates rc.task rc.ct r []) = some e) :
    mDispatch m = m.dispatch rc.task rc.ct r e := by
  simp only [mDispatch, runs, ready, one, known, idle, present, chosen, Bool.not_true, Bool.false_eq_true, or_self, if_false,
    List.foldl_cons, List.foldl_nil, Option.isSome_none]

theorem Module.ctx?_startCycle (m : Module) (r : TaskRec) (t e c : Nat) (o : OpenCycle) (i : Option Nat) :
    (m.startCycle r t e c o i).ctx? e c = some (m.newCtx t o.ct r (o.present.getD (o.bits ||| (m.task t).latest)) o.retries i) :=
  (Module.ctx?_setCtx m e c _ e c).trans (if_pos ⟨rfl, rfl⟩)

/-- R292, R295, R296: a dispatch. -/
theorem dispatchingClaim : DispatchingClaim := by
  intro s rc r e c o runs ready one known idle present chosen free opens same
  obtain ⟨i, n, started⟩ := Module.dispatch_one r free opens
  refine completes_of_upd (f := mDispatch) rfl ?_
  rw [mDispatch_one runs ready one known idle present chosen, ← same, Module.task_settle, Module.ctx?_settle, started.task,
    started.ctx?, Module.ctx?_startCycle, Module.startCycle, Module.task_setTask_same]
  refine ⟨rfl, ?_, rfl, _, rfl, rfl, rfl, rfl, rfl, rfl, rfl, rfl, rfl⟩
  show (s.m.task rc.task).opens.filter (·.ct != o.ct) = []
  simp [opens]

/-! ### The end of a capture (R249, R299) -/

/-- A sound capture of an engine that issues nothing: the context runs on the captured image (assumption 73). -/
theorem mCaptureDone_runs {m : Module} {e c : Nat} {x : Ctx} {r : TaskRec} (captures : (m.engine e).capturer = some (c, x))
    (known : m.taskRec x.task = some r)
    (held : m.frameGone r x.ct ((m.cul.maps.drop r.mapFirst).take r.mapCount) = false) (quiet : (m.engine e).issuer = none) :
    mCaptureDone e c .clean .clean [] m = m.setCtx e c { x with inImg := m.captureImage x r [], phase := .running } := by
  simp only [mCaptureDone, captures, known, quiet, ne_eq, not_true_eq_false, Module.readReport, ReadErr.isUe, held, Bool.false_eq_true,
    if_false]

/-- R249, R299: a capture. -/
theorem captureClaim : CaptureClaim := by
  intro s e c x r captures known held quiet
  refine completes_of_upd (f := mCaptureDone e c .clean .clean []) rfl ?_
  rw [mCaptureDone_runs captures known held quiet, Module.ctx?_settle, Module.ctx?_setCtx, if_pos ⟨rfl, rfl⟩]

/-- Settles O53: arrivals reach the matching store one by one (assumption 71), a dispatch and a capture take what assumption 73 says,
and a tick moves the time to its instant (assumptions 6 and 121). -/
theorem ladleFlow : Obligations.LadleFlow := ⟨operandsClaim, dispatchingClaim, captureClaim⟩

end Sys2Proof.Machine
end

section
/-!
PROOFS. Kiljo instructions that act on their own context (R240, R267): what an issue comes to once the instruction acts, and the
rows of Tables 11.2 to 11.4, each as the meaning that `exec` gives it.
-/

namespace Sys2Proof.Machine
open Sys2Proof.Claims

/-! ### The issue of an instruction that acts -/

/-- The module that the outcome of an instruction on its own context makes. -/
def State.issued (s : State) (e c : Nat) (x : Ctx) : KRes → Module
  | .ok y => Claims.holding s e c x y
  | .exc code d a => excepts s e c x code d a

theorem Ctx.here_past (s : State) (e c : Nat) (x : Ctx) : (past s e c x).here = x.pc.toNat := by
  simp [Ctx.here, past, begun]

/-- R240, R267, R268: an instruction that acts runs on the module at its capture point, its context begun. -/
theorem Module.issueM_of_acts {s : State} {e c op : Nat} {x : Ctx} {w : Kw} (h : acts s e c x op w) (f : Module → Ctx → Module) :
    s.m.issueM e c op w f = f (Claims.holding s e c x (begun s e c x)) (past s e c x) := by
  obtain ⟨issuer, sound, qualified⟩ := h
  rw [Module.issueM_eq _ _ _ _ _ _ x issuer]
  simp only [sound, qualified, Bool.true_eq_false, if_false]
  rfl

/-- R256: what an instruction did to its context is written back, or its exception is taken. -/
theorem Module.kDone_begun (s : State) (e c : Nat) (x : Ctx) (r : KRes) :
    (Claims.holding s e c x (begun s e c x)).kDone e c (past s e c x).here r = s.issued e c x r := by
  cases r with
  | ok y => exact Module.setCtx_setCtx ..
  | exc code d a => rw [Ctx.here_past]; rfl

theorem Module.issue_of_acts {s : State} {e c op : Nat} {x : Ctx} {w : Kw} (h : acts s e c x op w) (f : Ctx → KRes) :
    s.m.issue e c op w f = s.issued e c x (f (past s e c x)) := by
  rw [Module.issue, Module.issueM_of_acts h, Module.kDone_begun]

/-- R256: an exception of an instruction that has issued. -/
theorem Module.kExc_begun (s : State) (e c : Nat) (x : Ctx) (code d a : Nat) :
    (Claims.holding s e c x (begun s e c x)).kExc e c (past s e c x).here code d a = excepts s e c x code d a := by
  rw [Ctx.here_past]; rfl

/-! ### Rows that compute a value and put it into a register -/

/-- The meaning of a row that puts what it computes from its context into a register, and computes it from what the issue leaves
as it was. -/
def RowComputes {β : Type} (put : Ctx → Kw → β → Ctx) (r : KRow × (Ctx → Kw → β)) : Prop :=
  (∀ e c w s, exec (r.1.1 e c w) s = s.upd fun m => m.issueP e c r.1.2 w fun x => put x w (r.2 x w)) ∧
    ∀ s e c x w, r.2 (past s e c x) w = r.2 x w

theorem RowComputes.becomes {β : Type} {put : Ctx → Kw → β → Ctx} {r : KRow × (Ctx → Kw → β)} (computes : RowComputes put r)
    {s : State} {e c : Nat} {x : Ctx} {w : Kw} (h : acts s e c x r.1.2 w) :
    becomes (r.1.1 e c w) s (Claims.holding s e c x (put (past s e c x) w (r.2 x w))) := by
  obtain ⟨runs, same⟩ := computes
  refine becomes_of_upd (runs e c w s) ?_
  rw [Module.issueP_of_acts h, same]

/-! ### Integer results (R270) -/

/-- The high half of the signed product. -/
theorem ofInt_ediv_eq_extract (x y : BitVec 64) :
    BitVec.ofInt 64 (x.toInt * y.toInt / (2 ^ 64 : Nat)) = (x.signExtend 128 * y.signExtend 128).extractLsb' 64 64 := by
  have prod : x.signExtend 128 * y.signExtend 128 = BitVec.ofInt 128 (x.toInt * y.toInt) := by
    rw [BitVec.ofInt_mul]; rfl
  apply BitVec.eq_of_toNat_eq
  rw [prod, BitVec.extractLsb'_toNat, BitVec.toNat_ofInt, BitVec.toNat_ofInt, Nat.shiftRight_eq_div_pow]
  generalize x.toInt * y.toInt = n
  omega

theorem ofInt_min (x y : BitVec 64) : BitVec.ofInt 64 (min x.toInt y.toInt) = if x.slt y then x else y := by
  simp only [BitVec.slt, decide_eq_true_eq]
  split
  · rw [min_eq_left (by omega), BitVec.ofInt_toInt]
  · rw [min_eq_right (by omega), BitVec.ofInt_toInt]

theorem ofInt_max (x y : BitVec 64) : BitVec.ofInt 64 (max x.toInt y.toInt) = if x.slt y then y else x := by
  simp only [BitVec.slt, decide_eq_true_eq]
  split
  · rw [max_eq_right (by omega), BitVec.ofInt_toInt]
  · rw [max_eq_left (by omega), BitVec.ofInt_toInt]

/-- ADDS clamps the exact sum to the signed range. -/
theorem satAdd_eq (x y : BitVec 64) :
    satAdd x y = BitVec.ofInt 64 (max (-(2 ^ 63)) (min (2 ^ 63 - 1) (x.toInt + y.toInt))) := by
  unfold satAdd
  dsimp only
  generalize x.toInt + y.toInt = n
  split
  · rw [min_eq_left (by omega), max_eq_right (by decide)]; rfl
  · split
    · rw [min_eq_right (by omega), max_eq_left (by omega)]; rfl
    · rw [min_eq_right (by omega), max_eq_right (by omega)]

theorem computes_intRows : ∀ r ∈ intRows, RowComputes (fun x w v => x.setG w.a v) r := by
  simp only [intRows, ← ofInt_ediv_eq_extract, ofInt_min, ofInt_max, ← satAdd_eq, List.forall_mem_cons, List.not_mem_nil, false_implies,
    implies_true, and_true]
  and_intros
  all_goals intros; rfl

/-- R270: the integer rows but DIV and REM. -/
theorem integerResultsClaim : IntegerResultsClaim :=
  fun r row _ _ _ _ _ h => (computes_intRows r row).becomes h

/-! ### Division (R270) -/

theorem sdiv_eq_ofInt (x y : BitVec 64) : x.sdiv y = BitVec.ofInt 64 (x.toInt.tdiv y.toInt) := by
  rw [← BitVec.toInt_inj, BitVec.toInt_sdiv, BitVec.toInt_ofInt]

theorem srem_eq_ofInt (x y : BitVec 64) : x.srem y = BitVec.ofInt 64 (x.toInt.tmod y.toInt) := by
  rw [← BitVec.toInt_srem, BitVec.ofInt_toInt]

/-- R270: DIV and REM, and their exception 7. -/
theorem divisionClaim : DivisionClaim := by
  intro s e c x w
  refine ⟨fun h divisor => ?_, fun h divisor => ?_, fun h zero => ?_, fun h zero => ?_⟩
  · refine becomes_of_upd (f := mDiv e c w) rfl ((Module.issue_of_acts h _).trans ?_)
    rw [if_neg (show (past s e c x).getG w.c ≠ 0 from divisor), sdiv_eq_ofInt]
    rfl
  · refine becomes_of_upd (f := mRem e c w) rfl ((Module.issue_of_acts h _).trans ?_)
    rw [if_neg (show (past s e c x).getG w.c ≠ 0 from divisor), srem_eq_ofInt]
    rfl
  · refine becomes_of_upd (f := mDiv e c w) rfl ((Module.issue_of_acts h _).trans ?_)
    rw [if_pos (show (past s e c x).getG w.c = 0 from zero)]
    rfl
  · refine becomes_of_upd (f := mRem e c w) rfl ((Module.issue_of_acts h _).trans ?_)
    rw [if_pos (show (past s e c x).getG w.c = 0 from zero)]
    rfl

/-! ### Predicates (R270) -/

/-- The conditions of Table 11.2 read on integers. -/
theorem kCond_eq_compares (n : Nat) (a b : BitVec 64) : kCond n a b = compares n a b := by
  unfold kCond compares
  split
  · rfl
  · rfl
  · rfl
  · simp [BitVec.slt, ← decide_not]
  · rfl
  · next h0 h1 h2 h3 h4 =>
    simp [BitVec.ult, ← decide_not, show n ≠ 0 from h0, show n ≠ 1 from h1, show n ≠ 2 from h2, show n ≠ 3 from h3,
      show n ≠ 4 from h4]

/-- R270: CMP, CMPI and PLOG. -/
theorem predicatesClaim : PredicatesClaim := by
  intro s e c x w
  refine ⟨fun h => ?_, fun h => ?_, fun h => ?_⟩
  · rw [← kCond_eq_compares]
    exact becomes_of_upd (f := mCmp e c w) rfl (Module.issueP_of_acts h _)
  · rw [← kCond_eq_compares]
    exact becomes_of_upd (f := mCmpi e c w) rfl (Module.issueP_of_acts h _)
  · exact becomes_of_upd (f := mPlog e c w) rfl (Module.issueP_of_acts h _)

/-! ### Moves (R270 to R272, R275, R282) -/

theorem setWidth_and_five (v : BitVec 64) : v.setWidth 32 &&& 0x1F = (v.setWidth 5).setWidth 32 := by
  apply BitVec.eq_of_toNat_eq
  have mask : (0x1F : Word).toNat = 2 ^ 5 - 1 := rfl
  rw [BitVec.toNat_and, mask, Nat.and_two_pow_sub_one_eq_mod]
  simp only [BitVec.toNat_setWidth]
  omega

theorem exec_moveRows : ∀ r ∈ moveRows, ∀ e c w s, exec (r.1.1 e c w) s = s.upd fun m => m.issueP e c r.1.2 w fun x => r.2 x w := by
  simp only [moveRows, ← setWidth_and_five, List.forall_mem_cons, List.not_mem_nil, false_implies, implies_true, and_true]
  and_intros
  all_goals intros; rfl

/-- R270, R275, R282: the rows that move values within the context, NOP and BR. -/
theorem movesClaim : MovesClaim :=
  fun r row _ e c _ w h => becomes_of_upd (exec_moveRows r row e c w _) (Module.issueP_of_acts h _)

/-! ### Register writes (R270) -/

theorem Ctx.getG_setG (x : Ctx) (r : BitVec 6) (v : BitVec 64) (q : BitVec 6) :
    (x.setG r v).getG q = if q = r ∧ r ≠ 0 then v else x.getG q := by
  by_cases zero : r = 0
  · rw [Ctx.setG, if_pos zero, if_neg fun both => both.2 zero]
  · have stored : (x.setG r v).g = x.g.set r.toNat v := by rw [Ctx.setG, if_neg zero]
    rw [Ctx.getG, stored]
    by_cases same : q = r
    · rw [same, if_neg zero, SMap.getD_set_same, if_pos ⟨rfl, zero⟩]
    · have apart : q.toNat ≠ r.toNat := fun eq => same (BitVec.eq_of_toNat_eq eq)
      rw [if_neg (mt And.left same), SMap.getD, SMap.get?_set_other _ _ apart]
      rfl

/-- Bit k of the predicates after bit n is set or cleared. -/
theorem getLsbD_putBit (p : BitVec 8) (b : Bool) {n k : Nat} (low : k < 8) :
    (if b then p ||| BitVec.ofNat 8 (2 ^ n) else p &&& ~~~(BitVec.ofNat 8 (2 ^ n))).getLsbD k = if k = n then b else p.getLsbD k := by
  have bit : (BitVec.ofNat 8 (2 ^ n)).getLsbD k = decide (k = n) := by
    simp only [BitVec.getLsbD_ofNat, low, decide_true, Bool.true_and, Nat.testBit_two_pow, eq_comm]
  cases b
  · rw [if_neg Bool.false_ne_true, BitVec.getLsbD_and, BitVec.getLsbD_not, bit]
    split <;> simp only [*, decide_true, decide_false, Bool.not_true, Bool.not_false, Bool.and_true, Bool.and_false]
  · rw [if_pos rfl, BitVec.getLsbD_or, bit]
    split <;> simp only [*, decide_true, decide_false, Bool.or_true, Bool.or_false]

theorem Ctx.getP_setP (x : Ctx) (n : Nat) (b : Bool) (k : Nat) :
    (x.setP n b).getP k = if k % 8 = n % 8 ∧ n % 8 ≠ 0 then b else x.getP k := by
  unfold Ctx.getP Ctx.setP
  by_cases zero : n % 8 = 0
  · simp [zero]
  · rw [if_neg zero, getLsbD_putBit x.p b (Nat.mod_lt k (by decide))]
    by_cases same : k % 8 = n % 8
    · simp [same, zero]
    · simp [same]

/-- R270: a write to g0 or p0 is ignored, and any other write is read back and leaves the other registers. -/
theorem registerWritesClaim : RegisterWritesClaim := by
  intro x
  refine ⟨fun v => ⟨rfl, rfl⟩, fun b => ⟨rfl, rfl⟩, fun r v other => ⟨?_, fun q away => ?_⟩,
    fun n b small other => ⟨?_, fun k few away => ?_⟩⟩
  · rw [Ctx.getG_setG, if_pos ⟨rfl, other⟩]
  · rw [Ctx.getG_setG, if_neg fun same => away same.1]
  · rw [Ctx.getP_setP, if_pos ⟨rfl, by omega⟩]
  · rw [Ctx.getP_setP, if_neg (by omega)]

/-- Settles O40: each row is the meaning that `exec` gives it, read on integers where the model computes on words; the moves of
R271 and R272 among them take their values from the model of assumption 29. -/
theorem integerRows : Obligations.IntegerRows :=
  ⟨integerResultsClaim, divisionClaim, predicatesClaim, movesClaim, registerWritesClaim⟩

/-! ### Floating point, lanes and pairs (R271 to R273) -/

theorem computes_floatRows :
    ∀ r ∈ floatRows, RowComputes (fun x w (v : FRes) => (x.setG w.a (v.bits.setWidth 64)).orCs v.flags) r := by
  simp only [floatRows, List.forall_mem_cons, List.not_mem_nil, false_implies, implies_true, and_true]
  and_intros
  all_goals intros; rfl

/-- R271, R272: the rows with one fp32 result. -/
theorem floatResultsClaim : FloatResultsClaim :=
  fun r row _ _ _ _ _ h => (computes_floatRows r row).becomes h

/-- The flags of eight lanes, or-ed in the order of the statement. -/
def laneFlags (f : Nat → FRes) : BitVec 5 :=
  (f 0).flags ||| (f 1).flags ||| (f 2).flags ||| (f 3).flags ||| (f 4).flags ||| (f 5).flags ||| (f 6).flags ||| (f 7).flags

theorem Ctx.setV_congr (x : Ctx) (r : BitVec 6) {f g : Nat → Word} (same : ∀ l < 8, f l = g l) : x.setV r f = x.setV r g := by
  unfold Ctx.setV
  rw [List.foldl_ext]
  intro v l lane
  rw [same l (List.mem_range.mp lane)]

theorem Ctx.mapV_eq (x : Ctx) (r : BitVec 6) (f : Nat → FRes) : x.mapV r f = (x.setV r fun l => (f l).bits).orCs (laneFlags f) := by
  unfold Ctx.mapV
  dsimp only
  have lanes : List.range 8 = [0, 1, 2, 3, 4, 5, 6, 7] := rfl
  rw [Ctx.setV_congr x r (g := fun l => (f l).bits) fun l lane => by simp [List.getD_eq_getElem?_getD, lane]]
  simp only [lanes, List.map_cons, List.map_nil, List.foldl_cons, List.foldl_nil, BitVec.ofNat_eq_ofNat, BitVec.zero_or, laneFlags]

theorem computes_laneRows :
    ∀ r ∈ laneRows, RowComputes (fun x w f => (x.setV w.a fun l => (f l).bits).orCs (laneFlags f)) r := by
  simp only [laneRows, RowComputes, ← Ctx.mapV_eq, List.forall_mem_cons, List.not_mem_nil, false_implies, implies_true, and_true]
  and_intros
  all_goals intros; rfl

/-- R272: the rows that work lane by lane. -/
theorem laneResultsClaim : LaneResultsClaim :=
  fun r row _ _ _ _ _ h => (computes_laneRows r row).becomes h

/-- The pairs of a vector register, real part in the even lane, and the flags of all four. -/
theorem Ctx.setC_eq (x : Ctx) (r : BitVec 6) (f : Nat → CNum) :
    x.setC r f = (x.setV r fun l => if l % 2 = 0 then (f (l / 2)).re else (f (l / 2)).im).orCs
      ((f 0).flags ||| (f 1).flags ||| (f 2).flags ||| (f 3).flags) := by
  unfold Ctx.setC
  dsimp only
  rw [Ctx.setV_congr x r (g := fun l => if l % 2 = 0 then (f (l / 2)).re else (f (l / 2)).im) fun l lane => ?_]
  obtain pair | pair | pair | pair : l / 2 = 0 ∨ l / 2 = 1 ∨ l / 2 = 2 ∨ l / 2 = 3 := by omega
  all_goals simp only [pair, Nat.reduceEqDiff, if_true, if_false]

theorem computes_complexRows : ∀ r ∈ complexRows, RowComputes (fun x w f => x.setC w.a f) r := by
  simp only [complexRows, List.forall_mem_cons, List.not_mem_nil, false_implies, implies_true, and_true]
  and_intros
  all_goals intros; rfl

/-- R273: the complex rows. -/
theorem complexResultsClaim : ComplexResultsClaim := by
  intro r row s e c x w h
  rw [← Ctx.setC_eq]
  exact (computes_complexRows r row).becomes h

/-- Settles O41: each row is the meaning that `exec` gives it; fp32 arithmetic is that of assumption 29, CEXP and CPOL those of
assumptions 30 and 120. -/
theorem floatRows : Obligations.FloatRows := ⟨floatResultsClaim, laneResultsClaim, complexResultsClaim⟩

end Sys2Proof.Machine
end

section
/-!
PROOFS. Kiljo instructions on memory, on blocks of the instance data, on the record, on the check-value units and on the flow of
control (R250, R255, R260, R274, R278, R281 to R286), and the rows that do not act (R267, R268).
-/

namespace Sys2Proof.Machine
open Sys2Proof.Claims

/-! ### Loads and stores (R260, R274) -/

/-- R260: a read of the context area that an instruction makes at its issue, and what it does with the context. -/
theorem Module.areaRead_begun (s : State) (e c : Nat) (x : Ctx) (err : ReadErr) (sp off : Nat) (f : Module → Module) :
    (Claims.holding s e c x (begun s e c x)).areaRead e c err (past s e c x) sp off f = reading s e c x err sp off f := by
  unfold Module.areaRead
  rw [Ctx.here_past]
  rfl

/-- R274: LD and VLD, by the first check that fails, then by the space. -/
theorem Module.ctxLoad_begun (s : State) (e c : Nat) (x : Ctx) (err : ReadErr) (w : Kw) (n align : Nat) (const : GReq) (f : Bytes → Ctx) :
    (Claims.holding s e c x (begun s e c x)).ctxLoad e c err (past s e c x) w.imm w n align const f =
      match x.memCheck (w.c.toNat % 8) (x.effAddr (w.c.toNat % 8) w.b w.imm) n align false with
      | some (code, d, a) => excepts s e c x code d a
      | none =>
        if w.c.toNat % 8 = 4 then Claims.holding s e c x { past s e c x with phase := .waiting const }
        else reading s e c x err (w.c.toNat % 8) (x.effAddr (w.c.toNat % 8) w.b w.imm) fun m =>
          m.setCtx e c (f (x.bytesAt (w.c.toNat % 8) (x.effAddr (w.c.toNat % 8) w.b w.imm) n)) := by
  unfold Module.ctxLoad
  dsimp only
  rw [Module.areaRead_begun, show (past s e c x).effAddr = x.effAddr from rfl, show (past s e c x).memCheck = x.memCheck from rfl,
    show (past s e c x).bytesAt = x.bytesAt from rfl]
  rcases x.memCheck _ _ n align false with _ | ⟨code, d, a⟩
  · dsimp only
    rw [Claims.holding, Claims.holding, Module.setCtx_setCtx]
  · exact Module.kExc_begun ..

/-- Settles O6: the checks come in the order of the model's `memCheck`, and what the read found is an operand (assumption 9). -/
theorem loads : Obligations.Loads := by
  intro s e c x w err
  refine ⟨fun h => ?_, fun h => ?_⟩
  · exact becomes_of_upd (f := mLd e c w err) rfl ((Module.issueM_of_acts h _).trans (Module.ctxLoad_begun ..))
  · exact becomes_of_upd (f := mVld e c w err) rfl ((Module.issueM_of_acts h _).trans (Module.ctxLoad_begun ..))

/-- R250, R274: ST and VST, by the first check that fails. -/
theorem State.issued_ctxStore (s : State) (e c : Nat) (x : Ctx) (w : Kw) (n align : Nat) (b : Bytes) :
    s.issued e c x ((past s e c x).ctxStore w n align b) =
      match x.memCheck (w.c.toNat % 8) (x.effAddr (w.c.toNat % 8) w.b w.imm) n align true with
      | some (code, d, a) => excepts s e c x code d a
      | none => Claims.holding s e c x
          ((past s e c x).storeBytes (w.c.toNat % 8) (x.effAddr (w.c.toNat % 8) w.b w.imm) b) := by
  unfold Ctx.ctxStore
  dsimp only
  rw [show (past s e c x).effAddr = x.effAddr from rfl, show (past s e c x).memCheck = x.memCheck from rfl]
  rcases x.memCheck _ _ n align true with _ | ⟨code, d, a⟩ <;> rfl

/-- Settles O7: the checks come in the order of the model's `memCheck`. -/
theorem stores : Obligations.Stores := by
  intro s e c x w
  refine ⟨fun h => ?_, fun h => ?_⟩
  · exact becomes_of_upd (f := mSt e c w) rfl ((Module.issue_of_acts h _).trans (State.issued_ctxStore ..))
  · exact becomes_of_upd (f := mVst e c w) rfl ((Module.issue_of_acts h _).trans (State.issued_ctxStore ..))

/-! ### Timer and edge blocks (R278, R281) -/

/-- R281: a primitive with a state block, whose own outcome on a block that passed its checks is `y`. -/
theorem Module.ctxBlock_begun {s : State} {e c : Nat} {x : Ctx} {err : ReadErr} {off size kind : Nat} {f : Ctx → KRes} {y : Ctx}
    (passes : x.blockCheck off size kind = none → f (past s e c x) = .ok y) :
    (Claims.holding s e c x (begun s e c x)).ctxBlock e c err (past s e c x) off size kind f =
      match x.blockCheck off size kind with
      | some (code, d, a) => excepts s e c x code d a
      | none => reading s e c x err 0 off fun m => m.setCtx e c y := by
  unfold Module.ctxBlock
  rw [show (past s e c x).blockCheck = x.blockCheck from rfl]
  rcases check : x.blockCheck off size kind with _ | ⟨code, d, a⟩
  · rw [passes check]
    exact Module.areaRead_begun ..
  · exact Module.kExc_begun ..

/-- R278: a timer on a block that passed its checks. -/
theorem Ctx.timerStep_ok {x : Ctx} {w : Kw} (passed : x.blockCheck (x.effAddr 0 w.b w.imm) 16 1 = none)
    (f : Timer → Bool → Nat → Nat → Timer) :
    x.timerStep w .clean f =
      let t := f (Timer.ofBytes (x.bytesAt 0 (x.effAddr 0 w.b w.imm) 16)) (x.getP (w.a.toNat / 8)) (x.getG w.c).toNat x.ct
      .ok ((x.storeBytes 0 (x.effAddr 0 w.b w.imm) t.toBytes).setP (w.a.toNat % 8) t.q) := by
  simp only [Ctx.timerStep, passed, ReadErr.isUe, Bool.false_eq_true, if_false]

/-- Settles O9: the timers are those of R278 on their block; what the read found is an operand (assumption 9). -/
theorem timers : Obligations.Timers := by
  intro s e c x w err
  refine ⟨fun r row h => ?_, fun h => ?_⟩
  · simp only [List.mem_cons, List.not_mem_nil, or_false] at row
    rcases row with rfl | rfl | rfl
    · exact becomes_of_upd (f := mTon e c w err) rfl
        ((Module.issueM_of_acts h _).trans (Module.ctxBlock_begun fun passed => Ctx.timerStep_ok (x := past s e c x) passed _))
    · exact becomes_of_upd (f := mTof e c w err) rfl
        ((Module.issueM_of_acts h _).trans (Module.ctxBlock_begun fun passed => Ctx.timerStep_ok (x := past s e c x) passed _))
    · exact becomes_of_upd (f := mTp e c w err) rfl
        ((Module.issueM_of_acts h _).trans (Module.ctxBlock_begun fun passed => Ctx.timerStep_ok (x := past s e c x) passed _))
  · exact becomes_of_upd (f := mEdge e c w err) rfl ((Module.issueM_of_acts h _).trans (Module.ctxBlock_begun fun _ => rfl))

/-! ### The end of a cycle (R285) -/

theorem Module.commit_begun (s : State) (e c : Nat) (x : Ctx) :
    (Claims.holding s e c x (begun s e c x)).commit e c (past s e c x) =
      if x.recordEntries = [] then (Claims.holding s e c x (past s e c x)).endWithout e c
      else if 4096 < 32 + entriesSize x.recordEntries ∨ 255 < x.recordEntries.length then excepts s e c x 8 x.recordEntries.length 0
      else Claims.holding s e c x { past s e c x with
        phase := .handing ⟨x.inst, x.gen, x.group, x.task, x.ct, 32 + entriesSize x.recordEntries, x.recordEntries, e, c, x.epoch, 0,
          .cycle⟩ } := by
  unfold Module.commit
  dsimp only
  rw [Module.kExc_begun]
  simp only [Claims.holding, Module.setCtx_setCtx, gt_iff_lt]
  rfl

/-- Settles O10: a cycle that ends without a hand-off ends as assumption 101 has it. -/
theorem commitDrop : Obligations.CommitDrop := by
  intro s e c x w
  refine ⟨fun h => ?_, fun h => ?_⟩
  · exact becomes_of_upd (f := mCommit e c w) rfl ((Module.issueM_of_acts h _).trans (Module.commit_begun ..))
  · refine becomes_of_upd (f := mDrop e c w) rfl ((Module.issueM_of_acts h _).trans ?_)
    simp only [Claims.holding, Module.setCtx_setCtx]

/-! ### Control flow (R255, R282, R283) -/

theorem State.issued_eq (s : State) (e c : Nat) (x : Ctx) (r : KRes) : s.issued e c x r = match r with
    | .ok y => Claims.holding s e c x y
    | .exc code d a => excepts s e c x code d a := by
  cases r <;> rfl

/-- R282, R283, R255: BRR, CALL, CALLR, RET and TRAP. -/
theorem controlFlowClaim : ControlFlowClaim := by
  intro s e c x w
  refine ⟨fun h => ?_, fun h => ?_, fun h => ?_, fun h => ?_, fun h => ?_⟩
  · refine becomes_of_upd (f := mBrr e c w) rfl ((Module.issue_of_acts h _).trans ?_)
    rw [Ctx.jump, show (past s e c x).getG w.b + sext64 w.imm = x.getG w.b + w.imm.signExtend 64 from rfl, ite_not]
    split <;> rfl
  · refine becomes_of_upd (f := mCall e c w) rfl ((Module.issue_of_acts h _).trans ?_)
    rw [show (past s e c x).pc - 8 = x.pc by simp [past, begun]]
    exact State.issued_eq ..
  · refine becomes_of_upd (f := mCallr e c w) rfl ((Module.issue_of_acts h _).trans ?_)
    rw [BitVec.ofNat_toNat]
    exact State.issued_eq ..
  · refine becomes_of_upd (f := mRet e c w) rfl ((Module.issue_of_acts h _).trans ?_)
    rw [Ctx.ret, show (past s e c x).stack = x.stack from rfl]
    rcases x.stack with _ | ⟨top, rest⟩ <;> rfl
  · exact becomes_of_upd (f := mTrap e c w) rfl (Module.issue_of_acts h _)

theorem or_one_eq_self {p : BitVec 8} (set : p.getLsbD 0 = true) : p ||| 1 = p := by
  ext i
  cases i with
  | zero => simpa using set
  | succ n => simp

/-- R255, R283: a call, and the return that undoes it. -/
theorem callReturnClaim : CallReturnClaim := by
  intro x w t aligned few top
  refine ⟨_, (if_neg (not_not_intro aligned)).trans (if_neg (Nat.not_le_of_lt few)), rfl, rfl, ?_⟩
  simp only [Ctx.ret, Ctx.frame, or_one_eq_self top]

/-- Settles O44: exception 1 at the target of a BRR that is no multiple of 8 is that of assumption 24. -/
theorem control : Obligations.Control := ⟨controlFlowClaim, callReturnClaim⟩

/-! ### What a read's report leaves alone (R372, R480) -/

/-- Taking an event leaves the fields above the recorder's block alone. -/
theorem Module.keeps_takeEvent_above (m : Module) {f : Fld} (above : 0xc00000 ≤ f.addr) (place : f.lsb < 32) (s c i t d x : Nat) :
    m.Keeps f (m.takeEvent s c i t d x) := by
  have count (k : Module) {n : Nat} (few : n < 8) : k.Keeps f (k.bump (R.EVR_CNT_CNT n)) :=
    k.keeps_wr _ (Fld.key_ne place (by simp [R.EVR_CNT_CNT]) (.inl (by simp only [R.EVR_CNT_CNT]; omega)))
  have lostOne (k : Module) : k.Keeps f (k.bump R.EVR_LOST_CNT_CNT) :=
    k.keeps_wr _ (Fld.key_ne place (by decide) (.inl (by simp only [R.EVR_LOST_CNT_CNT]; omega)))
  have enqueued (k : Module) : k.Keeps f k.enqueueLost := by
    unfold Module.enqueueLost
    exact .ite (.refl f k) (Module.Keeps.trans (.same rfl) (count _ (by decide)))
  have lost (k : Module) : k.Keeps f k.loseEvent := ((k.keeps_setEvr _).trans (lostOne _)).trans (count _ (by decide))
  unfold Module.takeEvent
  refine .ite (.refl f m) (.ite ((count m (by decide)).trans (count _ (by decide))) ?_)
  exact ((count m (by decide)).trans (enqueued _)).trans (.ite (lost _) (.same rfl))

theorem Module.keeps_setErr (f : Fld) (m : Module) (x : ErrSt) : m.Keeps f { m with err := x } := .same rfl

section
variable {f : Fld} (above : 0xc00000 ≤ f.addr) (below : f.addr < 0x1100000) (place : f.lsb < 32)
include above place

theorem Module.keeps_raiseIf_above (m : Module) (en : Fld) (s n c i t d : Nat) : m.Keeps f (m.raiseIf en s n c i t d) :=
  .ite (m.keeps_takeEvent_above above place ..) (.refl f m)

theorem Module.keeps_ceHour (m : Module) (mem : Nat) : m.Keeps f (m.ceHour mem) := by
  unfold Module.ceHour
  exact .ite ((m.keeps_setErr f _).trans (Module.keeps_raiseIf_above above place ..)) (m.keeps_setErr f _)

omit above
include below

/-- The error tree's own registers stand above the field. -/
theorem Module.keeps_wr_tree (m : Module) {g : Fld} (v : Nat) (tree : 0x1100000 ≤ g.addr) (gplace : g.lsb < 32) :
    m.Keeps f (m.wr g v) :=
  m.keeps_wr v (Fld.key_ne place gplace (.inl (by omega)))

theorem Module.keeps_errLog (m : Module) (w : List Nat) : m.Keeps f (m.errLog w) := by
  have entry (i : Nat) : m.Keeps f ((List.range 4).foldl (fun m k => m.wr (R.ERR_LOG_ENTRY i k) (w.getD k 0)) m) :=
    .foldl (fun k _ _ => k.keeps_wr_tree below place _ (by simp only [R.ERR_LOG_ENTRY]; omega) (by simp [R.ERR_LOG_ENTRY])) m
  have next (i : Nat) := (entry i).trans (Module.keeps_wr_tree below place _ (g := R.ERR_STATUS_LOG_NEXT) (i + 1) (by decide) (by decide))
  unfold Module.errLog
  exact .ite ((next _).trans (Module.keeps_wr_tree below place _ _ (by decide) (by decide))) (next _)

/-- The first error, of class UC or UM, is held (R483). -/
theorem Module.keeps_firstError (m : Module) (w : List Nat) :
    m.Keeps f (((List.range 4).foldl (fun m k => m.wr (R.ERR_FIRST_ENTRY k) (w.getD k 0)) m).flag R.ERR_STATUS_FIRST_VALID) :=
  Module.Keeps.trans
    (.foldl (fun k _ _ => k.keeps_wr_tree below place _ (by simp only [R.ERR_FIRST_ENTRY]; omega) (by simp [R.ERR_FIRST_ENTRY])) m)
    (Module.keeps_wr_tree below place _ _ (by decide) (by decide))

include above

theorem Module.keeps_ceAgain (m : Module) (mem addr : Nat) : m.Keeps f (m.ceAgain mem addr) := by
  unfold Module.ceAgain
  have listed (P : Prop) [Decidable P] (x : ErrSt) :
      m.Keeps f (if P then ({ m with err := x } : Module).bump R.ERR_PERSIST_CNT_CNT else { m with err := x }) :=
    .ite ((m.keeps_setErr f x).trans (Module.keeps_wr_tree below place _ _ (by decide) (by decide))) (m.keeps_setErr f x)
  exact .ite ((listed _ _).trans (Module.keeps_raiseIf_above above place ..)) (listed _ _)

/-- A report writes the blocks of the memories and of the error tree, and the recorder's (R480). -/
theorem Module.keeps_report (m : Module) (r : ErrReport) : m.Keeps f (m.report r) := by
  have counted (k : Module) : k.Keeps f (k.bump (R.ERR_SRC_CNT_CNT r.s)) :=
    k.keeps_wr_tree below place _ (by simp only [R.ERR_SRC_CNT_CNT]; omega) (by simp [R.ERR_SRC_CNT_CNT])
  have sticky (k : Module) (v : Nat) : k.Keeps f (k.wr R.ERR_SRC_STK_SRC_STK v) :=
    k.keeps_wr_tree below place _ (by decide) (by decide)
  have memory (k : Module) : k.Keeps f (k.bump (if errClass r.s = 0 then R.MEM_CE_CNT_CNT r.mem else R.MEM_UE_CNT_CNT r.mem)) := by
    refine k.keeps_wr_tree below place _ ?_ ?_ <;> split <;> simp only [R.MEM_CE_CNT_CNT, R.MEM_UE_CNT_CNT] <;> omega
  have event (k : Module) (n c i d : Nat) : k.Keeps f (k.raiseIf R.ERR_CTRL_LOG_EN 16 n c i 0xFFFF d) :=
    k.keeps_raiseIf_above above place ..
  have due (k : Module) : k.Keeps f (k.errIrq (errClass r.s)) := by
    unfold Module.errIrq
    exact .ite (k.keeps_setErr f _) (.refl f k)
  unfold Module.report
  refine .trans ?_ (due _)
  refine .trans ?_ (.ite (event ..) (.ite (event ..)
    (.ite ((Module.keeps_ceHour above place ..).trans (Module.keeps_ceAgain above below place ..)) (.refl f _))))
  refine .trans ?_ (.ite (Module.keeps_firstError below place _ _) (.refl f _))
  refine .trans ?_ (Module.keeps_errLog below place _ _)
  exact ((counted m).trans (sticky _ _)).trans (.ite (memory _) (.refl f _))

/-- What a read found touches no field between the recorder's block and the memories'. -/
theorem Module.keeps_readReport (m : Module) (err : ReadErr) (a b k i e : Nat) : m.Keeps f (m.readReport err a b k i e) := by
  cases err with
  | clean => exact .refl f m
  | ce addr sym syn => exact m.keeps_report above below place _
  | ue addr syn => exact m.keeps_report above below place _

end

/-! ### Check values (R286) -/

/-- The fields that the settings and the owner of a unit stand in. -/
def crcUnitFields (u : Nat) : List Fld :=
  [R.CRC_CFG_WIDTH u, R.CRC_CFG_REFIN u, R.CRC_CFG_REFOUT u, R.CRC_POLY_LO_VALUE u, R.CRC_POLY_HI_VALUE u, R.CRC_INIT_LO_VALUE u,
   R.CRC_INIT_HI_VALUE u, R.CRC_XOROUT_LO_VALUE u, R.CRC_XOROUT_HI_VALUE u]

theorem crcUnitFields_place {f : Fld} {u : Nat} (mem : f ∈ crcUnitFields u) :
    0xf00000 + 0x200 * u ≤ f.addr ∧ f.addr < 0xf0001c + 0x200 * u ∧ f.lsb < 32 := by
  simp only [crcUnitFields, List.mem_cons, List.not_mem_nil, or_false] at mem
  rcases mem with rfl | rfl | rfl | rfl | rfl | rfl | rfl | rfl | rfl <;>
    exact ⟨Nat.add_le_add_right (by decide) _, Nat.add_lt_add_right (by decide) _, Nat.lt_of_sub_pos (Nat.succ_pos _)⟩

theorem Module.crcSet_congr {m n : Module} {u : Nat} (same : ∀ f ∈ crcUnitFields u, n.rd f = m.rd f) : n.crcSet u = m.crcSet u := by
  simp only [crcUnitFields, List.forall_mem_cons] at same
  obtain ⟨width, refin, refout, pl, ph, il, ih, xl, xh, -⟩ := same
  simp only [Module.crcSet, Module.rd64, Module.isOn, width, refin, refout, pl, ph, il, ih, xl, xh]

theorem Module.crcSet_readReport (m : Module) (err : ReadErr) (a b k i e : Nat) {u : Nat} (unit : u < 8) :
    (m.readReport err a b k i e).crcSet u = m.crcSet u :=
  Module.crcSet_congr fun f mem => by
    obtain ⟨low, high, place⟩ := crcUnitFields_place mem
    exact (Module.keeps_readReport (by omega) (by omega) place m err a b k i e).2

theorem Module.crcForEngines_readReport (m : Module) (err : ReadErr) (a b k i e : Nat) {u : Nat} (unit : u < 8) :
    (m.readReport err a b k i e).crcForEngines u = m.crcForEngines u := by
  have place : (R.CRC_OWNER_OWNER u).addr = 0xf01000 + 0x4 * u ∧ (R.CRC_OWNER_OWNER u).lsb = 0 := ⟨rfl, rfl⟩
  unfold Module.crcForEngines
  rw [(Module.keeps_readReport (by omega) (by omega) (by omega) m err a b k i e).2]

/-- R286: a request to a unit that serves the engines. -/
theorem Module.crcAsk_serves {m : Module} {u : Nat} (serves : m.crcForEngines u = true) (e c : Nat) (x : Ctx) (a : BitVec 6)
    (f : CrcSet → Nat) :
    m.crcAsk e c x a u f = m.setCtx e c { x with phase := .waiting (.crc a u (BitVec.ofNat 64 (f (m.crcSet u)))) } := by
  rw [Module.crcAsk, serves]
  rfl

/-- R286: a request to a unit that does not. -/
theorem Module.crcAsk_refuses {m : Module} {u : Nat} (other : m.crcForEngines u = false) (e c : Nat) (x : Ctx) (a : BitVec 6)
    (f : CrcSet → Nat) :
    m.crcAsk e c x a u f = { m with freeIdx := m.freeIdx + 1 }.kExc e c x.here 2 5 (Config.freeWord m.freeIdx).toNat := by
  rw [Module.crcAsk, other]
  rfl

theorem exec_crcRows : ∀ r ∈ crcRows, ∀ e c w s, exec (r.1.1 e c w) s =
    s.upd fun m => m.issueM e c r.1.2 w fun m x => m.crcAsk e c x w.a (w.imm.toNat % 8) (r.2 x w) := by
  simp only [crcRows, List.forall_mem_cons, List.not_mem_nil, false_implies, implies_true, and_true]
  and_intros
  all_goals intros; rfl

theorem crcRows_past : ∀ r ∈ crcRows, ∀ s e c x w, r.2 (past s e c x) w = r.2 x w := by
  intro r row s e c x w
  simp only [crcRows, List.mem_cons, List.not_mem_nil, or_false] at row
  rcases row with rfl | rfl | rfl | rfl <;> rfl

/-- R286: CRCI, CRCF, CRCT and CRCX. -/
theorem checkValueRequestsClaim : CheckValueRequestsClaim := by
  intro r row s e c x w h
  let k := Claims.holding s e c x (begun s e c x)
  have runs := Module.issueM_of_acts h fun m x => m.crcAsk e c x w.a (w.imm.toNat % 8) (r.2 x w)
  refine ⟨fun serves => ?_, fun other => ⟨(Config.freeWord (s.m.capturePoint e c x).freeIdx).toNat, ?_⟩⟩
  · refine becomes_of_upd (exec_crcRows r row e c w s) (runs.trans ((Module.crcAsk_serves (m := k) serves ..).trans ?_))
    rw [crcRows_past r row]
    exact Module.setCtx_setCtx ..
  · refine becomes_of_upd (exec_crcRows r row e c w s) (runs.trans ((Module.crcAsk_refuses (m := k) other ..).trans ?_))
    rw [Ctx.here_past]
    rfl

/-- R286: CRCB of a unit that serves the engines. -/
theorem checkValueBlockClaim : CheckValueBlockClaim := by
  intro s e c x w err h serves
  have unit : w.imm.toNat % 8 < 8 := Nat.mod_lt _ (by decide)
  refine becomes_of_upd (f := mCrcb e c w err) rfl ((Module.issueM_of_acts h _).trans ?_)
  unfold Module.crcBlock reading
  dsimp only
  have owner := Module.crcForEngines_readReport (Claims.holding s e c x (begun s e c x)) err 2 12 13 (past s e c x).inst e unit
  rw [Module.kExc_begun, Module.crcAsk_serves (owner.trans serves), Module.crcSet_readReport _ _ _ _ _ _ _ unit, Ctx.here_past]
  simp only [Bool.not_eq_true']
  rfl

/-- Settles O46: the unit's settings are those at the issue (assumption 26), and CRCB checks its bytes before its unit
(assumption 25). -/
theorem checkValueRows : Obligations.CheckValueRows := ⟨checkValueRequestsClaim, checkValueBlockClaim⟩

/-! ### Rows that do not act (R267, R268) -/

/-- What issues from context c of engine e: some meaning under the opcode and the fields. -/
def IssuesAs (op : Nat) (w : Kw) (e c : Nat) (i : Instr) : Prop :=
  ∃ f, ∀ s, exec i s = s.upd fun m => m.issueM e c op w f

theorem issuesAs_askRows : ∀ r ∈ askRows, ∀ e c w, IssuesAs r.1.2 w e c (r.1.1 e c w) := by
  simp only [askRows, List.forall_mem_cons, List.not_mem_nil, false_implies, implies_true, and_true]
  and_intros
  all_goals exact fun _ _ _ => ⟨_, fun _ => rfl⟩

theorem issuesAs_stageRows : ∀ r ∈ stageRows, ∀ e c w, IssuesAs r.1.2 w e c (r.1.1 e c w) := by
  simp only [stageRows, List.forall_mem_cons, List.not_mem_nil, false_implies, implies_true, and_true]
  and_intros
  all_goals exact fun _ _ _ => ⟨_, fun _ => rfl⟩

/-- The rows that only compute issue under their own opcodes as every row does: from the meanings proved above. -/
theorem issuesAs_plainRows : ∀ r ∈ plainRows, ∀ e c w, IssuesAs r.2 w e c (r.1 e c w) := by
  simp only [plainRows, List.forall_mem_append, List.forall_mem_map]
  refine ⟨⟨⟨⟨⟨⟨⟨⟨⟨?_, ?_⟩, ?_⟩, ?_⟩, ?_⟩, issuesAs_askRows⟩, issuesAs_stageRows⟩, ?_⟩, ?_⟩, ?_⟩
  · exact fun r row e c w => ⟨_, (computes_intRows r row).1 e c w⟩
  · exact fun r row e c w => ⟨_, (computes_floatRows r row).1 e c w⟩
  · exact fun r row e c w => ⟨_, (computes_laneRows r row).1 e c w⟩
  · exact fun r row e c w => ⟨_, (computes_complexRows r row).1 e c w⟩
  · exact fun r row e c w => ⟨_, exec_moveRows r row e c w⟩
  · exact fun r row e c w => ⟨_, exec_crcRows r row e c w⟩
  all_goals
    simp only [List.forall_mem_cons, List.not_mem_nil, false_implies, implies_true, and_true]
    and_intros
    all_goals exact fun _ _ _ => ⟨_, fun _ => rfl⟩

theorem issuesAs_readRows : ∀ r ∈ readRows, ∀ e c w err, IssuesAs r.2 w e c (r.1 e c w err) := by
  simp only [readRows, List.forall_mem_cons, List.not_mem_nil, false_implies, implies_true, and_true]
  and_intros
  all_goals exact fun _ _ _ _ => ⟨_, fun _ => rfl⟩

/-- R267: an instruction whose predicate does not hold moves the pc. -/
theorem IssuesAs.becomes_past {op : Nat} {w : Kw} {e c : Nat} {i : Instr} (runs : IssuesAs op w e c i) {s : State} {x : Ctx}
    (issuer : issues s e c x) (sound : kEncodingOk op w = true) (off : x.qualified w = false) :
    becomes i s (Claims.holding s e c x (past s e c x)) := by
  obtain ⟨f, runs⟩ := runs
  refine becomes_of_upd (runs s) ?_
  rw [Module.issueM_eq _ _ _ _ _ _ x issuer]
  simp only [sound, off, Bool.true_eq_false, if_false, if_true]
  rfl

theorem Module.issueM_undefined {s : State} {e c op : Nat} {x : Ctx} {w : Kw} (issuer : issues s e c x)
    (undefined : kEncodingOk op w = false) (f : Module → Ctx → Module) : s.m.issueM e c op w f = excepts s e c x 1 0 0 := by
  rw [Module.issueM_eq _ _ _ _ _ _ x issuer, if_pos undefined]
  rfl

/-- R267: the rows that do not qualify. -/
theorem unqualifiedClaim : UnqualifiedClaim :=
  ⟨fun r row _ e c _ w => (issuesAs_plainRows r row e c w).becomes_past,
    fun r row _ e c _ w err => (issuesAs_readRows r row e c w err).becomes_past⟩

/-- R268: undefined encodings. -/
theorem undefinedEncodingClaim : UndefinedEncodingClaim := by
  refine ⟨fun s e c x v issuer undefined => ?_, fun r row s e c x w issuer undefined => ?_⟩
  · refine becomes_of_upd (f := mUndefinedEncoding e c v) rfl ?_
    rw [mUndefinedEncoding, undefined, if_neg Bool.false_ne_true, Module.issueM_undefined issuer undefined]
  · obtain ⟨f, runs⟩ := issuesAs_plainRows r row e c w
    exact becomes_of_upd (runs s) (Module.issueM_undefined issuer undefined f)

/-- Settles O42: every row issues under its own opcode, so that the predicate and the encoding are judged before its meaning. -/
theorem qualification : Obligations.Qualification := ⟨unqualifiedClaim, undefinedEncodingClaim⟩

end Sys2Proof.Machine
end

section
/-!
PROOFS. The check-value units: the rule of R462 bit by bit, and the commands of a unit's owner (R463 to R468).
-/

namespace Sys2Proof.Machine
open Sys2Proof.Claims

/-! ### One byte through the shift register (R462) -/

/-- One shift of the register of R462. -/
def ruleShift (w poly r : Nat) : Nat := if bitOf r (w - 1) then ((r * 2) ^^^ poly) % 2 ^ w else r * 2 % 2 ^ w

theorem ruleShift_eq {w poly : Nat} (fits : poly < 2 ^ w) (r : Nat) :
    ruleShift w poly r = (r * 2 % 2 ^ w) ^^^ (if bitOf r (w - 1) then poly else 0) := by
  unfold ruleShift
  split
  · rw [Nat.xor_mod_two_pow, Nat.mod_eq_of_lt fits]
  · rw [Nat.xor_zero]

theorem xor_mul_two (a b : Nat) : (a ^^^ b) * 2 = (a * 2) ^^^ (b * 2) := by
  simpa only [Nat.shiftLeft_eq, Nat.pow_one] using Nat.shiftLeft_xor_distrib (a := a) (b := b) (i := 1)

/-- A bit is fed at the top of the register. -/
theorem crcBit_eq {w poly : Nat} (wide : 0 < w) (fits : poly < 2 ^ w) (r : Nat) (b : Bool) :
    crcBit w poly r b = ruleShift w poly (r ^^^ (b.toNat * 2 ^ (w - 1))) := by
  have full : 2 ^ (w - 1) * 2 = 2 ^ w := by rw [← Nat.pow_succ, Nat.succ_eq_add_one, Nat.sub_add_cancel wide]
  rw [ruleShift_eq fits, xor_mul_two, Nat.xor_mod_two_pow, Nat.mul_assoc, full, Nat.mul_mod_left, Nat.xor_zero, bitOf_eq_testBit,
    Nat.testBit_xor, Nat.testBit_mul_two_pow]
  unfold crcBit
  rw [bitOf_eq_testBit]
  cases r.testBit (w - 1) <;> cases b <;> simp

/-- What stands below the top bit shifts with the register. -/
theorem ruleShift_xor {w poly x : Nat} (fits : poly < 2 ^ w) (low : x < 2 ^ (w - 1)) (r : Nat) :
    ruleShift w poly (r ^^^ x) = ruleShift w poly r ^^^ (x * 2) := by
  have inside : x * 2 < 2 ^ w := by
    cases w with
    | zero => simp at low; omega
    | succ n => rw [Nat.pow_succ]; exact Nat.mul_lt_mul_of_pos_right low (by decide)
  rw [ruleShift_eq fits, ruleShift_eq fits, xor_mul_two, Nat.xor_mod_two_pow, Nat.mod_eq_of_lt inside, bitOf_eq_testBit,
    bitOf_eq_testBit, Nat.testBit_xor, Nat.testBit_lt_two_pow low, Bool.xor_false, Nat.xor_right_comm]

/-- The bits of v from n down, at the top of the register, are bit n on top and the bits below it after it. -/
theorem mod_two_pow_succ_at_top {w n : Nat} (few : n + 1 ≤ w) (v : Nat) :
    v % 2 ^ (n + 1) * 2 ^ (w - (n + 1)) = ((bitOf v n).toNat * 2 ^ (w - 1)) ^^^ (v % 2 ^ n * 2 ^ (w - (n + 1))) := by
  apply Nat.eq_of_testBit_eq
  intro i
  simp only [Nat.testBit_xor, Nat.testBit_mul_two_pow, Nat.testBit_mod_two_pow, bitOf_eq_testBit]
  have bit (j : Nat) : (v.testBit n).toNat.testBit j = (decide (j = 0) && v.testBit n) := by
    cases v.testBit n with
    | false => simp
    | true => simpa [eq_comm] using Nat.testBit_two_pow (n := 0) (m := j)
  rw [bit]
  rcases Nat.lt_or_ge i (w - (n + 1)) with below | within
  · simp [show ¬ w - (n + 1) ≤ i by omega, show ¬ w - 1 ≤ i by omega]
  · obtain ⟨j, rfl⟩ := Nat.exists_eq_add_of_le within
    rw [Nat.add_sub_cancel_left]
    rcases Nat.lt_trichotomy j n with lower | rfl | higher
    · simp [lower, show j < n + 1 by omega, show ¬ w - 1 ≤ w - (n + 1) + j by omega]
    · simp [show w - (j + 1) + j = w - 1 by omega, show w ≤ w - 1 + (j + 1) by omega]
    · simp [show ¬ j < n by omega, show ¬ j < n + 1 by omega, show ¬ w - (n + 1) + j - (w - 1) = 0 by omega]

/-- The low n bits of v, the most significant first, are v at the top of the register. -/
theorem foldl_crcBit {w poly : Nat} (fits : poly < 2 ^ w) (v : Nat) {n : Nat} (few : n ≤ w) (r : Nat) :
    (List.range n).foldl (fun a i => crcBit w poly a (bitOf v (n - 1 - i))) r =
      (List.range n).foldl (fun a _ => ruleShift w poly a) (r ^^^ (v % 2 ^ n * 2 ^ (w - n))) := by
  induction n generalizing r with
  | zero => simp [Nat.mod_one]
  | succ n ih =>
    have low : v % 2 ^ n * 2 ^ (w - (n + 1)) < 2 ^ (w - 1) := by
      calc v % 2 ^ n * 2 ^ (w - (n + 1)) < 2 ^ n * 2 ^ (w - (n + 1)) :=
            Nat.mul_lt_mul_of_pos_right (Nat.mod_lt _ (Nat.two_pow_pos n)) (Nat.two_pow_pos _)
        _ = 2 ^ (w - 1) := by rw [← Nat.pow_add]; congr 1; omega
    have next : v % 2 ^ n * 2 ^ (w - (n + 1)) * 2 = v % 2 ^ n * 2 ^ (w - n) := by
      rw [Nat.mul_assoc, ← Nat.pow_succ]; congr 2; omega
    have later (i : Nat) : n + 1 - 1 - (i + 1) = n - 1 - i := by omega
    simp only [List.range_succ_eq_map, List.foldl_cons, List.foldl_map, Nat.succ_eq_add_one, later]
    rw [ih (by omega), Nat.add_sub_cancel, Nat.sub_zero, crcBit_eq (by omega) fits, mod_two_pow_succ_at_top few, ← Nat.xor_assoc,
      ruleShift_xor fits low, next]

/-! ### Reflection -/

/-- A bit put below a multiple of its next power adds just that bit. -/
theorem testBit_add_two_pow {p a : Nat} (multiple : 2 ^ (p + 1) ∣ a) (k : Nat) :
    (a + 2 ^ p).testBit k = (a.testBit k || decide (p = k)) := by
  obtain ⟨q, rfl⟩ := multiple
  rw [Nat.two_pow_add_eq_or_of_lt (Nat.pow_lt_pow_right (by decide) (Nat.lt_succ_self p)), Nat.testBit_or, Nat.testBit_two_pow]

/-- The first j bits of v, reflected into n bits. -/
theorem foldl_reflect {n j : Nat} (few : j ≤ n) (v : Nat) :
    let a := (List.range j).foldl (fun a i => if bitOf v i then a + 2 ^ (n - 1 - i) else a) 0
    2 ^ (n - j) ∣ a ∧ ∀ k, a.testBit k = (decide (k < n ∧ n - j ≤ k) && v.testBit (n - 1 - k)) := by
  induction j with
  | zero => exact ⟨Nat.dvd_zero _, fun k => by simp⟩
  | succ j ih =>
    obtain ⟨multiple, bits⟩ := ih (by omega)
    simp only [List.range_succ, List.foldl_append, List.foldl_cons, List.foldl_nil]
    generalize (List.range j).foldl (fun a i => if bitOf v i then a + 2 ^ (n - 1 - i) else a) 0 = a at multiple bits ⊢
    have here : n - 1 - j = n - (j + 1) := by omega
    have up : n - j = n - (j + 1) + 1 := by omega
    rw [bitOf_eq_testBit, here]
    rw [up] at multiple
    have bits' (k : Nat) : (if v.testBit j = true then a + 2 ^ (n - (j + 1)) else a).testBit k =
        (a.testBit k || (v.testBit j && decide (n - (j + 1) = k))) := by
      split
      · next set => rw [testBit_add_two_pow multiple, set, Bool.true_and]
      · next clear => simp [Bool.not_eq_true _ ▸ clear]
    refine ⟨?_, fun k => ?_⟩
    · have lower := (Nat.pow_dvd_pow 2 (Nat.le_succ (n - (j + 1)))).trans multiple
      split
      · exact Nat.dvd_add lower (Nat.dvd_refl _)
      · exact lower
    · rw [bits', bits]
      by_cases new : n - (j + 1) = k
      · simp [← new, show ¬ n - j ≤ n - (j + 1) by omega, show n - 1 - (n - (j + 1)) = j by omega, show n - (j + 1) < n by omega]
      · simp only [new, decide_false, Bool.and_false, Bool.or_false, show (n - j ≤ k) = (n - (j + 1) ≤ k) from propext (by omega)]

/-- Bit k of a reflected value. -/
theorem testBit_reflectBits (n v k : Nat) : (reflectBits n v).testBit k = (decide (k < n) && v.testBit (n - 1 - k)) := by
  rw [reflectBits, (foldl_reflect (Nat.le_refl n) v).2]
  simp

theorem reflectBits_lt (n v : Nat) : reflectBits n v < 2 ^ n :=
  Nat.lt_pow_two_of_testBit _ fun i high => by simp [testBit_reflectBits, Nat.not_lt.mpr high]

/-! ### The rule of the units (R462, R463) -/

/-- The byte that R462 feeds: as it is, or reflected. -/
theorem crcByte_eq_ruleFeed {w poly : Nat} (wide : 8 ≤ w) (fits : poly < 2 ^ w) (refin : Bool) (r : Nat) (b : Byte) :
    crcByte w poly refin r b = ruleFeed w poly refin r b := by
  have reflected : (List.range 8).foldl (fun a i => a + (if b.getLsbD i then 2 ^ (7 - i) else 0)) 0 = reflectBits 8 b.toNat := by
    refine List.foldl_ext _ _ _ fun a i _ => ?_
    rw [bitOf_eq_testBit]
    cases set : b.getLsbD i <;> simp_all [BitVec.getLsbD]
  let v := if refin then reflectBits 8 b.toNat else b.toNat
  have low : v < 2 ^ 8 := by
    dsimp only [v]
    split
    · exact reflectBits_lt 8 _
    · exact b.isLt
  have fed : crcByte w poly refin r b = (List.range 8).foldl (fun a i => crcBit w poly a (bitOf v (8 - 1 - i))) r := by
    refine List.foldl_ext _ _ _ fun a i lane => ?_
    have bound := List.mem_range.mp lane
    dsimp only [v]
    rw [bitOf_eq_testBit]
    cases refin with
    | false => rfl
    | true =>
      simp only [if_true, testBit_reflectBits, BitVec.getLsbD]
      rw [show 8 - 1 - (8 - 1 - i) = i by omega, decide_eq_true (by omega), Bool.true_and]
  rw [fed, foldl_crcBit fits v wide, Nat.mod_eq_of_lt low, ruleFeed, reflected]
  rfl

theorem testBit_final (u : CrcSet) (r : Nat) {k : Nat} (inside : k < u.w) :
    (u.final r).testBit k = ((r.testBit (if u.refout then u.w - 1 - k else k)) ^^ u.xorout.testBit k) := by
  unfold CrcSet.final crcFinish
  rw [Nat.testBit_mod_two_pow, Nat.testBit_xor, decide_eq_true inside, Bool.true_and]
  split
  · rw [testBit_reflectBits, decide_eq_true inside, Bool.true_and]
  · rfl

theorem foldl_xor (f : Nat → Nat) (l : List Nat) (r : Nat) :
    l.foldl (fun a i => a ^^^ f i) r = r ^^^ l.foldl (fun a i => a ^^^ f i) 0 := by
  induction l generalizing r with
  | nil => exact (Nat.xor_zero r).symm
  | cons i l ih => rw [List.foldl_cons, List.foldl_cons, ih, ih (0 ^^^ f i), Nat.zero_xor, Nat.xor_assoc]

/-- R462, R463: the rule of the units. -/
theorem checkValueRuleClaim : CheckValueRuleClaim := by
  intro u r width poly xorout start
  have wide : 8 ≤ u.w := by
    simp only [List.mem_cons, List.not_mem_nil, or_false] at width
    omega
  refine ⟨fun b => crcByte_eq_ruleFeed wide poly _ r b, fun b l => rfl, fun v => ?_, fun k inside => ?_, ?_, fun tag _ => ?_⟩
  · simp only [CrcSet.feeds, leBytes, List.foldl_cons, List.foldl_nil, Nat.div_div_eq_div_mul, Nat.reduceMul, Nat.reducePow]
  · simpa only [bitOf_eq_testBit] using testBit_final u r inside
  · exact Nat.mod_lt _ (Nat.two_pow_pos _)
  · exact foldl_xor (fun i => bitsOf tag (u.w * i) u.w) _ r

/-! ### The owner's commands (R463 to R468) -/

/-- The registers of unit u, its owner's apart, stand in a block of their own. -/
theorem crcBlock_key_ne {f : Fld} {u : Nat} (mem : f ∈ crcUnitFields u) {g : Fld} (after : 0xf0001c + 0x200 * u ≤ g.addr)
    (place : g.lsb < 32) : f.key ≠ g.key := by
  obtain ⟨_, high, low⟩ := crcUnitFields_place mem
  exact Fld.key_ne low place (.inl (by omega))

/-- A write past the settings of a unit leaves the settings. -/
theorem Module.crcSet_wr (m : Module) {u : Nat} {g : Fld} (v : Nat) (after : 0xf0001c + 0x200 * u ≤ g.addr) (place : g.lsb < 32) :
    (m.wr g v).crcSet u = m.crcSet u :=
  Module.crcSet_congr fun _ mem => m.rd_wr_other v (crcBlock_key_ne mem after place)

theorem Module.crcSet_settle (m : Module) (u : Nat) : m.settle.crcSet u = m.crcSet u :=
  Module.crcSet_congr fun f _ => m.rd_settle f

theorem Module.crcR_settle (m : Module) (u : Nat) : m.settle.crcR u = m.crcR u := by
  simp only [Module.crcR, Module.rd64, Module.rd_settle, Module.crcSet_settle]

/-- A write to another place leaves the running value. -/
theorem Module.crcR_wr (m : Module) {u : Nat} {g : Fld} (v : Nat) (after : 0xf00024 + 0x200 * u ≤ g.addr) (place : g.lsb < 32) :
    (m.wr g v).crcR u = m.crcR u := by
  have low : (R.CRC_VALUE_LO_R u).key ≠ g.key := Fld.key_ne (by simp [R.CRC_VALUE_LO_R]) place (.inl (by simp only [R.CRC_VALUE_LO_R]; omega))
  have high : (R.CRC_VALUE_HI_R u).key ≠ g.key := Fld.key_ne (by simp [R.CRC_VALUE_HI_R]) place (.inl (by simp only [R.CRC_VALUE_HI_R]; omega))
  rw [Module.crcR, Module.crcR, Module.rd64, Module.rd64, m.rd_wr_other v low, m.rd_wr_other v high,
    Module.crcSet_wr m v (by omega) place]

/-- R462: the width of a unit is 8, 16, 32 or 64. -/
theorem Module.crcSet_width_le {m : Module} {u : Nat} (width : m.rd (R.CRC_CFG_WIDTH u) < 4) : (m.crcSet u).w ≤ 64 := by
  show 8 * 2 ^ m.rd (R.CRC_CFG_WIDTH u) ≤ 64
  have := Nat.pow_le_pow_right (n := 2) (by decide) (Nat.le_of_lt_succ width)
  omega

theorem crcValue_key_ne (u : Nat) : (R.CRC_VALUE_LO_R u).key ≠ (R.CRC_VALUE_HI_R u).key := by
  simp only [Fld.key, R.CRC_VALUE_LO_R, R.CRC_VALUE_HI_R]; omega

/-- The running value as it was set, cut to the width of the unit. -/
theorem Module.crcR_setCrcR {m : Module} (h : SMap.rising m.regs = true) {u : Nat} (width : m.rd (R.CRC_CFG_WIDTH u) < 4) (r : Nat) :
    (m.setCrcR u r).crcR u = r % 2 ^ (m.crcSet u).w ∧ (m.setCrcR u r).crcSet u = m.crcSet u := by
  have settings : (m.setCrcR u r).crcSet u = m.crcSet u := by
    unfold Module.setCrcR Module.wr64
    rw [Module.crcSet_wr _ _ (by simp only [R.CRC_VALUE_HI_R]; omega) (by simp [R.CRC_VALUE_HI_R]),
      Module.crcSet_wr _ _ (by simp only [R.CRC_VALUE_LO_R]; omega) (by simp [R.CRC_VALUE_LO_R])]
  refine ⟨?_, settings⟩
  have fits : r % 2 ^ (m.crcSet u).w < 2 ^ 64 :=
    Nat.lt_of_lt_of_le (Nat.mod_lt _ (Nat.two_pow_pos _)) (Nat.pow_le_pow_right (by decide) (Module.crcSet_width_le width))
  rw [Module.crcR, settings, Module.setCrcR, Module.rd64_wr64 h (crcValue_key_ne u) rfl rfl, Nat.mod_eq_of_lt fits, Nat.mod_mod]

/-- R464: what a function does to a unit that it owns is carried out. -/
theorem Module.crcHost_owner {m : Module} {fn u : Nat} (run : m.mode ≠ .reset) (ready : m.ready 13 = true)
    (owns : m.crcOwns fn u = true) (f : Module) : m.crcHost fn u f = f := by
  simp [Module.crcHost, run, ready, owns]

theorem Module.lowWord_latched {m : Module} {fn lo : Nat} {f : Fld} (latched : m.wlatch.get? (fn * 2 ^ 33 + f.addr) = some lo) :
    m.lowWord fn f = lo := by
  rw [Module.lowWord, SMap.getD, latched]
  rfl

/-- What a comparison shows of the final value v and of the outcome. -/
def compareWrites (u v : Nat) (hit : Bool) : List (Fld × Nat) :=
  [(R.CRC_RESULT_LO_RESULT u, v), (R.CRC_RESULT_HI_RESULT u, v / 2 ^ 32), (R.CRC_STAT_MATCH u, b2n hit)] ++
    if hit then [] else [(R.CRC_STAT_MISMATCH_FLG u, 1)]

theorem compareWrites_place {u v : Nat} {hit : Bool} {x : Fld × Nat} (mem : x ∈ compareWrites u v hit) :
    0xf00044 + 0x200 * u ≤ x.1.addr ∧ x.1.addr < 0xf00050 + 0x200 * u ∧ x.1.lsb < 32 := by
  have fields : x.1 ∈ [R.CRC_RESULT_LO_RESULT u, R.CRC_RESULT_HI_RESULT u, R.CRC_STAT_MATCH u, R.CRC_STAT_MISMATCH_FLG u] := by
    cases hit <;> simp [compareWrites] at mem <;> aesop
  simp only [List.mem_cons, List.not_mem_nil, or_false] at fields
  rcases fields with eq | eq | eq | eq <;> rw [eq] <;>
    simp [R.CRC_RESULT_LO_RESULT, R.CRC_RESULT_HI_RESULT, R.CRC_STAT_MATCH, R.CRC_STAT_MISMATCH_FLG]

theorem compareWrites_apart (u v : Nat) (hit : Bool) : ((compareWrites u v hit).map (·.1.key)).Nodup := by
  cases hit <;>
    simp [compareWrites, Fld.key, R.CRC_RESULT_LO_RESULT, R.CRC_RESULT_HI_RESULT, R.CRC_STAT_MATCH, R.CRC_STAT_MISMATCH_FLG] <;> omega

/-- The module in which a comparison has shown its outcome, and counted a mismatch. -/
def Module.crcCompared (m : Module) (u : Nat) (hit : Bool) : Module :=
  let shown := m.writes (compareWrites u ((m.crcSet u).final (m.crcR u)) hit)
  if hit then shown else shown.bump (R.CRC_MISMATCH_CNT_CNT u)

theorem mismatchCnt_place (u : Nat) : (R.CRC_MISMATCH_CNT_CNT u).addr = 0xf00054 + 0x200 * u ∧ (R.CRC_MISMATCH_CNT_CNT u).lsb = 0 :=
  ⟨rfl, rfl⟩

theorem Module.rd_crcCompared {m : Module} (h : SMap.rising m.regs = true) {u : Nat} (hit : Bool) {f : Fld} {v : Nat}
    (mem : (f, v) ∈ compareWrites u ((m.crcSet u).final (m.crcR u)) hit) : (m.crcCompared u hit).rd f = v % 2 ^ f.width := by
  have shown := Module.rd_writes h (compareWrites_apart ..) (x := (f, v)) mem
  obtain ⟨_, before, place⟩ := compareWrites_place mem
  have count := mismatchCnt_place u
  cases hit with
  | true => exact shown
  | false => exact (Module.rd_bumpBy_other _ _ (Fld.key_ne place (by omega) (.inl (by omega)))).trans shown

/-- A comparison writes nothing before its outcome. -/
theorem Module.rd_crcCompared_before (m : Module) (u : Nat) (hit : Bool) {f : Fld} (before : f.addr < 0xf00044 + 0x200 * u)
    (place : f.lsb < 32) : (m.crcCompared u hit).rd f = m.rd f := by
  have shown := (m.keeps_writes (f := f) (l := compareWrites u ((m.crcSet u).final (m.crcR u)) hit) fun x mem => by
    obtain ⟨after, -, low⟩ := compareWrites_place mem
    exact Fld.key_ne place low (.inl (by omega))).2
  have count := mismatchCnt_place u
  cases hit with
  | true => exact shown
  | false => exact (Module.rd_bumpBy_other _ _ (Fld.key_ne place (by omega) (.inl (by omega)))).trans shown

theorem Module.out_crcCompared (m : Module) (u : Nat) (hit : Bool) : (m.crcCompared u hit).out = m.out := by
  cases hit <;> rfl

theorem Module.crcR_crcCompared (m : Module) (u : Nat) (hit : Bool) : (m.crcCompared u hit).crcR u = m.crcR u := by
  have same {f : Fld} := m.rd_crcCompared_before (f := f) u hit
  rw [Module.crcR, Module.crcR, Module.rd64, Module.rd64, same (by simp only [R.CRC_VALUE_LO_R]; omega) (by simp [R.CRC_VALUE_LO_R]),
    same (by simp only [R.CRC_VALUE_HI_R]; omega) (by simp [R.CRC_VALUE_HI_R]), Module.crcSet_congr fun f mem => by
      obtain ⟨_, high, low⟩ := crcUnitFields_place mem
      exact same (by omega) low]

/-- The two outcomes of COMPARE: the registers show them, and a mismatch interrupts where IRQ_EN says so. -/
theorem mCompare_eq {m : Module} {fn u : Nat} (run : m.mode ≠ .reset) (ready : m.ready 13 = true) (owns : m.crcOwns fn u = true) :
    mCompare fn u m =
      if (m.crcSet u).final (m.crcR u) = m.rd64 (R.CRC_EXPECT_LO_EXPECT u) (R.CRC_EXPECT_HI_EXPECT u) % 2 ^ (m.crcSet u).w then
        m.crcCompared u true
      else if m.isOn (R.CRC_CFG_IRQ_EN u) then (m.crcCompared u false).emit (.msix fn (m.rd (R.CRC_CFG_VECTOR u)))
      else m.crcCompared u false := by
  have same {f : Fld} := m.rd_crcCompared_before (f := f) u false
  have enabled : (m.crcCompared u false).isOn (R.CRC_CFG_IRQ_EN u) = m.isOn (R.CRC_CFG_IRQ_EN u) := by
    rw [Module.isOn, Module.isOn, same (by simp only [R.CRC_CFG_IRQ_EN]; omega) (by simp [R.CRC_CFG_IRQ_EN])]
  rw [mCompare, Module.crcHost_owner run ready owns, ← enabled,
    ← same (f := R.CRC_CFG_VECTOR u) (by simp only [R.CRC_CFG_VECTOR]; omega) (by simp [R.CRC_CFG_VECTOR])]
  rfl

/-- R467: what a comparison leaves in the result, of the running value and of what has left the module. -/
theorem Module.crcCompared_shows {m : Module} (h : SMap.rising m.regs = true) {u : Nat} (width : m.rd (R.CRC_CFG_WIDTH u) < 4)
    (hit : Bool) :
    (m.crcCompared u hit).rd64 (R.CRC_RESULT_LO_RESULT u) (R.CRC_RESULT_HI_RESULT u) = (m.crcSet u).final (m.crcR u) ∧
      (m.crcCompared u hit).rd (R.CRC_STAT_MATCH u) = b2n hit := by
  have small : (m.crcSet u).final (m.crcR u) < 2 ^ 64 :=
    Nat.lt_of_lt_of_le (Nat.mod_lt _ (Nat.two_pow_pos _)) (Nat.pow_le_pow_right (by decide) (Module.crcSet_width_le width))
  have low : (m.crcCompared u hit).rd (R.CRC_RESULT_LO_RESULT u) = (m.crcSet u).final (m.crcR u) % 2 ^ 32 :=
    Module.rd_crcCompared h hit (by simp [compareWrites])
  have high : (m.crcCompared u hit).rd (R.CRC_RESULT_HI_RESULT u) = (m.crcSet u).final (m.crcR u) / 2 ^ 32 % 2 ^ 32 :=
    Module.rd_crcCompared h hit (by simp [compareWrites])
  have shown : (m.crcCompared u hit).rd (R.CRC_STAT_MATCH u) = b2n hit % 2 ^ 1 := Module.rd_crcCompared h hit (by simp [compareWrites])
  refine ⟨by rw [Module.rd64, low, high]; omega, by cases hit <;> exact shown⟩

/-- R463 to R468: the owner's commands, and the hand-over by the PF. -/
theorem unitCommandsClaim : UnitCommandsClaim := by
  refine ⟨fun s fn u run ready owns wf width => ?_, fun s u v run unit wf => ?_⟩
  · have rising := Module.rising_regs_of_wf wf
    have acts (f : Module) := Module.crcHost_owner run ready owns f
    have counted (k : Module) : (k.bump (R.CRC_REQ_CNT_CNT u)).crcR u = k.crcR u ∧ (k.bump (R.CRC_REQ_CNT_CNT u)).crcSet u = k.crcSet u :=
      ⟨k.crcR_wr _ (by simp only [R.CRC_REQ_CNT_CNT]; omega) (by simp [R.CRC_REQ_CNT_CNT]),
        k.crcSet_wr _ (by simp only [R.CRC_REQ_CNT_CNT]; omega) (by simp [R.CRC_REQ_CNT_CNT])⟩
    have set (r : Nat) := Module.crcR_setCrcR rising width r
    refine ⟨?start, fun n v => ?feed, fun hi lo latched => ?tag, fun hi lo latched => ?value, ?compare⟩
    case start =>
      refine completes_of_upd (f := mStart fn u) rfl ?_
      rw [mStart, acts, Module.crcR_settle, (set _).1]
      exact Nat.mod_mod _ _
    case feed =>
      refine completes_of_upd (f := mCrcFeed fn u n v) rfl ?_
      rw [mCrcFeed, acts, Module.crcR_settle, Module.crcSet_settle, (counted _).1, (counted _).2]
      exact set _
    case tag =>
      refine completes_of_upd (f := mCrcTagHiWrite fn u hi) rfl ?_
      rw [mCrcTagHiWrite, acts, Module.crcR_settle, (counted _).1, Module.lowWord_latched latched]
      exact (set _).1
    case value =>
      refine completes_of_upd (f := mCrcValueHiWrite fn u hi) rfl ?_
      rw [mCrcValueHiWrite, acts, Module.crcR_settle, Module.lowWord_latched latched]
      exact (set _).1
    case compare =>
      refine completes_of_upd (f := mCompare fn u) rfl ?_
      have shows (hit : Bool) := Module.crcCompared_shows rising width (u := u) hit
      have flag : (s.m.crcCompared u false).rd (R.CRC_STAT_MISMATCH_FLG u) = 1 % 2 ^ 1 :=
        Module.rd_crcCompared rising false (by simp [compareWrites])
      have kept (hit : Bool) := s.m.crcR_crcCompared u hit
      rw [mCompare_eq run ready owns]
      dsimp only
      rw [Module.crcR_settle, Module.rd64, Module.rd_settle, Module.rd_settle, Module.rd_settle, Module.rd_settle, Module.settle_out]
      by_cases hit : (s.m.crcSet u).final (s.m.crcR u) =
          s.m.rd64 (R.CRC_EXPECT_LO_EXPECT u) (R.CRC_EXPECT_HI_EXPECT u) % 2 ^ (s.m.crcSet u).w
      · rw [if_pos hit, if_pos hit]
        exact ⟨(shows true).1, kept true, (shows true).2, s.m.out_crcCompared u true⟩
      · rw [if_neg hit, if_neg hit]
        rcases on : s.m.isOn (R.CRC_CFG_IRQ_EN u) with _ | _
        · refine ⟨(shows false).1, kept false, (shows false).2, flag, fun enabled => ?_⟩
          simp [Module.isOn, enabled] at on
        · refine ⟨(shows false).1, kept false, (shows false).2, flag, fun _ => ?_⟩
          exact congrArg (· ++ _) (s.m.out_crcCompared u false)
  · have rising := Module.rising_regs_of_wf wf
    refine completes_of_upd (f := mCrcOwnerWrite u v) rfl ?_
    have eq : mCrcOwnerWrite u v s.m = s.m.wr (R.CRC_OWNER_OWNER u) v := by
      simp [mCrcOwnerWrite, run, unit]
    rw [eq, Module.rd_settle, Module.crcR_settle, Module.crcSet_settle]
    exact ⟨Module.rd_wr_same _ rising _ _,
      Module.crcR_wr _ _ (by simp only [R.CRC_OWNER_OWNER]; omega) (by simp [R.CRC_OWNER_OWNER]),
      Module.crcSet_wr _ _ (by simp only [R.CRC_OWNER_OWNER]; omega) (by simp [R.CRC_OWNER_OWNER])⟩

/-- Settles O60: the feed bit by bit, then each command of the owner on the running value; the waiting low word is that of assumption 32. -/
theorem checkUnits : Obligations.CheckUnits := ⟨checkValueRuleClaim, unitCommandsClaim⟩

end Sys2Proof.Machine
end

section
/-!
PROOFS. The scrubber, the repair from the shadow, the error interrupt, an injection and a debug read (R477, R481, R484, R486, R490).
-/

namespace Sys2Proof.Machine
open Sys2Proof.Claims

/-! ### Patrol scrub and time -/

theorem Module.reachMono_out (m : Module) (t : Nat) : (m.reachMono t).out = m.out := m.adv_out _

/-- A codeword that no injection stands in reads as it is. -/
theorem Module.injectedErr_clean {m : Module} (clear : m.err.injected = []) (mem addr : Nat) : m.injectedErr mem addr .clean = .clean := by
  rw [Module.injectedErr, clear]; rfl

/-- R477: a clean codeword before the end of a pass. -/
theorem mScrubVisit_clean {m : Module} {mem k a b : Nat} (memory : mem ≤ 5) (ready : m.ready 15 = true) (run : m.mode ≠ .reset)
    (open_ : m.mode ≠ .flush) (clear : m.err.injected = []) (more : m.err.scrub.getD mem 0 + 1 < codewords mem) :
    ∃ n : Module, n = m.reachMono (m.err.passStart.getD mem m.mono + (m.err.scrub.getD mem 0 + 1) * scrubPeriod mem) ∧
      mScrubVisit mem .clean k a b m =
        { n with err := { n.err with scrub := n.err.scrub.set mem (m.err.scrub.getD mem 0 + 1) } }.wr (R.MEM_SCRUB1_PROGRESS mem)
          ((m.err.scrub.getD mem 0 + 1) * 100 / codewords mem) := by
  refine ⟨_, rfl, ?_⟩
  have goes : ¬ (5 < mem ∨ (!m.ready 15) = true ∨ m.mode = .reset ∨ m.mode = .flush) := by
    simp [ready, run, open_, memory]
  have read (t addr : Nat) : (m.reachMono t).injectedErr mem addr .clean = .clean :=
    Module.injectedErr_clean ((congrArg ErrSt.injected (m.adv_err _)).trans clear) ..
  simp only [mScrubVisit, if_neg goes, read, ite_self, if_pos more]

/-! ### Debug reads -/

theorem Module.localByte_code {m : Module} {e x : Nat} (code : x < 1024 * m.cul.codeKib) :
    m.localByte e x = some (m.cul.code.getD x 0) := by
  rw [Module.localByte, if_pos code]

/-- R490: a read of the code partition of an engine. -/
theorem rdata_mDebugRead_code {m : Module} {e x : Nat} (test : m.mode = .test) (engine : e < 32) (word : x % 4 = 0)
    (code : x + 4 ≤ 1024 * m.cul.codeKib) (place : x < 0x80000) :
    (mDebugRead (0x2000000 + 0x80000 * e + x) .clean m).rdata =
      BitVec.ofNat 32 (ofLe ((List.range 4).map fun k => m.cul.code.getD (x + k) 0)) := by
  have window : ¬ (m.mode ≠ .test ∨ 0x2000000 + 0x80000 * e + x < 0x2000000 ∨ 0x4000000 ≤ 0x2000000 + 0x80000 * e + x) := by
    simp only [test, ne_eq, not_true_eq_false, false_or]; omega
  have low : 0x2000000 + 0x80000 * e + x < 0x3000000 := by omega
  rw [mDebugRead, if_neg window]
  simp only [if_pos low, if_true]
  refine congrArg (fun l => BitVec.ofNat 32 (ofLe l)) (List.map_congr_left fun k mem => ?_)
  have small := List.mem_range.mp mem
  have offset : (0x2000000 + 0x80000 * e + x) / 4 * 4 - 0x2000000 + k = 0x80000 * e + (x + k) := by omega
  rw [offset, show (0x80000 * e + (x + k)) / 0x80000 = e by omega, show (0x80000 * e + (x + k)) % 0x80000 = x + k by omega]
  exact congrArg (fun o : Option Byte => o.getD _) (Module.localByte_code (m := { m with freeIdx := m.freeIdx + 1 })
    (show x + k < 1024 * m.cul.codeKib by omega))

/-! ### The obligation -/

/-- Settles O36: each command runs its one enabled branch; assumptions 90 (the interrupt's window), 91 (what a codeword holds), 92
(the code partition) and 6 (time runs on to an instant) stand behind it. -/
theorem errorTree : Obligations.ErrorTree := by
  refine ⟨fun s mem k a b memory ready run opened clear more still wf => ?_, fun s kind i word gone run sound => ?_, fun s due still => ?_,
    fun s addr test armed memory wf => ?_, fun s e x test engine word code place => ?_⟩
  · obtain ⟨n, reached, eq⟩ := mScrubVisit_clean (k := k) (a := a) (b := b) memory ready run opened clear more
    have rising : SMap.rising n.regs = true := by
      rw [reached, Module.reachMono_regs]; exact Module.rising_regs_of_wf wf
    have percent : (s.m.err.scrub.getD mem 0 + 1) * 100 / codewords mem < 2 ^ 7 :=
      Nat.div_lt_of_lt_mul (by omega)
    refine completes_of_upd (f := mScrubVisit mem .clean k a b) rfl ?_
    rw [eq, Module.rd_settle]
    refine ⟨SMap.getD_set_same .., (Module.rd_wr_same _ rising _ _).trans (Nat.mod_eq_of_lt percent), ?_⟩
    exact (congrArg Module.mono reached).trans (Module.mono_reachMono still _)
  · refine completes_of_upd (f := mShadowRepair kind i word) rfl ?_
    have goes : ¬ ((!s.m.gone kind i) = true ∨ s.m.mode = .reset) := by simp [gone, run]
    have eq : mShadowRepair kind i word s.m =
        { s.m with err := { s.m.err with absent := s.m.err.absent.filter fun x => x != (kind, i) } } := by
      rw [mShadowRepair, if_neg goes, sound]; rfl
    rw [eq]
    refine ⟨?_, fun k j other => ?_⟩
    · simp [Module.gone]
    · simp [Module.gone, other]
  · refine completes_of_upd (f := mErrorInterrupt) rfl ?_
    rcases last : s.m.err.lastIrq with _ | t
    · simp [mErrorInterrupt, due, last, Module.emit]
    · simp [mErrorInterrupt, due, last, Module.emit, Module.mono_reachMono still, Module.rd, Module.reachMono_regs, Module.reachMono_out]
  · refine completes_of_upd (f := mInjectionTaken addr) rfl ?_
    have rising := Module.rising_regs_of_wf wf
    have goes : ¬ (s.m.mode ≠ .test ∨ (!s.m.isOn R.ERR_INJECT_ARM) = true ∨ 4 < s.m.rd R.ERR_INJECT_MEM) := by
      simp [test, Module.isOn, armed, memory]
    rw [mInjectionTaken, if_neg goes, Module.rd_settle, Module.rd_settle]
    refine ⟨rfl, ?_, Module.rd_wr_same _ (Module.rising_wr rising _ _) _ _⟩
    exact (Module.rd_wr_other _ _ (by decide)).trans (Module.rd_wr_same _ rising _ _)
  · exact completes_of_upd (f := mDebugRead _ .clean) rfl (rdata_mDebugRead_code test engine word code place)

end Sys2Proof.Machine
end

section
/-!
PROOFS. The event recorder and the Cave (R378 to R380, R386, R388).
-/

namespace Sys2Proof.Machine
open Sys2Proof.Claims

/-! ### The log region -/

/-- Making room moves HEAD alone. -/
theorem Evr.makeRoom_eq (k n : Nat) (e : Evr) : ∃ h f, e.makeRoom k n = { e with head := h, full := f } := by
  induction k generalizing e with
  | zero => exact ⟨_, _, rfl⟩
  | succ k ih =>
    rw [Evr.makeRoom]
    split
    · obtain ⟨h, f, eq⟩ := ih e.advanceHead
      exact ⟨h, f, eq⟩
    · exact ⟨_, _, rfl⟩

/-- R386: what a put leaves but for HEAD, WRAPS and whether the region is full. -/
theorem Evr.put_eq (e : Evr) (b : Bytes) : ∃ h w f, e.put b =
    { e with cave := memPut e.cave e.tail b, tail := if logEnd ≤ e.tail + b.length then logStart else e.tail + b.length
             head := h, wraps := w, full := f } := by
  obtain ⟨h, f, eq⟩ := e.makeRoom_eq 64 b.length
  rw [Evr.put, eq]
  exact ⟨_, _, _, rfl⟩

theorem Evr.length_header (e : Evr) (n : Nat) : (e.header n).length = 64 := by
  simp [Evr.header, length_leBytes]

/-- R385: a header copy is rewritten, and both stand ahead of the log region. -/
theorem Evr.writeHeader_eq (e : Evr) : ∃ off n, off + 64 ≤ logStart ∧
    e.writeHeader = { e with cave := memPut e.cave off (e.header n), count := n } := by
  unfold Evr.writeHeader
  generalize (headerCount e.cave 0).getD 0 = c0
  generalize (headerCount e.cave 0x800).getD 0 = c1
  by_cases first : c0 ≤ c1
  · simp only [if_pos first]
    exact ⟨_, _, by decide, rfl⟩
  · simp only [if_neg first]
    exact ⟨_, _, by decide, rfl⟩

theorem Evr.queue_writeHeader (e : Evr) : e.writeHeader.queue = e.queue := by
  obtain ⟨off, n, -, eq⟩ := e.writeHeader_eq
  rw [eq]

theorem Evr.buf_writeHeader (e : Evr) : e.writeHeader.buf = e.buf := by
  obtain ⟨off, n, -, eq⟩ := e.writeHeader_eq
  rw [eq]

/-- R386: a record that fits before the end stands at TAIL, which moves past it. -/
theorem Evr.writeLog_fits {e : Evr} {b : Bytes} (sound : SMap.memWf e.cave = true) (log : logStart ≤ e.tail)
    (fits : e.tail + b.length ≤ logEnd) :
    (e.writeLog b).writeHeader.queue = e.queue ∧ (e.writeLog b).writeHeader.lost = e.lost ∧
      (∀ k < b.length, (e.writeLog b).writeHeader.cave.getD (e.tail + k) 0 = b.getD k 0) ∧
      (e.writeLog b).writeHeader.tail = if e.tail + b.length = logEnd then logStart else e.tail + b.length := by
  obtain ⟨h, w, f, eq⟩ := e.put_eq b
  have stays : ¬ e.tail + b.length > logEnd := Nat.not_lt.mpr fits
  have written : e.writeLog b = e.put b := by rw [Evr.writeLog, if_neg stays]
  obtain ⟨off, n, ahead, header⟩ := (e.writeLog b).writeHeader_eq
  have rising {l : SMap Byte} (canonical : SMap.memWf l = true) : SMap.rising l = true := (Bool.and_eq_true_iff.mp canonical).1
  rw [header, written, eq]
  refine ⟨rfl, rfl, fun k small => ?_, ?_⟩
  · dsimp only
    rw [getD_memPut (rising (SMap.memWf_memPut sound _ _)), Evr.length_header, if_neg (by omega), getD_memPut (rising sound),
      if_pos ⟨by omega, by omega⟩, Nat.add_sub_cancel_left]
  · dsimp only
    by_cases last : e.tail + b.length = logEnd
    · rw [if_pos last, if_pos (by omega)]
    · rw [if_neg last, if_neg (by omega)]

/-! ### The writer -/

theorem Module.evr_enqueueLost {m : Module} (none : m.evr.lost = 0) : m.enqueueLost.evr = m.evr := by
  rw [Module.enqueueLost, if_pos (.inl none)]

theorem Module.evr_wr (m : Module) (f : Fld) (v : Nat) : (m.wr f v).evr = m.evr := rfl
theorem Module.evr_bump (m : Module) (f : Fld) : (m.bump f).evr = m.evr := rfl

/-- The recorder stands as a write leaves it where no event waits to be named lost. -/
theorem Module.evr_written (m : Module) (e : Evr) (none : e.lost = 0) :
    ((({ m with evr := e } : Module).bump (R.EVR_CNT_CNT 1)).enqueueLost).evr = e := by
  rw [Module.evr_enqueueLost none, Module.evr_bump]

/-- R379: the writer takes the oldest entry to the log region. -/
theorem Module.evr_writeOne_log {m : Module} {r : EvRec} {q : List EvRec} (queue : m.evr.queue = r :: q) (native : m.evr.layout ≠ 1)
    {e : Evr} (written : (Evr.writeLog { m.evr with queue := q } r.native).writeHeader = e) (none : e.lost = 0) :
    m.writeOne.evr = e := by
  rw [Module.writeOne, queue]
  simp only [if_neg native, written]
  exact m.evr_written e none

/-- R378: in the ZT2200 layout the writer takes the oldest entry to the buffer. -/
theorem Module.evr_writeOne_buffer {m : Module} {r : EvRec} {q : List EvRec} (queue : m.evr.queue = r :: q) (zt : m.evr.layout = 1)
    (room : m.evr.buf.length < 1024) (none : m.evr.lost = 0) :
    m.writeOne.evr = { m.evr with queue := q, buf := m.evr.buf ++ [r.zt] } := by
  rw [Module.writeOne, queue]
  simp only [if_pos zt, if_neg (Nat.not_le.mpr room)]
  exact m.evr_written _ none

/-- R378: a move of a buffer that holds records leaves it empty, and counts. -/
theorem Module.moveBuffer_eq {m : Module} (filled : m.evr.buf ≠ []) :
    ∃ e : Evr, e.buf = [] ∧ m.moveBuffer = ({ m with evr := e } : Module).bump (R.EVR_CNT_CNT 4) := by
  refine ⟨_, Evr.buf_writeHeader { m.evr.buf.foldl (fun e b => e.writeLog b) m.evr with buf := [] }, ?_⟩
  rw [Module.moveBuffer, if_neg filled]

theorem Module.buf_moveBuffer (m : Module) : m.moveBuffer.evr.buf = [] := by
  by_cases filled : m.evr.buf = []
  · rw [Module.moveBuffer, if_pos filled, filled]
  · obtain ⟨e, empty, eq⟩ := Module.moveBuffer_eq filled
    rw [eq]
    exact empty

theorem Module.rising_moveBuffer {m : Module} (h : SMap.rising m.regs = true) : SMap.rising m.moveBuffer.regs = true := by
  by_cases filled : m.evr.buf = []
  · rw [Module.moveBuffer, if_pos filled]
    exact h
  · obtain ⟨e, empty, eq⟩ := Module.moveBuffer_eq filled
    rw [eq]
    exact Module.rising_wr (m := { m with evr := e }) h _ _

/-! ### Commands -/

theorem Module.rd_evrResult {m : Module} (h : SMap.rising m.regs = true) (r : Nat) :
    (m.evrResult r).rd R.EVR_CMD_STAT_RESULT = r % 8 ∧ (m.evrResult r).rd R.EVR_CMD_STAT_DONE_FLG = 1 :=
  ⟨(Module.rd_wr_other _ _ (by decide)).trans (Module.rd_wr_same _ h _ _), Module.rd_wr_same _ (Module.rising_wr h _ _) _ _⟩

theorem Module.evrCmd_ready {m : Module} (run : m.mode ≠ .reset) (ready : m.ready 9 = true) (f : Module → Module) :
    m.evrCmd f = f m := by
  rw [Module.evrCmd, if_neg run, if_pos ready]

theorem Module.evrCmd_early {m : Module} (run : m.mode ≠ .reset) (early : m.ready 9 = false) (f : Module → Module) :
    m.evrCmd f = m.evrResult 3 := by
  rw [Module.evrCmd, if_neg run, early]
  rfl

/-- R383: no command is taken before the recorder is usable. -/
theorem completes_evrCmd_early {s : State} {i : Instr} {f : Module → Module} (runs : exec i s = s.upd fun m => m.evrCmd f)
    (run : s.m.mode ≠ .reset) (early : s.m.ready 9 = false) (wf : s.wf = true) :
    completes i s fun m => m.rd R.EVR_CMD_STAT_RESULT = 3 ∧ m.evr = s.m.evr := by
  have kept : s.m.settle.evr = s.m.evr := congrArg Module.evr (Module.settle_eq wf)
  refine completes_of_upd runs ?_
  rw [Module.evrCmd_early run early, Module.rd_settle]
  exact ⟨(Module.rd_evrResult (Module.rising_regs_of_wf wf) 3).1, kept⟩

/-- R388: the word that the Cave's data register shows. -/
theorem Module.word_caveData {m : Module} (run : m.mode ≠ .reset) :
    m.word 0xb00044 = ofLe (memBytes m.evr.cave (m.rd R.EVR_CAVE_ADDR_ADDR / 4 * 4) 4) % 2 ^ 32 := by
  have found : findReg 0xb00044 = some ⟨0xb00044, [], [⟨0, 32, .ro, 0, false⟩]⟩ := by decide
  rw [Module.word, if_neg fun h => run h.1, found]
  simp only [List.foldl_cons, List.foldl_nil, Nat.zero_add, Nat.pow_zero, Nat.mul_one]
  rfl

/-- R380: the automatic thaw's event leaves the freeze as the thaw left it. -/
theorem Module.frozen_takeEvent (m : Module) (s c i t d x : Nat) : (m.takeEvent s c i t d x).evr.frozen = m.evr.frozen := by
  have ite {P : Prop} [Decidable P] {a b : Module} (h : a.evr.frozen = m.evr.frozen) (k : b.evr.frozen = m.evr.frozen) :
      (if P then a else b).evr.frozen = m.evr.frozen := by
    split <;> assumption
  have lost : (m.bump (R.EVR_CNT_CNT 0)).enqueueLost.evr.frozen = m.evr.frozen := by
    unfold Module.enqueueLost
    exact ite rfl rfl
  unfold Module.takeEvent
  exact ite rfl (ite rfl (ite lost lost))

theorem Module.mono_of_events {m n : Module} (h : m.ExceptEvents n) : n.mono = m.mono := by
  obtain ⟨_, _, rfl⟩ := h
  rfl

/-! ### The obligation -/

/-- Settles O31: each command on the recorder's own record; where TAIL stands at the end of the log is assumption 89, the time of the
automatic thaw assumption 6. -/
theorem recorder : Obligations.Recorder := by
  intro s run wf
  have rising := Module.rising_regs_of_wf wf
  have kept : s.m.settle.evr = s.m.evr := congrArg Module.evr (Module.settle_eq wf)
  have cave : SMap.memWf s.m.evr.cave = true := (Bool.and_eq_true_iff.mp wf).2
  refine ⟨fun r q thawed ready queue none => ?_, fun zt thawed many => ?_, fun ready thawed open_ => ?_, fun ready => ?_, fun ready => ?_,
    fun early c mem => ?_, fun frozen still => ?_, ?_⟩
  · have writes : mRecordWrite s.m = s.m.writeOne := by
      simp [mRecordWrite, run, thawed, ready]
    refine ⟨fun native log fits => ?_, fun zt room => ?_⟩
    · obtain ⟨took, lost, bytes, tail⟩ := Evr.writeLog_fits (e := { s.m.evr with queue := q }) cave log fits
      have eq := Module.evr_writeOne_log queue native rfl (lost.trans none)
      refine completes_of_upd (f := mRecordWrite) rfl ?_
      rw [writes]
      refine ⟨(congrArg Evr.queue eq).trans took, fun k small => ?_, (congrArg Evr.tail eq).trans tail⟩
      refine (SMap.getD_tidyMem _ _).trans ?_
      rw [eq]
      exact bytes k small
    · have eq := Module.evr_writeOne_buffer queue zt room none
      refine completes_of_upd (f := mRecordWrite) rfl ?_
      rw [writes]
      refine ⟨congrArg Evr.queue eq, congrArg Evr.buf eq, ?_⟩
      exact (congrArg (fun e : Evr => SMap.tidyMem e.cave) eq).trans (SMap.tidyMem_eq cave)
  · refine completes_of_upd (f := mBufferMove) rfl ?_
    have moves : mBufferMove s.m = s.m.moveBuffer := if_pos ⟨zt, by simp [thawed], many⟩
    rw [moves]
    exact s.m.buf_moveBuffer
  · refine completes_of_upd (f := mFreeze) rfl ?_
    rw [mFreeze, Module.evrCmd_ready run ready, if_neg (by simp [thawed, open_]), Module.rd_settle, Module.rd_settle]
    exact ⟨rfl, rfl, Module.rd_evrResult (Module.rising_wr rising _ _) 1⟩
  · refine completes_of_upd (f := mThaw) rfl ?_
    rw [mThaw, Module.evrCmd_ready run ready, Module.rd_settle]
    exact ⟨rfl, (Module.rd_evrResult rising 1).1⟩
  · refine completes_of_upd (f := mEvrFlush) rfl ?_
    rw [mEvrFlush, Module.evrCmd_ready run ready, Module.rd_settle]
    refine ⟨(Module.rd_evrResult ?_ 1).1, fun zt thawed => ?_⟩
    · split
      · exact Module.rising_moveBuffer rising
      · exact rising
    · rw [if_pos ⟨zt, by simp [thawed]⟩]
      exact s.m.buf_moveBuffer
  · simp only [List.mem_cons, List.not_mem_nil, or_false] at mem
    obtain rfl | rfl | rfl := mem <;> exact completes_evrCmd_early rfl run early wf
  · refine completes_of_upd (f := mAutomaticThaw) rfl ?_
    rw [mAutomaticThaw, if_pos frozen]
    refine ⟨Module.frozen_takeEvent .., ?_⟩
    refine (Module.mono_of_events (Module.events_raise' ..)).trans ?_
    exact Module.mono_reachMono still _
  · refine completes_of_upd (f := mCaveDataRead) rfl ?_
    rw [mCaveDataRead, Module.rd_settle, Module.word_caveData run]
    refine ⟨?_, Module.rd_wr_same _ rising _ _, kept⟩
    exact BitVec.eq_of_toNat_eq (by simp)

end Sys2Proof.Machine
end

section
/-!
PROOFS. Host violations and isolation (R18, R341, R342), the set-up of queues, shares and translation (R325, R333 to R335).
-/

namespace Sys2Proof.Machine
open Sys2Proof.Claims

/-! ### Fields and lists -/

/-- A value other than the reset value is listed, whatever the store holds. -/
theorem Module.rd_wr_listed (m : Module) (f : Fld) {v : Nat} (listed : v % 2 ^ f.width ≠ f.dflt) : (m.wr f v).rd f = v % 2 ^ f.width := by
  rw [Module.rd, Module.wr, SMap.getD]
  simp only [if_neg listed, SMap.get?_set_same, Option.getD_some]

theorem Module.host_of_events {m n : Module} (h : m.ExceptEvents n) : n.host = m.host := by
  obtain ⟨_, _, rfl⟩ := h
  rfl

theorem Module.cul_of_events {m n : Module} (h : m.ExceptEvents n) : n.cul = m.cul := by
  obtain ⟨_, _, rfl⟩ := h
  rfl

/-! ### Isolation (R342) -/

/-- A field that isolating instances leaves alone: none of the export loads, of the host counters or of the isolation bits. -/
def Fld.besideIsolation (f : Fld) : Prop :=
  0x1000000 ≤ f.addr ∧ f.lsb < 32 ∧ (f.addr < 0x1000004 ∨ 0x1000010 ≤ f.addr) ∧ (f.addr < 0x1002000 ∨ 0x1010000 ≤ f.addr) ∧
    (f.addr < 0x1010000 ∨ f.addr % 0x20 ≠ 0x18)

/-- Showing the load of the curd rings leaves such a field alone. -/
theorem Module.keeps_exportShown_beside (m : Module) {f : Fld} (beside : f.besideIsolation) : m.Keeps f m.exportShown := by
  obtain ⟨above, place, status, -, inst⟩ := beside
  have wr (k : Module) {g : Fld} (v : Nat) (own : 0x1000004 ≤ g.addr ∧ g.addr < 0x1000010) (lsb : g.lsb < 32) :
      k.Keeps f (k.wr g v) := k.keeps_wr v (Fld.key_ne place lsb (by omega))
  have rings : m.Keeps f m.showExports :=
    .foldl (fun k i _ => k.keeps_wr _ (Fld.key_ne place (by simp [R.INS_INST_USE_EXPORT_MBPS])
      (.inl (by simp only [R.INS_INST_USE_EXPORT_MBPS]; omega)))) m
  have shown (load short : Nat) :
      m.Keeps f ((m.showExports.wr R.INS_EXPORT_LOAD_MBPS load).wr R.INS_STATUS_CAP_SHORT short) :=
    (rings.trans (wr _ _ (by decide) (by decide))).trans (wr _ _ (by decide) (by decide))
  obtain ⟨load, short, eq | eq⟩ := m.exportShown_eq <;> rw [eq]
  · exact shown load short
  · exact ((shown load short).trans (wr _ _ (by decide) (by decide))).trans (Module.keeps_raiseIf _ above place ..)

/-- Disabling an instance's queues shows the load of the curd rings; of the host's state it changes what the queues hold alone. -/
theorem Module.queuesOff_shown (m : Module) (i cause : Nat) (clear : Bool) :
    ∃ n : Module, m.queuesOff i cause clear = n.exportShown ∧ n.regs = m.regs ∧ n.host.viol = m.host.viol := by
  let f (k : Module) (q : Nat) : Module := k.setHq i q ((if clear then HQueue.init else k.hq i q).off cause)
  have regs : (queueCodes.foldl f m).regs = m.regs := foldl_keeps Module.regs (f := f) (fun _ _ _ => rfl) m
  have viol : (queueCodes.foldl f m).host.viol = m.host.viol := foldl_keeps (fun k : Module => k.host.viol) (f := f) (fun _ _ _ => rfl) m
  refine ⟨{ queueCodes.foldl f m with host := { (queueCodes.foldl f m).host with
    cmds := (queueCodes.foldl f m).host.cmds.erase i, bufs := (queueCodes.foldl f m).host.bufs.erase i } }, ?_, regs, viol⟩
  unfold Module.queuesOff
  rfl

theorem Module.keeps_queuesOff (m : Module) (i cause : Nat) (clear : Bool) {f : Fld} (beside : f.besideIsolation) :
    m.Keeps f (m.queuesOff i cause clear) := by
  obtain ⟨n, shown, regs, -⟩ := m.queuesOff_shown i cause clear
  rw [shown]
  exact (Module.Keeps.same regs).trans (n.keeps_exportShown_beside beside)

theorem Module.viol_queuesOff (m : Module) (i cause : Nat) (clear : Bool) : (m.queuesOff i cause clear).host.viol = m.host.viol := by
  obtain ⟨n, shown, -, viol⟩ := m.queuesOff_shown i cause clear
  rw [shown, Module.host_exportShown, viol]

/-- What isolating an instance leaves alone once its bit stands. -/
theorem Module.keeps_isolation (m : Module) (i : Nat) {f : Fld} (beside : f.besideIsolation) :
    m.Keeps f (((m.queuesOff i 5 false).insCnt 11).raiseIf R.INS_CTRL_LOG_EN 15 2 0 i 0xFFFF i) := by
  have kept := m.keeps_queuesOff i 5 false beside
  obtain ⟨above, place, -, count, -⟩ := beside
  have counted : (m.queuesOff i 5 false).Keeps f ((m.queuesOff i 5 false).insCnt 11) :=
    Module.keeps_wr _ _ (Fld.key_ne place (by decide) (.inl (by simp only [R.INS_CNT_CNT]; omega)))
  exact (kept.trans counted).trans (Module.keeps_raiseIf _ above place ..)

theorem besideIsolation_isolated (i : Nat) : (R.INS_INST_STAT_ISOLATED i).besideIsolation := by
  simp only [Fld.besideIsolation, R.INS_INST_STAT_ISOLATED]; omega

theorem besideIsolation_fnIsolated {fn : Nat} (few : fn < 256) : (R.INS_FN_VIOL_ISOLATED fn).besideIsolation := by
  simp only [Fld.besideIsolation, R.INS_FN_VIOL_ISOLATED]; omega

theorem besideIsolation_fnCount {fn : Nat} (few : fn < 256) : (R.INS_FN_VIOL_WIN_CNT fn).besideIsolation := by
  simp only [Fld.besideIsolation, R.INS_FN_VIOL_WIN_CNT]; omega

theorem Module.keeps_isolate (m : Module) (i : Nat) {f : Fld} (beside : f.besideIsolation) (apart : f.key ≠ (R.INS_INST_STAT_ISOLATED i).key) :
    m.Keeps f (m.isolate i) := by
  unfold Module.isolate
  exact .ite (.refl f m) ((m.keeps_wr 1 apart).trans (Module.keeps_isolation _ i beside))

theorem Module.viol_isolate (m : Module) (i : Nat) : (m.isolate i).host.viol = m.host.viol := by
  unfold Module.isolate
  split
  · rfl
  · rw [Module.host_of_events (Module.events_raiseIf ..)]
    exact (m.flag (R.INS_INST_STAT_ISOLATED i)).viol_queuesOff i 5 false

theorem Module.isolated_isolate_same (m : Module) (i : Nat) : (m.isolate i).isolated i = true := by
  unfold Module.isolate
  by_cases already : m.isolated i = true
  · rw [if_pos already, already]
  · rw [if_neg already, Module.isolated, Module.isOn, (Module.keeps_isolation _ i (besideIsolation_isolated i)).2, Module.flag,
      Module.rd_wr_listed _ _ (by simp [R.INS_INST_STAT_ISOLATED])]
    rfl

theorem Module.isolated_isolate {m : Module} {i : Nat} (isolated : m.isolated i = true) (j : Nat) : (m.isolate j).isolated i = true := by
  by_cases same : i = j
  · rw [same, Module.isolated_isolate_same]
  · have apart : (R.INS_INST_STAT_ISOLATED i).key ≠ (R.INS_INST_STAT_ISOLATED j).key :=
      Fld.key_ne (by simp [R.INS_INST_STAT_ISOLATED]) (by simp [R.INS_INST_STAT_ISOLATED])
        (.inl (by simp only [R.INS_INST_STAT_ISOLATED]; omega))
    rw [Module.isolated, (m.keeps_isolate j (besideIsolation_isolated i) apart).isOn]
    exact isolated

/-! ### Violations (R341) -/

/-- A violation as it is counted, charged to a function and logged. -/
def Module.charge (m : Module) (cause fn : Nat) : Module :=
  ((m.insCnt 9).setViol (0x1000 + fn) (m.violIn (0x1000 + fn) ++ [m.mono])).raiseIf R.INS_CTRL_LOG_EN 15 1 cause 0xFFFF 0xFFFF (0x1000 + fn)

/-- What a violation charged to a function does beside: a VF's instances are isolated at the limit. -/
theorem Module.violation_fn (m : Module) (cause fn : Nat) : m.violation cause fn none =
    if ((m.charge cause fn).rd R.INS_CTRL_VIOL_LIMIT != 0 &&
        decide ((m.charge cause fn).rd R.INS_CTRL_VIOL_LIMIT ≤ (m.violIn (0x1000 + fn) ++ [m.mono]).length)) && fn != 0 then
      ((m.charge cause fn).instances.filter ((m.charge cause fn).owns fn)).foldl Module.isolate
        ((m.charge cause fn).flag (R.INS_FN_VIOL_ISOLATED fn))
    else m.charge cause fn := rfl

/-- The violations that a function is charged with, and their number. -/
theorem Module.setViol_fn (m : Module) (fn : Nat) (l : List Nat) : m.setViol (0x1000 + fn) l =
    ({ m with host := { m.host with viol := if l = [] then m.host.viol.erase (0x1000 + fn) else m.host.viol.set (0x1000 + fn) l } } :
      Module).wr (R.INS_FN_VIOL_WIN_CNT fn) (min 65535 l.length) := by
  rw [Module.setViol, if_neg (show ¬ 0x1000 + fn < 0x1000 by omega), Nat.add_sub_cancel_left]

theorem Module.host_charge (m : Module) (cause fn : Nat) : (m.charge cause fn).host =
    { m.host with viol := m.host.viol.set (0x1000 + fn) (m.violIn (0x1000 + fn) ++ [m.mono]) } := by
  rw [Module.charge, Module.host_of_events (Module.events_raiseIf ..), Module.setViol_fn,
    if_neg (show m.violIn (0x1000 + fn) ++ [m.mono] ≠ [] by simp)]
  rfl

theorem Module.cul_charge (m : Module) (cause fn : Nat) : (m.charge cause fn).cul = m.cul := by
  rw [Module.charge, Module.cul_of_events (Module.events_raiseIf ..), Module.setViol_fn]
  rfl

/-- A charge writes its counter and its number, and the recorder's block. -/
theorem Module.keeps_charge (m : Module) (cause : Nat) {fn : Nat} {f : Fld} (above : 0x1000000 ≤ f.addr) (place : f.lsb < 32)
    (count : f.addr ≠ 0x1002024) (number : f.addr ≠ 0x1001000 + 0x4 * fn) : m.Keeps f (m.charge cause fn) := by
  have counted : m.Keeps f (m.insCnt 9) := m.keeps_wr _ (Fld.key_ne place (by decide) (.inl (by simpa [R.INS_CNT_CNT] using count)))
  unfold Module.charge
  rw [Module.setViol_fn]
  refine (counted.trans ?_).trans (Module.keeps_raiseIf _ above place ..)
  refine Module.Keeps.trans (.same rfl) (Module.keeps_wr _ _ (Fld.key_ne place ?_ (.inl ?_)))
  · simp [R.INS_FN_VIOL_WIN_CNT]
  · exact number

theorem Module.rd_number {m : Module} (h : SMap.rising m.regs = true) (fn n : Nat) :
    (m.wr (R.INS_FN_VIOL_WIN_CNT fn) (min 65535 n)).rd (R.INS_FN_VIOL_WIN_CNT fn) = min 65535 n := by
  have small : min 65535 n < 2 ^ 16 := by omega
  exact (Module.rd_wr_same _ h _ _).trans (Nat.mod_eq_of_lt small)

theorem Module.rd_charge_number {m : Module} (h : SMap.rising m.regs = true) (cause : Nat) {fn : Nat} (few : fn < 256) :
    (m.charge cause fn).rd (R.INS_FN_VIOL_WIN_CNT fn) = min 65535 ((m.violIn (0x1000 + fn)).length + 1) := by
  obtain ⟨above, place, -⟩ := besideIsolation_fnCount few
  rw [Module.charge, (Module.keeps_raiseIf _ above place ..).2, Module.setViol_fn, List.length_append, List.length_singleton]
  exact Module.rd_number (Module.rising_wr h _ _) ..

/-- The limit stands while a violation is charged. -/
theorem Module.rd_charge_limit (m : Module) (cause fn : Nat) :
    (m.charge cause fn).rd R.INS_CTRL_VIOL_LIMIT = m.rd R.INS_CTRL_VIOL_LIMIT :=
  (m.keeps_charge cause (by decide) (by decide) (by decide) (by simp only [R.INS_CTRL_VIOL_LIMIT]; omega)).2

/-- Which instances there are and whose they are stands while a violation is charged. -/
theorem Module.rd_charge_inst (m : Module) (cause : Nat) {fn : Nat} (few : fn < 256) {f : Fld} (inst : 0x1010000 ≤ f.addr) (place : f.lsb < 32) :
    (m.charge cause fn).rd f = m.rd f :=
  (m.keeps_charge cause (by omega) place (by omega) (by omega)).2

theorem Module.instances_charge (m : Module) (cause : Nat) {fn : Nat} (few : fn < 256) :
    (m.charge cause fn).instances.filter ((m.charge cause fn).owns fn) = m.instances.filter (m.owns fn) := by
  have state (j : Nat) : (m.charge cause fn).instAdmitted j = m.instAdmitted j := by
    rw [Module.instAdmitted, Module.instAdmitted, m.rd_charge_inst cause few
      (by simp only [R.INS_INST_STAT_STATE]; omega) (by simp [R.INS_INST_STAT_STATE])]
  have owner (j : Nat) : (m.charge cause fn).owner j = m.owner j :=
    m.rd_charge_inst cause few (by simp only [R.INS_INST_STAT_OWNER]; omega) (by simp [R.INS_INST_STAT_OWNER])
  have owns (j : Nat) : (m.charge cause fn).owns fn j = m.owns fn j := by rw [Module.owns, Module.owns, state, owner]
  rw [Module.instances, Module.instances, funext state, funext owns, Module.cul_charge]

/-- A fold that isolates instances. -/
def Module.isolateAll (m : Module) (l : List Nat) : Module := l.foldl Module.isolate m

theorem Module.viol_isolateAll (m : Module) (l : List Nat) : (m.isolateAll l).host.viol = m.host.viol :=
  foldl_keeps (fun n : Module => n.host.viol) (fun n i _ => n.viol_isolate i) m

theorem Module.rd_isolateAll (m : Module) (l : List Nat) {f : Fld} (beside : f.besideIsolation) (low : f.addr < 0x1010000) :
    (m.isolateAll l).rd f = m.rd f := by
  refine foldl_keeps (fun n : Module => n.rd f) (fun n i _ => (n.keeps_isolate i beside ?_).2) m
  exact Fld.key_ne beside.2.1 (by simp [R.INS_INST_STAT_ISOLATED]) (.inl (by simp only [R.INS_INST_STAT_ISOLATED]; omega))

theorem Module.isolated_isolateAll (m : Module) {l : List Nat} {i : Nat} (mem : i ∈ l) : (m.isolateAll l).isolated i = true :=
  foldl_reaches (p := fun k : Module => k.isolated i = true) mem (fun b => b.isolated_isolate_same i)
    (fun _ j h => Module.isolated_isolate h j) m

/-- R342: at its limit a VF is isolated with its instances. -/
theorem Module.violation_hits {m : Module} {cause fn : Nat} (few : fn < 256) (vf : fn ≠ 0) (some_ : m.rd R.INS_CTRL_VIOL_LIMIT ≠ 0)
    (many : m.rd R.INS_CTRL_VIOL_LIMIT ≤ (m.violIn (0x1000 + fn)).length + 1) :
    m.violation cause fn none = ((m.charge cause fn).flag (R.INS_FN_VIOL_ISOLATED fn)).isolateAll (m.instances.filter (m.owns fn)) := by
  rw [Module.violation_fn, Module.rd_charge_limit, if_pos (by simp [vf, some_, many]), Module.instances_charge m cause few]
  rfl

/-- A violation below the limit, or of the PF, is charged alone. -/
theorem Module.violation_stays {m : Module} {cause fn : Nat} (stays : ¬ (fn ≠ 0 ∧ m.rd R.INS_CTRL_VIOL_LIMIT ≠ 0 ∧
    m.rd R.INS_CTRL_VIOL_LIMIT ≤ (m.violIn (0x1000 + fn)).length + 1)) : m.violation cause fn none = m.charge cause fn := by
  rw [Module.violation_fn, Module.rd_charge_limit, if_neg fun hit => stays ?_]
  simp only [Bool.and_eq_true, bne_iff_ne, decide_eq_true_eq, List.length_append, List.length_singleton] at hit
  exact ⟨hit.2, hit.1⟩

/-- R18, R341, R342: charged violations. -/
theorem violationsClaim : ViolationsClaim := by
  refine ⟨fun s fn few wf => ?_, fun s fn t r few oldest still hv wf => ?_⟩
  · have number := Module.rd_charge_number (Module.rising_regs_of_wf wf) 1 few
    have charged : (s.m.charge 1 fn).host.viol.getD (0x1000 + fn) [] = s.m.violIn (0x1000 + fn) ++ [s.m.mono] := by
      rw [Module.host_charge]
      exact SMap.getD_set_same ..
    refine completes_of_upd (f := mNarrowWrite fn) rfl ?_
    rw [mNarrowWrite, Module.rd_settle, Module.rd_settle]
    by_cases hit : fn ≠ 0 ∧ s.m.rd R.INS_CTRL_VIOL_LIMIT ≠ 0 ∧
        s.m.rd R.INS_CTRL_VIOL_LIMIT ≤ (s.m.violIn (0x1000 + fn)).length + 1
    · obtain ⟨vf, some_, many⟩ := hit
      rw [Module.violation_hits few vf some_ many, Module.rd_isolateAll _ _ (besideIsolation_fnCount few) (by simp only [R.INS_FN_VIOL_WIN_CNT]; omega),
        Module.rd_isolateAll _ _ (besideIsolation_fnIsolated few) (by simp only [R.INS_FN_VIOL_ISOLATED]; omega)]
      refine ⟨?_, ?_, fun _ _ _ => ⟨Module.rd_wr_listed _ _ (by simp [R.INS_FN_VIOL_ISOLATED]), fun i mem owned => ?_⟩⟩
      · have viol := ((s.m.charge 1 fn).flag (R.INS_FN_VIOL_ISOLATED fn)).viol_isolateAll (s.m.instances.filter (s.m.owns fn))
        exact (congrArg (fun v : SMap (List Nat) => v.getD (0x1000 + fn) []) viol).trans charged
      · refine (Module.rd_wr_other _ _ (Fld.key_ne ?_ ?_ (.inr ?_))).trans number <;>
          simp [R.INS_FN_VIOL_WIN_CNT, R.INS_FN_VIOL_ISOLATED]
      · exact (Module.isOn_settle _ _).trans (Module.isolated_isolateAll _ (List.mem_filter.mpr ⟨mem, owned⟩))
    · rw [Module.violation_stays hit]
      exact ⟨charged, number, fun vf some_ many => absurd ⟨vf, some_, many⟩ hit⟩
  · have reached := s.m.reachMono_regs (t + s.m.rd R.INS_CTRL_VIOL_WIN_MS * 1000000 * nsUnit + 1)
    have host : (s.m.reachMono (t + s.m.rd R.INS_CTRL_VIOL_WIN_MS * 1000000 * nsUnit + 1)).host = s.m.host := s.m.adv_host _
    refine completes_of_upd (f := mViolationWindowExpiry (0x1000 + fn)) rfl ?_
    rw [mViolationWindowExpiry, oldest]
    dsimp only
    rw [Module.setViol_fn, Module.rd_settle, host]
    refine ⟨?_, Module.rd_number (reached ▸ Module.rising_regs_of_wf wf) .., Module.mono_reachMono still _⟩
    show SMap.getD (if r = [] then _ else _) _ _ = r
    by_cases last : r = []
    · rw [if_pos last, SMap.getD, SMap.get?_erase_same hv, last]; rfl
    · rw [if_neg last, SMap.getD_set_same]

/-! ### Queue set-up (R325) -/

theorem Module.hq_exportShown (m : Module) (i q : Nat) : m.exportShown.hq i q = m.hq i q :=
  Module.hq_congr (congrArg HostSt.queues m.host_exportShown) i q

theorem Module.hq_setHq_same (m : Module) (i q : Nat) (x : HQueue) : (m.setHq i q x).hq i q = x := by
  rw [Module.hq_setHq, if_pos rfl]

section
variable {m : Module} {fn : Nat} (on : m.insOn = true) (own : fn = 0 ∨ m.owns fn (m.qselInst fn) = true)
  (host : m.hostOwned (m.qselInst fn) = true) (queue : m.qselQueue fn ≠ 3)
include on own host queue

/-- Word 2 of INS_QCFG, written by a function that may configure the queue. -/
theorem mQcfgWrite_en (v : Nat) : mQcfgWrite fn 2 v m = m.qcfgEn (m.qselInst fn) (m.qselQueue fn) v := by
  have may : ¬ (fn ≠ 0 ∧ (!m.owns fn (m.qselInst fn)) = true) := by
    rintro ⟨vf, other⟩
    simp [own.resolve_left vf] at other
  have known : ¬ ((!m.hostOwned (m.qselInst fn)) = true ∨ m.qselQueue fn = 3) := by simp [host, queue]
  rw [mQcfgWrite]
  simp only [on, Bool.not_true, Bool.false_eq_true, if_false, if_neg may, if_neg known, if_true]

/-- The high word of BASE, whose low word waits for it (R19). -/
theorem mQcfgWrite_base (v : Nat) (idle : (m.hq (m.qselInst fn) (m.qselQueue fn)).en = false) {lo : Nat}
    (latched : m.wlatch.get? (fn * 2 ^ 33 + (if fn = 0 then 0x1000084 else vfBase + fn * 0x10000 + 0x44)) = some lo) :
    (mQcfgWrite fn 1 v m).hq (m.qselInst fn) (m.qselQueue fn) =
      { m.hq (m.qselInst fn) (m.qselQueue fn) with base := (lo + v % 2 ^ 32 * 2 ^ 32) / 64 * 64 } := by
  have may : ¬ (fn ≠ 0 ∧ (!m.owns fn (m.qselInst fn)) = true) := by
    rintro ⟨vf, other⟩
    simp [own.resolve_left vf] at other
  have known : ¬ ((!m.hostOwned (m.qselInst fn)) = true ∨ m.qselQueue fn = 3) := by simp [host, queue]
  rw [mQcfgWrite]
  simp only [on, idle, Bool.not_true, Bool.false_eq_true, if_false, if_true, if_neg may, if_neg known, Nat.mul_one, Nat.add_sub_cancel,
    SMap.getD, latched, Option.getD_some, show ¬ (1 = 2) by decide, show ¬ (1 = 0 ∨ 1 = 3) by decide]
  exact Module.hq_setHq_same _ _ _ _

end

/-- EN 0 disables a queue; what it held goes with it. -/
theorem Module.hq_qcfgEn_off {m : Module} {i q v : Nat} (off : bitOf v 0 = false) : (m.qcfgEn i q v).hq i q =
    { m.hq i q with log2 := if (m.hq i q).en then (m.hq i q).log2 else bitsOf v 1 4, vector := bitsOf v 5 9, modUs := bitsOf v 14 18
                    en := false, pend := [], irqDue := false } := by
  have kept {n : Module} (queues : n.host.queues = m.host.queues) : n.hq i q = m.hq i q := Module.hq_congr queues i q
  rw [Module.qcfgEn]
  simp only [off, Bool.not_false, if_true]
  rw [Module.hq_exportShown]
  by_cases commands : q = 0
  · rw [if_pos commands]
    exact Module.hq_setHq_same m i q _
  · rw [if_neg commands]
    by_cases receive : q = 2
    · rw [if_pos receive]
      exact Module.hq_setHq_same m i q _
    · rw [if_neg receive, Module.hq_setHq_same]

/-- EN 1 starts a queue that does not export. -/
theorem Module.hq_qcfgEn_start {m : Module} {i q v : Nat} (on : bitOf v 0 = true) (idle : (m.hq i q).en = false)
    (open_ : m.isolated i = false) (host : q < 4) : (m.qcfgEn i q v).hq i q =
    HQueue.start { m.hq i q with log2 := bitsOf v 1 4, vector := bitsOf v 5 9, modUs := bitsOf v 14 18 } := by
  rw [Module.qcfgEn]
  simp only [on, idle, open_, Bool.not_true, Bool.false_eq_true, if_false, if_neg (Nat.not_le.mpr host), Module.hq_setHq_same]

/-! ### Shares (R333) -/

theorem bitsOf_lt (v i n : Nat) : bitsOf v i n < 2 ^ n := Nat.mod_lt _ (Nat.two_pow_pos n)

/-- A share that fits: its two fields take the values, and what the registers show of the sums beside. -/
theorem Module.rd_share {m : Module} (h : SMap.rising m.regs = true) {f g : Fld} {v w : Nat} (fw : v < 2 ^ f.width) (gw : w < 2 ^ g.width)
    (finst : 0x1010000 ≤ f.addr) (ginst : 0x1010000 ≤ g.addr) (low : f.lsb = 0) (high : g.lsb = 16) (a b : Nat) :
    ((((m.wr f v).wr g w).wr R.INS_MIN_SUM_DMA a).wr R.INS_MIN_SUM_REC b).rd f = v ∧
      ((((m.wr f v).wr g w).wr R.INS_MIN_SUM_DMA a).wr R.INS_MIN_SUM_REC b).rd g = w := by
  have fplace : 0x1010000 ≤ f.addr ∧ f.lsb < 32 := ⟨finst, by omega⟩
  have gplace : 0x1010000 ≤ g.addr ∧ g.lsb < 32 := ⟨ginst, by omega⟩
  have sums {k : Fld} (place : 0x1010000 ≤ k.addr ∧ k.lsb < 32) (n : Module) :
      ((n.wr R.INS_MIN_SUM_DMA a).wr R.INS_MIN_SUM_REC b).rd k = n.rd k := by
    rw [Module.rd_wr_other _ _ (Fld.key_ne place.2 (by decide) (.inl (by simp only [R.INS_MIN_SUM_REC]; omega))),
      Module.rd_wr_other _ _ (Fld.key_ne place.2 (by decide) (.inl (by simp only [R.INS_MIN_SUM_DMA]; omega)))]
  rw [sums fplace, sums gplace, Module.rd_wr_other _ _ (Fld.key_ne fplace.2 gplace.2 (.inr (by omega))), Module.rd_wr_same _ h,
    Module.rd_wr_same _ (Module.rising_wr h _ _), Nat.mod_eq_of_lt fw, Nat.mod_eq_of_lt gw]
  exact ⟨rfl, rfl⟩

/-! ### Translation (R334, R335) -/

theorem SMap.getD_erase_same {α : Type} {l : SMap α} (h : SMap.rising l = true) (k : Nat) (d : α) : (l.erase k).getD k d = d := by
  rw [SMap.getD, SMap.get?_erase_same h]; rfl

theorem SMap.getD_erase_other {α : Type} (l : SMap α) {k x : Nat} (other : x ≠ k) (d : α) : (l.erase k).getD x d = l.getD x d := by
  rw [SMap.getD, SMap.get?_erase_other l other]; rfl

theorem SMap.getD_set_other {α : Type} (l : SMap α) {k x : Nat} (v : α) (other : x ≠ k) (d : α) : (l.set k v).getD x d = l.getD x d := by
  rw [SMap.getD, SMap.get?_set_other l v other]; rfl

/-- Sets V = 0 in the entries of one instance (R335); an entry that becomes 0 leaves the list, and reads 0. -/
theorem getD_invalAll {l : SMap Nat} (h : SMap.rising l = true) (i k : Nat) :
    (invalAll i l).getD k 0 = if k / 2 ^ 20 = i then l.getD k 0 / 2 * 2 else l.getD k 0 := by
  induction l with
  | nil => simp [invalAll, SMap.getD, SMap.get?]
  | cons p r ih =>
    obtain ⟨j, w⟩ := p
    obtain ⟨above, rest⟩ := (SMap.rising_cons (j, w) r).mp h
    have later := ih rest
    have cons : invalAll i ((j, w) :: r) = if (if j / 2 ^ 20 = i then w / 2 * 2 else w) != 0 then
        (j, if j / 2 ^ 20 = i then w / 2 * 2 else w) :: invalAll i r else invalAll i r := List.filter_cons
    rw [cons]
    by_cases here : j = k
    · subst here
      have none : SMap.getD r j 0 = 0 := by rw [SMap.getD, SMap.get?_above above (Nat.le_refl _)]; rfl
      rw [none, ite_self] at later
      have own : SMap.getD ((j, w) :: r) j 0 = w := by simp [SMap.getD, SMap.get?]
      rw [own]
      generalize (if j / 2 ^ 20 = i then w / 2 * 2 else w) = v
      by_cases zero : v = 0
      · rw [if_neg (by simp [zero]), later, zero]
      · rw [if_pos (by simpa using zero)]
        simp [SMap.getD, SMap.get?]
    · have skip {v : Nat} {t : SMap Nat} : SMap.getD ((j, v) :: t) k 0 = SMap.getD t k 0 := by simp [SMap.getD, SMap.get?, here]
      rw [skip, ← later]
      generalize (if j / 2 ^ 20 = i then w / 2 * 2 else w) = v
      by_cases zero : v = 0
      · rw [if_neg (by simp [zero])]
      · rw [if_pos (by simpa using zero), skip]

/-- R334, R335: both table commands act on a host-owned instance while no replacement drains. -/
theorem Module.xltCmd_acts {m : Module} (run : m.mode ≠ .reset) (idle : m.rd R.INS_XLT_STAT_BUSY = 0)
    (host : m.hostOwned (m.rd R.INS_XLT_INST_VALUE % 4096) = true) (f : Nat → Module) :
    m.xltCmd f = f (m.rd R.INS_XLT_INST_VALUE % 4096) := by
  have free : ¬ (m.mode = .reset ∨ m.isOn R.INS_XLT_STAT_BUSY = true) := by simp [run, Module.isOn, idle]
  rw [Module.xltCmd]
  simp only [if_neg free, host, Bool.not_true, Bool.false_eq_true, if_false]

/-- A replacement is BUSY until the reads that use what it replaced have ended. -/
theorem Module.rd_xltReplace_busy (m : Module) (i : Nat) (hit : Nat → Bool) (f : SMap Nat → SMap Nat) :
    (m.xltReplace i hit f).rd R.INS_XLT_STAT_BUSY = 1 :=
  Module.rd_wr_listed _ _ (by decide)

/-! ### The obligation -/

/-- R325: the configuration of a queue. -/
theorem qcfgWrite_completes (s : State) (fn v : Nat) (on : s.m.insOn = true) (own : fn = 0 ∨ s.m.owns fn (s.m.qselInst fn) = true)
    (host : s.m.hostOwned (s.m.qselInst fn) = true) (queue : s.m.qselQueue fn ≠ 3) :
    let i := s.m.qselInst fn
    let q := s.m.qselQueue fn
    let x := s.m.hq i q
    let x1 := { x with log2 := if x.en then x.log2 else bitsOf v 1 4, vector := bitsOf v 5 9, modUs := bitsOf v 14 18 }
    (q < 3 → bitOf v 0 = true → x.en = false → s.m.isolated i = false → completes (.qcfgWrite fn 2 v) s fun m => m.hq i q = x1.start) ∧
    (bitOf v 0 = false → completes (.qcfgWrite fn 2 v) s fun m =>
      m.hq i q = { x1 with en := false, pend := [], irqDue := false }) ∧
    (x.en = false → ∀ lo, s.m.wlatch.get? (fn * 2 ^ 33 + (if fn = 0 then 0x1000084 else vfBase + fn * 0x10000 + 0x44)) = some lo →
      completes (.qcfgWrite fn 1 v) s fun m => m.hq i q = { x with base := (lo + v % 2 ^ 32 * 2 ^ 32) / 64 * 64 }) := by
  dsimp only
  have write := mQcfgWrite_en on own host queue v
  refine ⟨fun few en idle open_ => ?_, fun off => ?_, fun idle lo latched => ?_⟩
  · refine completes_of_upd (f := mQcfgWrite fn 2 v) rfl ?_
    rw [write, Module.hq_settle, Module.hq_qcfgEn_start en idle open_ (by omega), idle]
    rfl
  · refine completes_of_upd (f := mQcfgWrite fn 2 v) rfl ?_
    rw [write, Module.hq_settle, Module.hq_qcfgEn_off off]
  · refine completes_of_upd (f := mQcfgWrite fn 1 v) rfl ?_
    rw [Module.hq_settle, mQcfgWrite_base on own host queue v idle latched]

/-- R333: a share that fits, and one that is refused. -/
theorem shareWrite_completes (s : State) (i v : Nat) (run : s.m.mode ≠ .reset) (admitted : s.m.instAdmitted i = true) (wf : s.wf = true) :
    let sum (f : Nat → Fld) : Nat := s.m.instances.foldl (fun a j => if j = i then a else a + s.m.rd (f j)) 0
    (s.m.minSum - s.m.guar (.hp i) + bitsOf v 0 16 ≤ 60576 → completes (.shareWrite i 0 v) s fun m =>
      m.rd (R.INS_INST_SHARE_HP_HP_MIN i) = bitsOf v 0 16 ∧ m.rd (R.INS_INST_SHARE_HP_HP_WEIGHT i) = bitsOf v 16 8) ∧
    (sum R.INS_INST_SHARE_DMA_MIN + bitsOf v 0 16 ≤ 48000 → s.m.exportOf i ≤ bitsOf v 0 16 → completes (.shareWrite i 1 v) s fun m =>
      m.rd (R.INS_INST_SHARE_DMA_MIN i) = bitsOf v 0 16 ∧ m.rd (R.INS_INST_SHARE_DMA_WEIGHT i) = bitsOf v 16 8) ∧
    (sum R.INS_INST_SHARE_REC_MIN + bitsOf v 0 16 ≤ 4000 → completes (.shareWrite i 2 v) s fun m =>
      m.rd (R.INS_INST_SHARE_REC_MIN i) = bitsOf v 0 16 ∧ m.rd (R.INS_INST_SHARE_REC_WEIGHT i) = bitsOf v 16 8) ∧
    (60576 < s.m.minSum - s.m.guar (.hp i) + bitsOf v 0 16 → completes (.shareWrite i 0 v) s fun m =>
      m.rd R.INS_STATUS_SHARE_REFUSED_STK = 1 ∧ m.rd (R.INS_INST_SHARE_HP_HP_MIN i) = s.m.rd (R.INS_INST_SHARE_HP_HP_MIN i)) := by
  have rising := Module.rising_regs_of_wf wf
  have known : ¬ (s.m.mode = .reset ∨ (!s.m.instAdmitted i) = true) := by simp [run, admitted]
  have minimum := bitsOf_lt v 0 16
  have weight := bitsOf_lt v 16 8
  refine ⟨fun fits => ?_, fun fits load => ?_, fun fits => ?_, fun excess => ?_⟩
  · refine completes_of_upd (f := mShareWrite i 0 v) rfl ?_
    rw [mShareWrite]
    simp only [if_neg known, if_true, Nat.not_lt.mpr fits, decide_false,
      Bool.false_eq_true, if_false, Module.rd_settle]
    exact Module.rd_share rising minimum weight (Nat.le_add_right_of_le (by decide))
      (Nat.le_add_right_of_le (by decide)) rfl rfl _ _
  · refine completes_of_upd (f := mShareWrite i 1 v) rfl ?_
    rw [mShareWrite]
    simp only [if_neg known, show ¬ (1 = 0) by decide, if_true, Nat.not_lt.mpr fits, Nat.not_lt.mpr load, decide_false, Bool.or_self,
      Bool.false_eq_true, if_false, Module.rd_settle]
    exact Module.rd_share rising minimum weight (Nat.le_add_right_of_le (by decide))
      (Nat.le_add_right_of_le (by decide)) rfl rfl _ _
  · refine completes_of_upd (f := mShareWrite i 2 v) rfl ?_
    rw [mShareWrite]
    simp only [if_neg known, show ¬ (2 = 0) by decide, show ¬ (2 = 1) by decide, Nat.not_lt.mpr fits, decide_false,
      Bool.false_eq_true, if_false, Module.rd_settle]
    exact Module.rd_share rising minimum weight (Nat.le_add_right_of_le (by decide))
      (Nat.le_add_right_of_le (by decide)) rfl rfl _ _
  · refine completes_of_upd (f := mShareWrite i 0 v) rfl ?_
    rw [mShareWrite]
    simp only [if_neg known, if_true, excess, decide_true, Module.rd_settle]
    refine ⟨Module.rd_wr_listed _ _ (by decide), Module.rd_wr_other _ _ (Fld.key_ne ?_ (by decide) (.inl ?_))⟩
    · simp [R.INS_INST_SHARE_HP_HP_MIN]
    · simp only [R.INS_INST_SHARE_HP_HP_MIN, R.INS_STATUS_SHARE_REFUSED_STK]; omega

/-- R334, R335: the translation commands, and the end of their draining. -/
theorem translation_completes (s : State) (run : s.m.mode ≠ .reset) (wf : s.wf = true) :
    (s.m.rd R.INS_XLT_STAT_BUSY = 0 → s.m.hostOwned (s.m.rd R.INS_XLT_INST_VALUE % 4096) = true →
      let i := s.m.rd R.INS_XLT_INST_VALUE % 4096
      let page := s.m.rd R.INS_XLT_PAGE_VALUE
      let e := s.m.rd64 R.INS_XLT_DATA_LO_ENTRY R.INS_XLT_DATA_HI_ENTRY
      (page < s.m.rd (R.INS_INST_XLT_XLT_PAGES i) → bitsOf e 3 9 = 0 → (s.m.rd (R.INS_INST_XLT_PAGE i) = 1 → bitsOf e 12 9 = 0) →
        completes .xltWrite s fun m => m.host.xlt.getD (xltKey i page) 0 = e ∧ m.rd R.INS_XLT_STAT_BUSY = 1 ∧
          ∀ k, k ≠ xltKey i page → m.host.xlt.getD k 0 = s.m.host.xlt.getD k 0) ∧
      completes .invalAll s fun m => m.rd R.INS_XLT_STAT_BUSY = 1 ∧
        ∀ k, m.host.xlt.getD k 0 = if k / 2 ^ 20 = i then s.m.host.xlt.getD k 0 / 2 * 2 else s.m.host.xlt.getD k 0) ∧
    (s.m.rd R.INS_XLT_STAT_BUSY = 1 → (∀ r ∈ s.m.host.reads, r.old = false) → completes .xltDrainDone s fun m =>
      m.rd R.INS_XLT_STAT_BUSY = 0 ∧ m.rd R.INS_XLT_STAT_DONE_FLG = 1) := by
  have rising := Module.rising_regs_of_wf wf
  have table : SMap.rising s.m.host.xlt = true := by
    rw [← Module.settle_eq (m := s.m) wf]
    exact SMap.rising_tidy s.m.host.xlt
  have settled (m : Module) (k : Nat) : m.settle.host.xlt.getD k 0 = m.host.xlt.getD k 0 := SMap.getD_tidy ..
  refine ⟨fun idle host => ⟨fun page reserved large => ?_, ?_⟩, fun busy ended => ?_⟩
  · have write : mXltWrite s.m = s.m.xltReplace (s.m.rd R.INS_XLT_INST_VALUE % 4096) (· == s.m.rd R.INS_XLT_PAGE_VALUE) fun x =>
        if s.m.rd64 R.INS_XLT_DATA_LO_ENTRY R.INS_XLT_DATA_HI_ENTRY = 0 then
          x.erase (xltKey (s.m.rd R.INS_XLT_INST_VALUE % 4096) (s.m.rd R.INS_XLT_PAGE_VALUE))
        else x.set (xltKey (s.m.rd R.INS_XLT_INST_VALUE % 4096) (s.m.rd R.INS_XLT_PAGE_VALUE))
          (s.m.rd64 R.INS_XLT_DATA_LO_ENTRY R.INS_XLT_DATA_HI_ENTRY) := by
      rw [mXltWrite, Module.xltCmd_acts run idle host]
      simp only [if_neg (Nat.not_le.mpr page)]
      refine if_neg ?_
      rintro (bits | ⟨on, bits⟩)
      · exact bits reserved
      · exact bits (large (by simpa [Module.isOn] using on))
    refine completes_of_upd (f := mXltWrite) rfl ?_
    rw [write, Module.rd_settle]
    refine ⟨(settled _ _).trans ?_, Module.rd_xltReplace_busy .., fun k other => (settled _ _).trans ?_⟩
    · show SMap.getD (if _ then _ else _) _ _ = _
      split
      · rename_i zero
        rw [SMap.getD_erase_same table, zero]
      · exact SMap.getD_set_same ..
    · show SMap.getD (if _ then _ else _) _ _ = _
      split
      · exact SMap.getD_erase_other _ other _
      · exact SMap.getD_set_other _ _ other _
  · refine completes_of_upd (f := mInvalAll) rfl ?_
    rw [mInvalAll, Module.xltCmd_acts run idle host, Module.rd_settle]
    exact ⟨Module.rd_xltReplace_busy .., fun k => (settled _ _).trans (getD_invalAll table _ k)⟩
  · refine completes_of_upd (f := mXltDrainDone) rfl ?_
    have drained : s.m.isOn R.INS_XLT_STAT_BUSY = true ∧ (!s.m.host.reads.any (·.old)) = true := by
      refine ⟨by simp [Module.isOn, busy], ?_⟩
      rw [Bool.not_eq_true', List.any_eq_false]
      exact fun r mem => by simp [ended r mem]
    rw [mXltDrainDone, if_pos drained, Module.rd_settle, Module.rd_settle]
    refine ⟨(Module.rd_wr_other _ _ (by decide)).trans (Module.rd_wr_same _ rising _ _), Module.rd_wr_listed _ _ (by decide)⟩

/-- Settles O57: each command by its own branch; the violations of the window's end are those of assumption 79, the waiting low word is
that of assumption 32, and time runs on to an instant by assumption 6. -/
theorem hostControl : Obligations.HostControl :=
  ⟨⟨fun s fn v on own host queue => qcfgWrite_completes s fn v on own host queue,
    fun s i v run admitted _ wf => shareWrite_completes s i v run admitted wf, translation_completes⟩, violationsClaim⟩

end Sys2Proof.Machine
end

section
/-!
PROOFS. Host commands, doorbells and transfers (R324, R326 to R328, R338).
-/

namespace Sys2Proof.Machine
open Sys2Proof.Claims

/-! ### Host memory -/

/-- Two modules that reach host memory alike: one translation, and the fields of the instances. -/
def Module.SameReach (m n : Module) : Prop :=
  n.host.xlt = m.host.xlt ∧ ∀ f : Fld, 0x1010000 ≤ f.addr → f.lsb < 32 → n.rd f = m.rd f

section
variable {m n : Module}

theorem Module.SameReach.of_regs (xlt : n.host.xlt = m.host.xlt) (regs : n.regs = m.regs) : m.SameReach n :=
  ⟨xlt, fun f _ _ => Module.rd_congr regs f⟩

/-- The host interface counts below the fields of the instances. -/
theorem Module.SameReach.insCnt (same : m.SameReach n) {k : Nat} (few : k < 16) : m.SameReach (n.insCnt k) := by
  obtain ⟨xlt, fields⟩ := same
  refine ⟨xlt, fun f inst place => (Module.rd_bumpBy_other _ _ ?_).trans (fields f inst place)⟩
  exact Fld.key_ne place (by simp [R.INS_CNT_CNT]) (.inl (by simp only [R.INS_CNT_CNT]; omega))

variable (same : m.SameReach n)
include same

theorem Module.SameReach.owner (i : Nat) : n.owner i = m.owner i :=
  same.2 _ (Nat.le_add_right _ _) (by simp [R.INS_INST_STAT_OWNER])

theorem Module.SameReach.pageSize (i : Nat) : n.pageSize i = m.pageSize i := by
  rw [Module.pageSize, Module.isOn, same.2 _ (Nat.le_add_right_of_le (by decide)) (by simp [R.INS_INST_XLT_PAGE])]
  rfl

theorem Module.SameReach.pagesOf (i addr len : Nat) : n.pagesOf i addr len = m.pagesOf i addr len := by
  rw [Module.pagesOf, Module.pagesOf, same.pageSize]

theorem Module.SameReach.reachable (i addr len : Nat) (write : Bool) : n.reachable i addr len write = m.reachable i addr len write := by
  rw [Module.reachable, Module.reachable, same.pagesOf, same.2 _ (Nat.le_add_right_of_le (by decide)) (by simp [R.INS_INST_XLT_XLT_PAGES]),
    same.1]

theorem Module.SameReach.hostWrites (i addr : Nat) (b : Bytes) : n.hostWrites i addr b = m.hostWrites i addr b := by
  have page (p : Nat) : n.pageWrite i addr b p = m.pageWrite i addr b p := by
    simp only [Module.pageWrite, same.pageSize, same.owner, same.1]
  rw [Module.hostWrites, Module.hostWrites, same.pagesOf, funext page]

end

/-- What has left the module after bytes are put into host memory. -/
theorem Module.out_hostPut (m : Module) (i addr : Nat) (b : Bytes) : (m.hostPut i addr b).out = m.out ++ m.hostWrites i addr b := by
  rw [Module.hostPut_eq]

theorem Module.SameReach.hostPut {m n : Module} (same : m.SameReach n) (i addr : Nat) (b : Bytes) :
    (m.hostPut i addr b).SameReach (n.hostPut i addr b) := by
  rw [Module.hostPut_eq, Module.hostPut_eq]
  exact same

/-- What reaches host memory alike puts the same bytes there. -/
theorem Module.SameReach.out_hostPut {m n : Module} (same : m.SameReach n) (out : n.out = m.out) (i addr : Nat) (b : Bytes) :
    (n.hostPut i addr b).out = (m.hostPut i addr b).out := by
  rw [Module.out_hostPut, Module.out_hostPut, same.hostWrites, out]

/-! ### Queues and completions (R327) -/

theorem Module.hq_hostPut (m : Module) (i addr : Nat) (b : Bytes) (j q : Nat) : (m.hostPut i addr b).hq j q = m.hq j q := by
  rw [Module.hostPut_eq]; rfl

theorem Module.queue_hostPut (m : Module) (i addr : Nat) (b : Bytes) (j : QId) : (m.hostPut i addr b).queue j = m.queue j := by
  rw [Module.hostPut_eq]; rfl

theorem Module.bufs_hostPut (m : Module) (i addr : Nat) (b : Bytes) : (m.hostPut i addr b).host.bufs = m.host.bufs := by
  rw [Module.hostPut_eq]

theorem Module.hq_insCnt (m : Module) (k i q : Nat) : (m.insCnt k).hq i q = m.hq i q := rfl
theorem Module.out_insCnt (m : Module) (k : Nat) : (m.insCnt k).out = m.out := rfl
theorem Module.out_setHq (m : Module) (i q : Nat) (x : HQueue) : (m.setHq i q x).out = m.out := rfl

theorem Module.hq_setHq_other (m : Module) (i : Nat) {q r : Nat} (other : r ≠ q) (x : HQueue) : (m.setHq i q x).hq i r = m.hq i r := by
  rw [Module.hq_setHq, if_neg (by omega)]

/-- A completion entry that the instance's table reaches, of a module that reaches host memory as m does. -/
theorem Module.complete_reaches {m n : Module} {i : Nat} (same : m.SameReach n) (queue : n.hq i 1 = m.hq i 1) (out : n.out = m.out)
    (reach : m.reachable i (cqAddr (m.hq i 1)) 16 true = true) (cid status : Nat) (rx : Bool) (ts info : Nat) (irq : Bool) :
    n.complete i cid status rx ts info irq =
      ({ n with out := (m.hostPut i (cqAddr (m.hq i 1)) (cqEntry (m.hq i 1) cid status rx ts info)).out } : Module).setHq i 1
        (cqNext (m.hq i 1) irq) := by
  have reaches : n.reachable i (cqAddr (n.hq i 1)) 16 true = true := by rw [same.reachable, queue, reach]
  rw [Module.complete]
  refine (if_pos reaches).trans ?_
  rw [← same.out_hostPut out, Module.out_hostPut, Module.hostPut_eq, queue]
  rfl

/-! ### Commands (R326) -/

theorem Module.drainBad_stays {m : Module} {i : Nat} (sound : ∀ c ∈ m.cmdsOf i, c.bad = none) (k : Nat) : Module.drainBad i k m = m := by
  cases k with
  | zero => rfl
  | succ k =>
    rw [Module.drainBad]
    rcases commands : m.cmdsOf i with _ | ⟨c, r⟩
    · rfl
    · simp only [sound c (by simp [commands])]

theorem Module.fetchNext_idle {m : Module} {i : Nat} (empty : (m.hq i 0).head = (m.hq i 0).tail) (k : Nat) : Module.fetchNext i k m = m := by
  cases k with
  | zero => rfl
  | succ k =>
    rw [Module.fetchNext]
    exact if_pos (.inr (.inr (.inl empty)))

/-- Nothing follows where the entries at hand are sound and no other has been posted. -/
theorem Module.pump_idle {m : Module} {i : Nat} (sound : ∀ c ∈ m.cmdsOf i, c.bad = none) (empty : (m.hq i 0).head = (m.hq i 0).tail) :
    m.pump i = m := by
  rw [Module.pump, Module.drainBad_stays sound, Module.fetchNext_idle empty, Module.drainBad_stays sound]

/-- The next entry that has been posted is fetched. -/
theorem Module.pump_fetches {m : Module} {i : Nat} (none : m.cmdsOf i = []) (idle : m.host.reads = []) (en : (m.hq i 0).en = true)
    (posted : (m.hq i 0).head ≠ (m.hq i 0).tail) (open_ : m.isolated i = false)
    (reach : m.reachable i ((m.hq i 0).base + (m.hq i 0).head % 2 ^ (m.hq i 0).log2 * 64) 64 false = true) :
    m.pump i = m.hostRead i ((m.hq i 0).base + (m.hq i 0).head % 2 ^ (m.hq i 0).log2 * 64) 64 .command := by
  have sound {n : Module} (commands : n.cmdsOf i = []) : ∀ c ∈ n.cmdsOf i, c.bad = Option.none := by simp [commands]
  rw [Module.pump, Module.drainBad_stays (sound none), Module.fetchNext]
  simp only [en, idle, posted, open_, reach, Bool.not_true, Bool.false_eq_true, List.any_nil, or_self, if_false, if_true]
  exact Module.drainBad_stays (m := m.hostRead ..) (sound none) _

/-- The front entry, sound and with its opcode, is carried out. -/
theorem Module.frontCmd_acts {m : Module} {i : Nat} {c : CmdEntry} (on : m.insOn = true) (front : m.cmdsOf i = [c]) (sound : c.bad = none)
    (room : m.cqRoom i = true) (open_ : m.isolated i = false) (quiet : m.sending i = 0) {op : Nat} (opcode : c.opcode = op)
    (f : CmdEntry → Module) : m.frontCmd i op f = f c := by
  rw [Module.frontCmd, front]
  simp [on, sound, room, open_, quiet, opcode]

theorem Module.cmdsOf_settle (m : Module) (i : Nat) : m.settle.cmdsOf i = m.cmdsOf i := rfl

theorem Module.cmdsOf_setCmds {m : Module} (h : SMap.rising m.host.cmds = true) (i : Nat) (l : List CmdEntry) :
    (m.setCmds i l).cmdsOf i = l := by
  show SMap.getD (if l = [] then _ else _) i [] = l
  by_cases empty : l = []
  · rw [if_pos empty, SMap.getD_erase_same h, empty]
  · rw [if_neg empty, SMap.getD_set_same]

/-- R327: the one entry at hand completes, and no other waits. -/
theorem Module.endCmd_pump {m : Module} {i : Nat} {c : CmdEntry} (front : m.cmdsOf i = [c]) (empty : (m.hq i 0).head = (m.hq i 0).tail)
    (reach : m.reachable i (cqAddr (m.hq i 1)) 16 true = true) (h : SMap.rising m.host.cmds = true) (info : Nat) :
    ((m.endCmd i c 0 info).pump i).cmdsOf i = [] ∧
      ((m.endCmd i c 0 info).pump i).hq i 1 = cqNext (m.hq i 1) (bitOf c.flags 1) ∧
      ((m.endCmd i c 0 info).pump i).out = (m.hostPut i (cqAddr (m.hq i 1)) (cqEntry (m.hq i 1) c.cid 0 false m.ts32 info)).out := by
  have same : m.SameReach ((m.setCmds i []).insCnt 0) := (Module.SameReach.of_regs rfl rfl).insCnt (n := m.setCmds i []) (by decide)
  have ended : m.endCmd i c 0 info = ({ (m.setCmds i []).insCnt 0 with
      out := (m.hostPut i (cqAddr (m.hq i 1)) (cqEntry (m.hq i 1) c.cid 0 false m.ts32 info)).out } : Module).setHq i 1
        (cqNext (m.hq i 1) (bitOf c.flags 1)) := by
    rw [← Module.complete_reaches same rfl rfl reach, Module.endCmd, front]
    rfl
  have commands : (m.endCmd i c 0 info).cmdsOf i = [] := by
    rw [ended]
    exact Module.cmdsOf_setCmds h i []
  have other : (m.endCmd i c 0 info).hq i 0 = m.hq i 0 := by
    rw [ended, Module.hq_setHq_other _ _ (by decide)]
    rfl
  rw [Module.pump_idle (by simp [commands]) (by rw [other, empty])]
  exact ⟨commands, by rw [ended, Module.hq_setHq_same], by rw [ended]; rfl⟩

/-- R326, R327: NOP, TIME and SEND, and the completion interrupt. -/
theorem hostCommandsClaim : HostCommandsClaim := by
  refine ⟨fun s i c on front sound room open_ quiet => ⟨fun x mem opcode empty reach h => ?_, fun opcode reach => ?_⟩, fun s i en due still => ?_⟩
  · have done (info : Nat) := Module.endCmd_pump front empty reach h info
    simp only [List.mem_cons, List.not_mem_nil, or_false] at mem
    obtain rfl | rfl := mem
    · refine completes_of_upd (f := mCmdNop i) rfl ?_
      rw [Module.hq_settle, Module.settle_out, Module.cmdsOf_settle, mCmdNop, Module.frontCmd_acts on front sound room open_ quiet opcode]
      exact done 0
    · refine completes_of_upd (f := mCmdTime i) rfl ?_
      rw [Module.hq_settle, Module.settle_out, Module.cmdsOf_settle, mCmdTime, Module.frontCmd_acts on front sound room open_ quiet opcode]
      exact done s.m.tns
  · refine completes_of_upd (f := mCmdSend i) rfl ?_
    rw [mCmdSend, Module.frontCmd_acts on front sound room open_ quiet opcode, if_pos reach]
    exact ⟨rfl, front⟩
  · refine completes_of_upd (f := mCompletionInterrupt i) rfl ?_
    have goes : ¬ ((!(s.m.hq i 1).en) = true ∨ (!(s.m.hq i 1).irqDue) = true) := by simp [en, due]
    rw [mCompletionInterrupt]
    simp only [if_neg goes, Module.hq_settle]
    rcases last : (s.m.hq i 1).lastIrq with _ | t
    · exact ⟨rfl, Module.hq_setHq_same .., rfl⟩
    · refine ⟨?_, Module.hq_setHq_same .., Module.mono_reachMono still _⟩
      have owner : (s.m.reachMono (t + (s.m.hq i 1).modUs * 1000 * nsUnit)).owner i = s.m.owner i := Module.rd_congr (s.m.reachMono_regs _) _
      have out := s.m.reachMono_out (t + (s.m.hq i 1).modUs * 1000 * nsUnit)
      exact congrArg₂ (fun o w => o ++ [Emission.msix (w - 0x100) _]) out owner

/-! ### Doorbells (R324) -/

/-- A doorbell of the owner on an enabled queue, within its range. -/
theorem Module.doorbell_takes {m : Module} {fn i q : Nat} (on : m.insOn = true) (own : m.owns fn i = true) (open_ : m.isolated i = false)
    (en : (m.hq i q).en = true) {ok : HQueue → Bool} (inRange : ok (m.hq i q) = true) (f : HQueue → Module) :
    m.doorbell fn i q ok f = f (m.hq i q) := by
  simp [Module.doorbell, on, own, open_, en, inRange]

/-- A doorbell of another function is a violation of its own. -/
theorem Module.doorbell_other {m : Module} {fn i : Nat} (on : m.insOn = true) (other : m.owns fn i = false) (q : Nat) (ok : HQueue → Bool)
    (f : HQueue → Module) : m.doorbell fn i q ok f = m.violation 4 fn none := by
  simp [Module.doorbell, on, other]

/-- Such a violation, where no limit is set, charges the function and touches no queue. -/
theorem completes_doorbell_other {s : State} {fn : Nat} (none_ : s.m.rd R.INS_CTRL_VIOL_LIMIT = 0) {c : Instr} {f : Module → Module}
    (runs : exec c s = s.upd f) (violates : f s.m = s.m.violation 4 fn none) :
    completes c s fun m => m.host = { s.m.host with
      viol := s.m.host.viol.set (0x1000 + fn) (s.m.violIn (0x1000 + fn) ++ [s.m.mono]), queues := SMap.tidy s.m.host.queues
      xlt := SMap.tidy s.m.host.xlt } := by
  refine completes_of_upd runs ?_
  rw [violates, Module.violation_stays (by simp [none_])]
  have charged := s.m.host_charge 4 fn
  exact congrArg (fun h : HostSt => { h with queues := SMap.tidy h.queues, xlt := SMap.tidy h.xlt }) charged

/-- R324: the doorbells. -/
theorem doorbellsClaim : DoorbellsClaim := by
  refine ⟨fun s fn i idx on own open_ => ⟨fun en range commands reads posted reach => ?_, fun en range commands empty => ?_,
    fun en range further one reach => ?_, fun v en range => ?_⟩, fun s fn i idx on other none_ c mem => ?_⟩
  · have same (x : HQueue) : s.m.SameReach (s.m.setHq i 0 x) := .of_regs rfl rfl
    refine completes_of_upd (f := mDbCommandTail fn i idx) rfl ?_
    rw [mDbCommandTail, Module.doorbell_takes on own open_ en (by simpa using range), Module.pump_fetches (m := s.m.setHq i 0 _) commands reads,
      Module.hq_setHq_same, Module.hq_settle]
    · refine ⟨Module.hq_setHq_same .., ?_⟩
      show s.m.host.reads ++ _ = _
      rw [reads, (same _).pagesOf]
      rfl
    · rw [Module.hq_setHq_same]; exact en
    · rw [Module.hq_setHq_same]; exact posted.symm
    · exact open_
    · rw [Module.hq_setHq_same, (same _).reachable]; exact reach
  · refine completes_of_upd (f := mDbCompletionHead fn i idx) rfl ?_
    rw [mDbCompletionHead, Module.doorbell_takes on own open_ en (by simpa using range), Module.pump_idle, Module.hq_settle, Module.hq_setHq_same]
    · intro c mem
      rw [show (s.m.setHq i 1 _).cmdsOf i = [] from commands] at mem
      cases mem
    · rw [Module.hq_setHq_other _ _ (by decide)]; exact empty
  · have same (x : HQueue) : s.m.SameReach (s.m.setHq i 2 x) := .of_regs rfl rfl
    refine completes_of_upd (f := mDbReceiveTail fn i idx) rfl ?_
    rw [mDbReceiveTail, Module.doorbell_takes on own open_ en (by simpa using ⟨range, further⟩)]
    simp only [one, List.range_one, List.map_cons, List.map_nil, List.foldl_cons, List.foldl_nil, Nat.add_zero, (same _).reachable, reach,
      if_true, Module.hq_settle]
    refine ⟨Module.hq_setHq_same .., ?_⟩
    show s.m.host.reads ++ _ = _
    rw [(same _).pagesOf]
    rfl
  · refine completes_of_upd (f := mDbExportConsumer fn i v idx) rfl ?_
    rw [mDbExportConsumer, Module.doorbell_takes on own open_ en (by simpa using range), Module.hq_settle, Module.hq_setHq_same]
  · have violates (q : Nat) (ok : HQueue → Bool) (f : HQueue → Module) := Module.doorbell_other on other q ok f
    simp only [List.mem_cons, List.not_mem_nil, or_false] at mem
    obtain rfl | rfl | rfl | rfl := mem <;> exact completes_doorbell_other none_ rfl (violates ..)

/-! ### Transfers (R327, R328, R338) -/

/-- A receive descriptor arrives, or its access times out. -/
theorem Module.descriptor_ends {m : Module} {k n : Nat} {r : HRead} (read : m.host.reads[k]? = some r) (gen : r.gen = m.gen r.inst)
    (open_ : m.isolated r.inst = false) (use_ : r.use_ = .descriptor n) (d : Bytes) :
    ((m.hq r.inst 2).en = true → mHostReadCompletion k d m = { m.dropRead k with host := { (m.dropRead k).host with
      bufs := m.host.bufs.set r.inst (m.host.bufs.getD r.inst [] ++ [(n, leAt d 0 8)]) } }) ∧
    mHostAccessTimeout k m = { m.dropRead k with host := { (m.dropRead k).host with
      bufs := m.host.bufs.set r.inst (m.host.bufs.getD r.inst [] ++ [(n, 2 ^ 64)]) } } := by
  have current : ¬ r.gen ≠ (m.dropRead k).gen r.inst := not_not_intro gen
  have running : (m.dropRead k).isolated r.inst = false := open_
  refine ⟨fun en => ?_, ?_⟩
  · have queue : ((m.dropRead k).hq r.inst 2).en = true := en
    rw [mHostReadCompletion, read]
    simp only [if_neg current, running, queue, use_, Bool.not_true, Bool.false_eq_true, if_false]
    rfl
  · rw [mHostAccessTimeout, read]
    simp only [current, running, use_, Bool.false_eq_true, or_self, if_false]
    rfl

/-- The last command entry that has been posted arrives. -/
theorem Module.command_arrives {m : Module} {k : Nat} {r : HRead} (read : m.host.reads[k]? = some r) (gen : r.gen = m.gen r.inst)
    (open_ : m.isolated r.inst = false) (use_ : r.use_ = .command) (en : (m.hq r.inst 0).en = true) (empty : m.cmdsOf r.inst = [])
    {d : Bytes} (sound : (cmdOf d).bad = none) (last : ((m.hq r.inst 0).head + 1) % 2 ^ 16 = (m.hq r.inst 0).tail) :
    mHostReadCompletion k d m = ((m.dropRead k).setCmds r.inst [cmdOf d]).setHq r.inst 0
      { m.hq r.inst 0 with head := (m.hq r.inst 0).tail } := by
  have current : ¬ r.gen ≠ (m.dropRead k).gen r.inst := not_not_intro gen
  have running : (m.dropRead k).isolated r.inst = false := open_
  have queue : (m.dropRead k).hq r.inst 0 = m.hq r.inst 0 := rfl
  have commands : (m.dropRead k).cmdsOf r.inst = [] := empty
  rw [mHostReadCompletion, read]
  simp only [if_neg current, running, queue, en, use_, Bool.not_true, Bool.false_eq_true, if_false, commands, List.nil_append, last]
  have one (x : HQueue) : (((m.dropRead k).setCmds r.inst [cmdOf d]).setHq r.inst 0 x).cmdsOf r.inst = [cmdOf d] := SMap.getD_set_same ..
  refine Module.pump_idle (fun c mem => ?_) (by rw [Module.hq_setHq_same])
  rw [one, List.mem_singleton] at mem
  rw [mem, sound]

/-- The module once a frame has left its HP queue for the next posted buffer. -/
def Module.posted (m : Module) (i : Nat) (rest : List Copy) (more : List (Nat × Nat)) : Module :=
  ({ m.setQueue (.hp i) rest with host := { m.host with bufs := m.host.bufs.set i more } } : Module).setHq i 2
    { m.hq i 2 with head := ((m.hq i 2).head + 1) % 2 ^ 16 }

/-- R327: the oldest frame of an HP queue goes into the next posted buffer. -/
theorem mReceiveDelivery_delivers {m : Module} {i d a : Nat} {c : Copy} {rest : List Copy} {more : List (Nat × Nat)}
    (front : m.queue (.hp i) = c :: rest) (posted : m.host.bufs.getD i [] = (d, a) :: more) (on : m.insOn = true) (en : (m.hq i 2).en = true)
    (room : m.cqRoom i = true) (open_ : m.isolated i = false) (fits : c.bytes.length ≤ (m.hq i 2).aux % 2 ^ 15)
    (reach : m.reachable i a c.bytes.length true = true) :
    mReceiveDelivery i m = (((m.posted i rest more).hostPut i a c.bytes).insCnt 2).complete i d 0 true (c.ts % 2 ^ 32)
      (c.bytes.length % 2 ^ 14 + c.inp * 2 ^ 14 + c.vid * 2 ^ 18 + b2n c.tagged * 2 ^ 30) true := by
  have goes : ¬ ((!m.insOn) = true ∨ (!(m.hq i 2).en) = true ∨ (!m.cqRoom i) = true ∨ m.isolated i = true) := by
    simp [on, en, room, open_]
  rw [mReceiveDelivery, front, posted]
  simp only [if_neg goes, reach, Nat.not_lt.mpr fits, decide_false, Bool.false_eq_true, if_false, if_true]
  rfl

/-- R328: the oldest frame that waits for a ring leaves, and the ring's producer follows it. -/
theorem mExportFrameWrite_writes {m : Module} {i v sq : Nat} {rest : List Nat} {r : VRate} {cd : Curd}
    (pend : (m.hq i (4 + v)).pend = sq :: rest) (rate : m.vat.rates.get? v = some r) (on : m.insOn = true)
    (en : (m.hq i (4 + v)).en = true) (open_ : m.isolated i = false)
    (room : ringDist (m.hq i (4 + v)).head (m.hq i (4 + v)).tail < 2 ^ (m.hq i (4 + v)).log2) (held : (r.held fun cd => cd.seq == sq) = some cd)
    {a : Nat} (slot : (m.hq i (4 + v)).base + (m.hq i (4 + v)).head % 2 ^ (m.hq i (4 + v)).log2 * (ceilDiv (32 + 8 * r.chans.length) 64 * 64) = a)
    (frame : m.reachable i a (32 + 8 * r.chans.length) true = true) (producer : m.reachable i (m.hq i (4 + v)).aux 8 true = true)
    (poison : List Nat) :
    mExportFrameWrite i v .clean poison m =
      (((m.hostPut i a (m.curdHeader v cd ++ m.curdChans v cd 0 r.chans.length [])).hostPut i (m.hq i (4 + v)).aux
        (leBytes 8 ((m.hq i (4 + v)).written + 1))).setHq i (4 + v) { m.hq i (4 + v) with
          pend := rest, head := ((m.hq i (4 + v)).head + 1) % 2 ^ 16, written := (m.hq i (4 + v)).written + 1 }).insCnt 4 := by
  have clean (a b c i e : Nat) : m.readReport .clean a b c i e = m := rfl
  rw [mExportFrameWrite, pend, rate]
  simp only [on, en, open_, Nat.not_le.mpr room, held, clean, slot, frame, producer, Bool.not_true, Bool.false_eq_true, or_self, if_false,
    Bool.and_self, if_true, ReadErr.isUe]

/-- R327, R328, R338: what a host read brings, and the frames that leave. -/
theorem hostTransfersClaim : HostTransfersClaim := by
  refine ⟨fun s k d r read => ⟨fun old => ?_, fun gen open_ n use_ => ⟨fun en => ?_, ?_⟩, fun gen open_ use_ en empty sound last => ?_⟩,
    fun s i d a c rest more front posted on en room open_ fits reach cq h => ?_,
    fun s i v sq rest poison r cd pend rate on en open_ room held => ?_⟩
  · refine completes_of_upd (f := mHostReadCompletion k d) rfl ?_
    have late : r.gen ≠ (s.m.dropRead k).gen r.inst := old
    rw [mHostReadCompletion, read]
    simp only [if_pos late]
    exact ⟨rfl, rfl, rfl⟩
  · refine completes_of_upd (f := mHostReadCompletion k d) rfl ?_
    rw [(Module.descriptor_ends read gen open_ use_ d).1 en]
    exact ⟨rfl, SMap.getD_set_same ..⟩
  · refine completes_of_upd (f := mHostAccessTimeout k) rfl ?_
    rw [(Module.descriptor_ends read gen open_ use_ d).2]
    exact ⟨rfl, SMap.getD_set_same ..⟩
  · refine completes_of_upd (f := mHostReadCompletion k d) rfl ?_
    rw [Module.command_arrives read gen open_ use_ en empty sound last, Module.hq_settle, Module.hq_setHq_same]
    exact ⟨SMap.getD_set_same .., rfl⟩
  · have same : s.m.SameReach (s.m.posted i rest more) := .of_regs rfl rfl
    have queue : (((s.m.posted i rest more).hostPut i a c.bytes).insCnt 2).hq i 1 = (s.m.hostPut i a c.bytes).hq i 1 := by
      rw [Module.hq_insCnt, Module.hq_hostPut, Module.hq_hostPut]
      exact Module.hq_setHq_other _ i (by decide) _
    have left : (s.m.posted i rest more).queue (.hp i) = rest := SMap.getD_putQ_same (fun _ => h) i
    have entry := Module.complete_reaches ((same.hostPut i a c.bytes).insCnt (k := 2) (by decide)) queue (same.out_hostPut rfl i a c.bytes)
    refine completes_of_upd (f := mReceiveDelivery i) rfl ?_
    rw [mReceiveDelivery_delivers front posted on en room open_ fits reach, entry ?_, Module.hq_hostPut]
    · rw [Module.hq_settle, Module.hq_settle, Module.hq_setHq_same, Module.hq_setHq_other _ _ (by decide), Module.settle_out]
      refine ⟨?_, ?_, ?_, rfl, Module.out_setHq ..⟩
      · exact ((s.m.posted i rest more).queue_hostPut i a c.bytes (.hp i)).trans left
      · exact (congrArg (fun b : SMap (List (Nat × Nat)) => b.getD i []) (Module.bufs_hostPut ..)).trans (SMap.getD_set_same ..)
      · exact congrArg HQueue.head ((Module.hq_hostPut ..).trans (Module.hq_setHq_same ..))
    · rw [Module.hq_hostPut, Module.hostPut_eq]
      exact cq
  · intro q n a frame producer
    refine completes_of_upd (f := mExportFrameWrite i v .clean poison) rfl ?_
    rw [mExportFrameWrite_writes pend rate on en open_ room held rfl frame producer, Module.hq_settle, Module.settle_out, Module.hq_insCnt,
      Module.out_insCnt, Module.hq_setHq_same, Module.out_setHq]
    exact ⟨rfl, rfl⟩

/-- Settles O56: each command by the branch that its hypotheses choose; one fetch at a time is assumption 77, the receive head
assumption 78, host bytes are operands by assumption 8, and time runs on to the interrupt by assumption 6. -/
theorem hostQueues : Obligations.HostQueues := ⟨hostCommandsClaim, doorbellsClaim, hostTransfersClaim⟩

end Sys2Proof.Machine
end

section
/-!
PROOFS. The overrun watchdog, the progress mark and the task commands (R298, R303, R306, R307, R315).
-/

namespace Sys2Proof.Machine
open Sys2Proof.Claims

/-! ### What records of decisions leave alone -/

/-- Two modules with one set of contexts, one culture and the tasks alike. -/
def Module.SameCycles (m n : Module) : Prop := n.engines = m.engines ∧ n.cul = m.cul ∧ n.ladle.tasks = m.ladle.tasks

theorem Module.SameCycles.refl (m : Module) : m.SameCycles m := ⟨rfl, rfl, rfl⟩

section
variable {a m n : Module}

theorem Module.SameCycles.trans (first : a.SameCycles m) (second : m.SameCycles n) : a.SameCycles n :=
  ⟨second.1.trans first.1, second.2.1.trans first.2.1, second.2.2.trans first.2.2⟩

theorem Module.SameCycles.ite {P : Prop} [Decidable P] (first : a.SameCycles m) (second : a.SameCycles n) :
    a.SameCycles (if P then m else n) := by
  split <;> assumption

theorem Module.SameCycles.of_events (h : m.ExceptEvents n) : m.SameCycles n := by
  obtain ⟨_, _, rfl⟩ := h
  exact ⟨rfl, rfl, rfl⟩

variable (same : m.SameCycles n)
include same

theorem Module.SameCycles.ctx? (e c : Nat) : n.ctx? e c = m.ctx? e c := by
  rw [Module.ctx?, Module.engine, same.1]; rfl

theorem Module.SameCycles.engine (e : Nat) : n.engine e = m.engine e := by
  rw [Module.engine, same.1]; rfl

theorem Module.SameCycles.task (t : Nat) : n.task t = m.task t := by
  rw [Module.task, same.2.2]; rfl

theorem Module.SameCycles.taskRec (t : Nat) : n.taskRec t = m.taskRec t := by
  rw [Module.taskRec, same.2.1]; rfl

theorem Module.SameCycles.waiters (t ct : Nat) : n.waiters t ct = m.waiters t ct :=
  Module.waiters_congr same.2.1 (fun u => by rw [same.task]) t ct

end

theorem Module.sameCycles_trace (m : Module) (typ cause t ct e c detail : Nat) : m.SameCycles (m.trace typ cause t ct e c detail) := by
  unfold Module.trace Module.traceWords
  exact .ite (.refl m) (.ite ⟨rfl, rfl, rfl⟩ (.ite ⟨rfl, rfl, rfl⟩ ⟨rfl, rfl, rfl⟩))

theorem Module.sameCycles_noRecord (m : Module) (t ct : Nat) : m.SameCycles (m.noRecord t ct) := by
  unfold Module.noRecord
  rcases m.red.forward.get? (m.taskInst t) with _ | j
  · exact .refl m
  · exact .ite ⟨rfl, rfl, rfl⟩ (.refl m)

theorem Module.sameCycles_adv (m : Module) (d : Nat) : m.SameCycles (m.adv d) := ⟨m.adv_engines d, m.adv_cul d, by rw [m.adv_ladle d]⟩

/-! ### Acts of a task outside every group (R293, R303) -/

theorem Module.act_report_ungrouped {m : Module} {t : Nat} {r : TaskRec} (known : m.taskRec t = some r) (alone : r.groupEn = false) (ct : Nat) :
    m.act (.report t ct) = (m, []) := by
  have none : m.taskGroup t = none := by
    rw [Module.taskGroup, known]
    simp [alone]
  simp only [Module.act, none]

/-- Fewer open cycles wait no more than more of them did. -/
theorem Module.waiters_nil_of_fewer {m n : Module} (cul : n.cul = m.cul) (fewer : ∀ u, ∀ o ∈ (n.task u).opens, o ∈ (m.task u).opens)
    {t ct : Nat} (alone : m.waiters t ct = []) : n.waiters t ct = [] := by
  rw [Module.waiters, List.map_eq_nil_iff, List.filter_eq_nil_iff] at alone ⊢
  rw [cul]
  rintro ⟨u, r⟩ mem waits
  refine alone (u, r) mem ?_
  obtain ⟨o, open_, rest⟩ := List.any_eq_true.mp waits
  exact List.any_eq_true.mpr ⟨o, fewer u o open_, rest⟩

/-- The task without the open cycle of an instant. -/
def TaskSt.without (ct : Nat) (x : TaskSt) : TaskSt := { x with opens := x.opens.filter (·.ct != ct) }

/-- What an attempt's end leaves of the tasks: the open cycles, and a task that runs nothing. -/
theorem Module.endAttempt_tasks (m : Module) (t : Nat) (o : OpenCycle) (u : Nat) :
    ((m.endAttempt t o).task u).opens = (m.task u).opens ∧ ((m.task u).running = none → ((m.endAttempt t o).task u).running = none) ∧
      (m.endAttempt t o).cul = m.cul := by
  unfold Module.endAttempt
  split
  · rw [Module.endCycle, (Module.SameCycles.of_events (Module.events_wr _ _ _)).task, Module.task_modTask]
    split
    · rename_i here
      subst here
      exact ⟨rfl, fun _ => rfl, rfl⟩
    · exact ⟨rfl, id, rfl⟩
  · exact ⟨rfl, id, rfl⟩

/-- The cancellation of an open cycle that no other waits on, of a task outside every group (R293, R315). -/
theorem Module.doActs_cancelOpen {m : Module} {t ct : Nat} {o : OpenCycle} {r : TaskRec} (known : m.taskRec t = some r)
    (outside : r.groupEn = false) (found : ((m.task t).opens.find? fun o => o.ct == ct) = some o) (alone : m.waiters t ct = [])
    (cause : Nat) :
    ((m.doActs [.cancelOpen t ct cause]).task t).opens = (m.task t).opens.filter (fun o => o.ct != ct) ∧
      ((m.task t).running = none → ((m.doActs [.cancelOpen t ct cause]).task t).running = none) := by
  obtain ⟨k, hk⟩ : ∃ k : Module, k = (m.modTask t (TaskSt.without ct)).endAttempt t o := ⟨_, rfl⟩
  obtain ⟨q, hq⟩ : ∃ q : Module, q = ((k.trace 4 cause t ct 0 0 0).bump (R.SCH_CNT_CNT 5)).noRecord t ct := ⟨_, rfl⟩
  have attempt (u : Nat) := (m.modTask t (TaskSt.without ct)).endAttempt_tasks t o u
  have same : k.SameCycles q := hq ▸ ((k.sameCycles_trace ..).trans (.of_events (Module.events_bump _ _))).trans (Module.sameCycles_noRecord ..)
  have own (u : Nat) : (q.task u).opens = if u = t then (m.task t).opens.filter (fun o => o.ct != ct) else (m.task u).opens := by
    rw [same.task, hk, (attempt u).1, Module.task_modTask]
    split <;> rfl
  have cul : q.cul = m.cul := by rw [same.2.1, hk, (attempt t).2.2]; rfl
  have cancels : m.act (.cancelOpen t ct cause) = (q, [.report t ct, .chain t ct]) := by
    simp only [Module.act, found, hq, hk]
    rfl
  have reported : q.act (.report t ct) = (q, []) :=
    Module.act_report_ungrouped (by rw [Module.taskRec, cul]; exact known) outside ct
  have chained : q.act (.chain t ct) = (q, []) := by
    refine Module.act_chain_of_alone (Module.waiters_nil_of_fewer cul (fun u o mem => ?_) alone)
    rw [own] at mem
    split at mem
    · rename_i here
      exact here ▸ (List.mem_filter.mp mem).1
    · exact mem
  have done : m.doActs [.cancelOpen t ct cause] = q := by
    rw [Module.doActs, show actFuel = 999997 + 3 from rfl, Module.run_cons, cancels, List.append_nil, Module.run_cons_of_quiet reported,
      Module.run_cons_of_quiet chained, Module.run_nil]
  rw [done]
  refine ⟨(own t).trans (if_pos rfl), fun idle => ?_⟩
  rw [same.task, hk]
  refine (attempt t).2.1 ?_
  rw [Module.task_modTask, if_pos rfl]
  exact idle

/-- The task with one more overrun in a row. -/
def TaskSt.overran (x : TaskSt) : TaskSt := { x with consecOvr := min 255 (x.consecOvr + 1) }

/-- An overrun below OVR_LIMIT, of a task outside every group, counts and ends there (R303). -/
theorem Module.overrun_counts {m : Module} {t ct : Nat} {r : TaskRec} (known : m.taskRec t = some r) (outside : r.groupEn = false)
    (alone : m.waiters t ct = []) (below : min 255 ((m.task t).consecOvr + 1) < r.ovrLimit) (cause e c : Nat) :
    ∃ q, m.SameCycles q ∧ m.overrun t ct cause e c = q.modTask t TaskSt.overran := by
  let k : Module := if (m.taskRec t).any (·.pclass) then
      { m with red := { m.red with overruns := (m.red.overruns.filter fun x => decide (m.mono < x + 1000000000 * nsUnit)) ++ [m.mono] } }
    else m
  obtain ⟨q, hq⟩ : ∃ q : Module, q = ((((k.trace 5 cause t ct e c 0).bump (R.SCH_CNT_CNT 6)).bump (R.SCH_TASK_STAT3_OVR_CNT t)).flag
    (R.SCH_TASK_STAT0_OVR_STK t)).noRecord t ct := ⟨_, rfl⟩
  have marked : m.SameCycles k := .ite ⟨rfl, rfl, rfl⟩ (.refl m)
  have counted : (k.trace 5 cause t ct e c 0).ExceptEvents ((((k.trace 5 cause t ct e c 0).bump (R.SCH_CNT_CNT 6)).bump
      (R.SCH_TASK_STAT3_OVR_CNT t)).flag (R.SCH_TASK_STAT0_OVR_STK t)) :=
    ((Module.events_bump _ _).trans (Module.events_bump _ _)).trans (Module.events_wr _ _ _)
  have same : m.SameCycles q :=
    hq ▸ ((marked.trans (k.sameCycles_trace ..)).trans (.of_events counted)).trans (Module.sameCycles_noRecord ..)
  have record := (same.taskRec t).trans known
  have quiet : q.act (.consec t) = (q.modTask t TaskSt.overran, []) := by
    have few : ¬ ((q.modTask t TaskSt.overran).task t).consecOvr ≥ r.ovrLimit := by
      rw [Module.task_modTask, if_pos rfl, same.task]
      exact Nat.not_le.mpr below
    simp only [Module.act, record]
    exact congrArg (Prod.mk _) (if_neg few)
  refine ⟨q, same, ?_⟩
  have unfolds : m.overrun t ct cause e c = q.doActs [.report t ct, .chain t ct, .consec t] := by rw [hq]; rfl
  rw [unfolds, Module.doActs, show actFuel = 999997 + 3 from rfl, Module.run_cons_of_quiet (Module.act_report_ungrouped record outside ct),
    Module.run_cons_of_quiet (Module.act_chain_of_alone ((same.waiters t ct).trans alone)), Module.run_cons, quiet]
  exact Module.run_nil _ _

/-! ### A cycle that is aborted (R47) -/

theorem Module.abortCtx_eq {m : Module} {e c : Nat} {x : Ctx} (held : m.ctx? e c = some x) :
    m.abortCtx e c = ((m.freeCtx e c).endCycle x.task x.ct).bump (R.PRS_DISC_CNT_CNT 0) := by
  rw [Module.abortCtx, held]

/-- Of the tasks, an abort ends the dispatched cycle of its own. -/
theorem Module.abortCtx_tasks {m : Module} {e c : Nat} {x : Ctx} (held : m.ctx? e c = some x) (u : Nat) :
    ((m.abortCtx e c).task u).opens = (m.task u).opens ∧ ((m.abortCtx e c).task u).consecOvr = (m.task u).consecOvr ∧
      ((m.abortCtx e c).task x.task).running = none ∧ (m.abortCtx e c).cul = m.cul := by
  have freed := m.pressTasks_freeCtx e c
  have running := (m.freeCtx e c).running_endCycle x.task x.ct
  rw [Module.abortCtx_eq held, (Module.SameCycles.of_events (Module.events_bump _ _)).task,
    (Module.SameCycles.of_events (Module.events_bump _ _)).task]
  have ended : ((m.freeCtx e c).endCycle x.task x.ct).task u = if u = x.task then _ else (m.freeCtx e c).task u :=
    ((Module.SameCycles.of_events (Module.events_wr _ _ _)).task u).trans (Module.task_modTask ..)
  rw [ended, Module.task_of_pressTasks freed, Module.task_of_pressTasks freed]
  refine ⟨?_, ?_, running, congrArg (·.2.1) freed⟩
  · split
    · rename_i here
      rw [here]
    · rfl
  · split
    · rename_i here
      rw [here]
    · rfl

theorem Module.ctx?_abortCtx {m : Module} {e c : Nat} {x : Ctx} (held : m.ctx? e c = some x) (rising : SMap.rising (m.engine e).ctxs = true) :
    (m.abortCtx e c).ctx? e c = none := by
  rw [Module.abortCtx_eq held]
  exact Module.ctx?_freeCtx rising c

/-! ### The watchdog (R298, R303) -/

theorem mBudgetOverrun_eq {m : Module} {e c f : Nat} {x : Ctx} {r : TaskRec} (held : m.ctx? e c = some x) (first : x.firstAt = some f)
    (known : m.taskRec x.task = some r) :
    mBudgetOverrun e c m = ((m.reachMono (f + r.budgetNs * nsUnit)).abortCtx e c).overrun x.task x.ct 1 e c := by
  rw [mBudgetOverrun, held]
  simp only [first, known]

theorem mDeadlineExpiry_open {m : Module} {t ct : Nat} {o : OpenCycle} {r : TaskRec} (known : m.taskRec t = some r)
    (idle : (m.task t).running = none) (found : ((m.task t).opens.find? fun o => o.ct == ct) = some o) (waits : o.ready = false) :
    mDeadlineExpiry t ct m = (m.reach (m.nsOfTs (ct % 2 ^ 32) + r.deadlineNs)).doActs [.cancelOpen t ct 3] := by
  simp only [mDeadlineExpiry, known, idle, Option.bind_none, mDeadlineExpiry.mOpen, found, waits, Bool.false_eq_true, if_false]

theorem mProgressMark_marks {m : Module} {e c f : Nat} {x : Ctx} {r : TaskRec} (held : m.ctx? e c = some x) (first : x.firstAt = some f)
    (known : m.taskRec x.task = some r) (protection : x.protectionClass = true) :
    mProgressMark e c m =
      (m.reachMono (f + r.budgetNs * nsUnit * m.rd R.SCH_CTRL_PROG_PCT / 100)).setCtx e c { x with missed := true } := by
  rw [mProgressMark, held]
  simp only [first, known, protection, if_true]

/-- R298, R303: the watchdog, for a task outside every group whose cycle nothing waits on. -/
theorem watchdogClaim : WatchdogClaim := by
  intro s t r known outside
  refine ⟨fun e c x f held own first alone rising below => ?_, fun ct o idle found waits alone => ?_,
    fun e c x f held own first protection still => ?_⟩
  · subst own
    obtain ⟨k, hk⟩ : ∃ k : Module, k = s.m.reachMono (f + r.budgetNs * nsUnit) := ⟨_, rfl⟩
    have reached : s.m.SameCycles k := hk ▸ s.m.sameCycles_adv _
    have here := (reached.ctx? e c).trans held
    have aborted (u : Nat) := Module.abortCtx_tasks here u
    obtain ⟨-, count, running, cul⟩ := aborted x.task
    have nobody : (k.abortCtx e c).waiters x.task x.ct = [] := by
      rw [Module.waiters_congr cul (fun u => (aborted u).1), reached.waiters, alone]
    obtain ⟨q, same, counts⟩ := Module.overrun_counts (m := k.abortCtx e c) (t := x.task) (ct := x.ct)
      (by rw [Module.taskRec, cul]; exact (reached.taskRec x.task).trans known) outside nobody
      (by rw [count, reached.task]; exact below) 1 e c
    refine completes_of_upd (f := mBudgetOverrun e c) rfl ?_
    rw [mBudgetOverrun_eq held first known, ← hk, counts, Module.ctx?_settle, Module.task_settle, Module.task_modTask, if_pos rfl, same.task]
    refine ⟨?_, running, congrArg (fun n => min 255 (n + 1)) (count.trans (by rw [reached.task]))⟩
    exact (same.ctx? e c).trans (Module.ctx?_abortCtx here (by rw [reached.engine]; exact rising))
  · have reached := s.m.sameCycles_adv ((s.m.nsOfTs (ct % 2 ^ 32) + r.deadlineNs) * nsUnit - s.m.clk)
    refine completes_of_upd (f := mDeadlineExpiry t ct) rfl ?_
    rw [mDeadlineExpiry_open known idle found waits, Module.task_settle, Module.reach]
    refine (Module.doActs_cancelOpen (o := o) ((reached.taskRec t).trans known) outside ?_ ((reached.waiters t ct).trans alone) 3).1.trans ?_
    · rw [reached.task]; exact found
    · rw [reached.task]
  · subst own
    refine completes_of_upd (f := mProgressMark e c) rfl ?_
    rw [mProgressMark_marks held first known protection, Module.ctx?_settle, Module.ctx?_setCtx, if_pos ⟨rfl, rfl⟩]
    exact ⟨rfl, Module.mono_reachMono still _⟩

/-! ### Task commands (R306, R307) -/

theorem Module.rd_taskResult (m : Module) {r : Nat} (listed : r % 8 ≠ 0) : (m.taskResult r).rd R.SCH_TASK_CMD_STAT_RESULT = r % 8 :=
  (Module.rd_wr_other _ _ (by decide)).trans (Module.rd_wr_listed _ _ listed)

theorem Module.task_taskResult (m : Module) (r t : Nat) : (m.taskResult r).task t = m.task t := rfl

section
variable {m : Module} {t : Nat} {r : TaskRec} (run : m.mode ≠ .reset) (known : m.taskRec t = some r) (lives : (m.task t).state ≠ .stopped)
include run known lives

theorem Module.taskCmd_acts (f : Module → Module) : m.taskCmd t f = f m := by
  rw [Module.taskCmd, if_neg run, known]
  exact if_neg lives

theorem mTaskDisable_idle (idle : (m.task t).opens = []) : mTaskDisable t m = (m.setTask t { m.task t with
    state := if (m.task t).state ≠ .disabled ∧ (m.task t).running.isSome = true then .disabling else .disabled
    enablePending := false }).taskResult 1 := by
  have state : (if (m.task t).state = .disabled then TState.disabled else if (m.task t).running.isSome then .disabling else .disabled) =
      if (m.task t).state ≠ .disabled ∧ (m.task t).running.isSome = true then .disabling else .disabled := by
    by_cases already : (m.task t).state = .disabled <;> simp [already]
  rw [mTaskDisable, Module.taskCmd_acts run known lives]
  simp only [idle, List.map_nil, state]
  rfl

theorem mTaskCancel_open {o : OpenCycle} (one : (m.task t).opens = [o]) (idle : (m.task t).running = none) :
    mTaskCancel t m = (m.doActs [.cancelOpen t o.ct 4]).taskResult 1 := by
  rw [mTaskCancel, Module.taskCmd_acts run known lives]
  simp only [one, idle, List.map_cons, List.map_nil, Option.bind_none]

end

/-- R298, R306, R307, R315: SLOW_CLR, the trace's oldest record, and the task commands. -/
theorem taskCommandsClaim : TaskCommandsClaim := by
  refine ⟨fun s mask run wf => ?_, fun s => becomes_of_upd (f := mTracePop) rfl rfl, fun s t r run known lives wf =>
    ⟨?_, fun idle => ?_, fun o one idle outside alone => ?_⟩⟩
  · refine completes_of_upd (f := mSlowClr mask) rfl ?_
    have small : s.m.rd R.SCH_SLOW_SLOW &&& (2 ^ 32 - 1 - mask % 2 ^ 32) < 2 ^ 32 :=
      Nat.and_lt_two_pow _ (by omega)
    rw [mSlowClr, if_neg run, Module.rd_settle, Module.rd_wr_same _ (Module.rising_regs_of_wf wf)]
    exact Nat.mod_eq_of_lt small
  · refine completes_of_upd (f := mTaskEnable t) rfl ?_
    rw [mTaskEnable, Module.taskCmd_acts run known lives]
    by_cases ending : (s.m.task t).state = .disabling
    · simp only [if_pos ending, Module.task_settle, Module.rd_settle]
      exact ⟨Module.task_setTask_same .., Module.rd_taskResult _ (by decide)⟩
    · simp only [if_neg ending, Module.task_settle, Module.rd_settle]
      exact ⟨Module.task_setTask_same .., Module.rd_taskResult _ (by decide)⟩
  · refine completes_of_upd (f := mTaskDisable t) rfl ?_
    rw [mTaskDisable_idle run known lives idle, Module.task_settle, Module.rd_settle]
    exact ⟨Module.rd_taskResult _ (by decide), Module.task_setTask_same ..⟩
  · refine completes_of_upd (f := mTaskCancel t) rfl ?_
    have cancelled := (Module.doActs_cancelOpen known outside (o := o) (by rw [one]; simp) alone 4).1
    rw [mTaskCancel_open run known lives one idle, Module.task_settle, Module.rd_settle, Module.task_taskResult, cancelled, one]
    exact ⟨by simp, Module.rd_taskResult _ (by decide)⟩

/-- Settles O54: the acts that follow are quiet for a task outside every group whose cycle nothing waits on; the mark that moves the time
is assumption 74, and time runs on to an instant by assumption 6. -/
theorem taskControl : Obligations.TaskControl := ⟨watchdogClaim, taskCommandsClaim⟩

end Sys2Proof.Machine
end

section
/-!
PROOFS. Recording sessions and Haulato messages (R350, R351, R353, R355, R363, R364).
-/

namespace Sys2Proof.Machine
open Sys2Proof.Claims

/-! ### The sessions -/

theorem Module.sessions_setSess (m : Module) (k : Nat) (x : Session) : (m.setSess k x).acq.sessions.get? k = some x :=
  SMap.get?_set_same ..

theorem Module.acq_of_events {m n : Module} (h : m.ExceptEvents n) : n.acq = m.acq := by
  obtain ⟨_, _, rfl⟩ := h
  rfl

theorem Module.sessions_queueHaul (m : Module) (toIn : Bool) (h : HaulMsg) : (m.queueHaul toIn h).acq.sessions = m.acq.sessions := by
  unfold Module.queueHaul
  split <;> split <;> rfl

/-- Originating a message leaves the sessions alone. -/
theorem Module.sessions_sendHaul (m : Module) (typ group : Nat) (t : Option Nat) : (m.sendHaul typ group t).acq.sessions = m.acq.sessions :=
  (Module.sessions_queueHaul ..).trans (Module.sessions_queueHaul ..)

theorem Module.sessions_sendHaul_if (m : Module) (b : Bool) (typ group : Nat) (t : Option Nat) :
    (if b then m.sendHaul typ group t else m).acq.sessions = m.acq.sessions := by
  split
  · exact m.sessions_sendHaul typ group t
  · rfl

/-! ### Commands (R350, R351, R355) -/

theorem Module.acq_sessResult (m : Module) (r : Nat) : (m.sessResult r).acq = m.acq := rfl

theorem Module.rd_sessResult (m : Module) {r : Nat} (listed : r % 8 ≠ 0) :
    (m.sessResult r).rd R.ACQ_SESS_CMD_STAT_RESULT = r % 8 ∧ (m.sessResult r).rd R.ACQ_SESS_CMD_STAT_DONE_FLG = 1 :=
  ⟨(Module.rd_wr_other _ _ (by decide)).trans (Module.rd_wr_listed _ _ listed), Module.rd_wr_listed _ _ (by decide)⟩

theorem Module.sessCmd_acts {m : Module} {k : Nat} {x : Session} (run : m.mode ≠ .reset) (known : m.acq.sessions.get? k = some x)
    (ready : m.ready 8 = true) (f : Session → Module) : m.sessCmd k f = f x := by
  rw [Module.sessCmd, if_neg run, known]
  exact if_pos ready

theorem Module.sessions_armSess {m : Module} {k : Nat} {x : Session} (known : m.acq.sessions.get? k = some x) :
    (m.armSess k).acq.sessions.get? k = some x.armed := by
  rw [Module.armSess, known]
  dsimp only
  rw [Module.sessions_sendHaul_if]
  exact m.sessions_setSess k _

/-- R350: an ARM of a session that does not run. -/
theorem Module.doArm_still {m : Module} {x : Session} (still : x.state = .idle ∨ x.state = .halted) (on : m.acqOn = true) (k : Nat) (b : Bool) :
    m.doArm k x b = (m.armSess k, 1) := by
  obtain state | state := still <;> simp [Module.doArm, state, on]

/-! ### A trigger that opens a record (R353, R354) -/

/-- The record that a software trigger opens. -/
theorem AcqRec.join_software (r : AcqRec) (remote : Bool) (origin : Nat) :
    (r.join 32 remote origin).trigG = r.trigG ∧ (r.join 32 remote origin).trig = r.trig ∧
      (r.join 32 remote origin).src = r.src ||| 1 ∧ (r.join 32 remote origin).recno = r.recno := by
  unfold AcqRec.join
  simp only [if_neg (show ¬ 32 < 32 by decide), if_true]
  split <;> exact ⟨rfl, rfl, rfl, rfl⟩

/-- R353: a software trigger opens a record in the first free directory entry. -/
theorem Module.openRec_software {m : Module} {k : Nat} {x : Session} {e : Nat}
    (free : ((List.range 64).find? fun e => (x.recs.get? e).isNone) = some e) (t origin g at_ : Nat) :
    ∃ y r, (m.openRec k x 32 t origin g at_).acq.sessions.get? k = some y ∧ y.state = .recording ∧ y.open_ = some e ∧
      y.recs.get? e = some r ∧ r.trigG = g ∧ r.trig = at_ ∧ r.src = 1 ∧ r.recno = x.recno ∧ y.recno = (x.recno + 1) % 2 ^ 32 ∧
      y.rows = x.rows := by
  rw [Module.openRec, free]
  dsimp only
  rw [Module.sessions_sendHaul_if, Module.acqEvent, Module.acq_of_events (Module.events_raiseIf ..)]
  refine ⟨_, _, Module.sessions_setSess .., rfl, rfl, SMap.get?_set_same .., ?_⟩
  rw [(AcqRec.join_software ..).1, (AcqRec.join_software ..).2.1, (AcqRec.join_software ..).2.2.1, (AcqRec.join_software ..).2.2.2]
  exact ⟨rfl, rfl, Nat.zero_or 1, rfl, rfl, rfl⟩

/-- R353: a trigger that finds the session running on rows it takes, with no record open. -/
theorem Module.acqTrigger_opens {m : Module} {k : Nat} {x : Session} (known : m.acq.sessions.get? k = some x) (running : x.running = true)
    (closed : x.open_ = none) {t : Nat} (row : x.armRow.getD (x.lastG + 1) ≤ gridAt (m.sessRate x) t) (cond origin : Nat) :
    m.acqTrigger k cond t origin =
      m.openRec k x cond t origin (gridAt (m.sessRate x) t) (gridNs (m.sessRate x) (gridAt (m.sessRate x) t)) := by
  rw [Module.acqTrigger, known]
  simp only [running, closed, Bool.not_true, Bool.false_eq_true, if_false, if_neg (Nat.not_lt.mpr row), Option.bind_none]

/-- Settles O24: each command's own branch. -/
theorem sessions : Obligations.Sessions := by
  intro s k x run known ready wf
  have acts := Module.sessCmd_acts run known ready
  refine ⟨fun own still on => ?_, fun own => ?_, fun e running closed row free => ?_, fun e r held shut idle => ?_⟩
  · refine completes_of_upd (f := mArm k) rfl ?_
    rw [mArm, acts, own, Module.doArm_still still on, Module.rd_settle, Module.rd_settle]
    exact ⟨Module.sessions_armSess known, Module.rd_sessResult _ (by decide)⟩
  · refine completes_of_upd (f := mDisarm k) rfl ?_
    rw [mDisarm, acts, own, Module.rd_settle, Module.settle_acq, if_neg Bool.false_ne_true, Module.acq_sessResult,
      Module.sessions_sendHaul_if]
    exact ⟨Module.sessions_setSess .., (Module.rd_sessResult _ (by decide)).1⟩
  · refine completes_of_upd (f := mTrigger k) rfl ?_
    rw [mTrigger, acts, running, Module.rd_settle, Module.settle_acq, Module.acq_sessResult, Module.acqTrigger_opens known running closed row]
    obtain ⟨y, r, held, state, opened, entry, row, at_, source, number, next, rows⟩ := Module.openRec_software (m := s.m) (k := k) free s.m.tns 0xFF
      (gridAt (s.m.sessRate x) s.m.tns) (gridNs (s.m.sessRate x) (gridAt (s.m.sessRate x) s.m.tns))
    exact ⟨(Module.rd_sessResult _ (by decide)).1, y, r, held, state, opened, entry, row, row.symm ▸ at_, source, number, next, rows⟩
  · refine completes_of_upd (f := mRelease k e) rfl ?_
    have eq : mRelease k e s.m = (s.m.setSess k { x with recs := x.recs.erase e }).sessResult 1 := by
      rw [mRelease, acts]
      simp [held, shut, idle]
    rw [eq, Module.rd_settle]
    exact ⟨Module.sessions_setSess .., (Module.rd_sessResult _ (by decide)).1⟩

/-! ### Haulato messages (R363, R364) -/

/-- A message that finds room in its queue. -/
theorem Module.queueHaul_room {m : Module} (toIn : Bool) (h : HaulMsg) (inRoom : m.acq.inQ.length < 16) (outRoom : m.acq.outQ.length < 16) :
    (m.queueHaul toIn h).acq.inQ = (if toIn then m.acq.inQ ++ [h] else m.acq.inQ) ∧
      (m.queueHaul toIn h).acq.outQ = (if toIn then m.acq.outQ else m.acq.outQ ++ [h]) := by
  cases toIn <;> simp [Module.queueHaul, Nat.not_le.mpr inRoom, Nat.not_le.mpr outRoom]

/-- Without sessions a message has no part to act on. -/
theorem Module.haulAct_none {m : Module} (none : m.acq.sessions = []) (typ group origin t : Nat) : m.haulAct typ group origin t = m := by
  rw [Module.haulAct, none]
  exact ite_self m

/-- The message that a relay sends on (R363). -/
def Module.relayed (m : Module) (onIn : Bool) (b : Bytes) (t : Nat) : HaulMsg :=
  ⟨b.take 10 ++ beBytes 4 ((if onIn then beAt b 10 4 + m.rd R.SYS_HAUL_IN_DLY_NS else beAt b 10 4) % 2 ^ 32) ++
    beBytes 1 (beAt b 14 1 + 1) ++ beBytes 1 (beAt b 15 1), false, some t, 0, 0⟩

/-- R363: a sound message of another module is queued on the other pair; what else it does leaves the queues alone. -/
theorem mHaulatoMessage_relays {m : Module} {onIn : Bool} {b : Bytes} {t : Nat} (run : m.mode ≠ .reset) (loaded : m.mode ≠ .load)
    (ready : m.ready 8 = true) (len : b.length = 18) (sync : beAt b 0 1 = 0xA5) (crc : crc16 (slice b 1 15) = beAt b 16 2)
    (hops : beAt b 14 1 < 16) (other : beAt b 2 1 % 16 ≠ m.rd R.ACQ_CTRL_HAUL_ID) (none : m.acq.sessions = []) :
    (mHaulatoMessage onIn b t m).acq.inQ = ((m.reach t).queueHaul (!onIn) (m.relayed onIn b t)).acq.inQ ∧
      (mHaulatoMessage onIn b t m).acq.outQ = ((m.reach t).queueHaul (!onIn) (m.relayed onIn b t)).acq.outQ := by
  have goes : ¬ (m.mode = .reset ∨ m.mode = .load ∨ (!m.ready 8) = true) := by simp [run, loaded, ready]
  have same (f : Fld) : (m.reach t).rd f = m.rd f := Module.rd_congr (m.reach_regs t) f
  have sound : ¬ (b.length ≠ 18 ∨ beAt b 0 1 ≠ 0xA5 ∨ crc16 (slice b 1 15) ≠ beAt b 16 2 ∨ 16 ≤ beAt b 14 1 ∨
      beAt b 2 1 % 16 = m.rd R.ACQ_CTRL_HAUL_ID) := by
    simp [len, sync, crc, hops, other]
  rw [mHaulatoMessage, if_neg goes]
  simp only [same, if_neg sound]
  generalize hk : (m.reach t).queueHaul (!onIn) _ = k
  have queued : k = (m.reach t).queueHaul (!onIn) (m.relayed onIn b t) := hk.symm
  have empty : k.acq.sessions = [] := by
    rw [queued, Module.sessions_queueHaul, show (m.reach t).acq = m.acq from m.adv_acq _, none]
  rw [← queued]
  split
  · exact ⟨rfl, rfl⟩
  · rw [Module.haulAct_none (by exact empty)]
    exact ⟨rfl, rfl⟩

/-- R364: the first message of OUT leaves where it may start. -/
theorem mHaulatoSend_sends {m : Module} {t : Nat} {h : HaulMsg} {rest : List HaulMsg} (run : m.mode ≠ .reset) (loaded : m.mode ≠ .load)
    (ready : m.ready 8 = true) (first : m.acq.outQ = h :: rest) (may : h.notBefore ≤ t) :
    mHaulatoSend false false t m =
      let sent := ((m.reach t).emit (.haulato 2 (m.haulBytes false h t))).acqCnt 9
      { sent with acq := { sent.acq with
        outQ := if h.own = true ∧ h.copy = 0 then rest ++ [{ h with copy := 1, notBefore := t + 10000 }] else rest } } := by
  have goes : ¬ (m.mode = .reset ∨ m.mode = .load ∨ (!m.ready 8) = true) := by simp [run, loaded, ready]
  have queue : (m.reach t).acq.outQ = h :: rest := by rw [show (m.reach t).acq = m.acq from m.adv_acq _, first]
  have found : (h :: rest).find? (fun h => decide (h.notBefore ≤ t)) = some h := List.find?_cons_of_pos (by simpa using may)
  rw [mHaulatoSend, if_neg goes]
  simp only [Bool.false_eq_true, if_false, queue, found, List.erase_cons_head]
  split <;> rfl

/-- Settles O25: a relay queues the message on the other pair, and the head of OUT leaves; what has left is the list of assumption 7. -/
theorem haulatoMessages : Obligations.HaulatoMessages := by
  refine ⟨fun s onIn b t run loaded ready len sync crc hops other none inRoom outRoom => ?_,
    fun s t h rest run loaded ready first may => ?_⟩
  · have acq : (s.m.reach t).acq = s.m.acq := s.m.adv_acq _
    obtain ⟨inQ, outQ⟩ := mHaulatoMessage_relays run loaded ready len sync crc hops other none (onIn := onIn) (t := t)
    obtain ⟨inRelay, outRelay⟩ := Module.queueHaul_room (m := s.m.reach t) (!onIn) (s.m.relayed onIn b t) (acq ▸ inRoom) (acq ▸ outRoom)
    refine completes_of_upd (f := mHaulatoMessage onIn b t) rfl ?_
    rw [Module.settle_acq, inQ, outQ, inRelay, outRelay, acq]
    cases onIn <;> exact ⟨rfl, rfl⟩
  · refine completes_of_upd (f := mHaulatoSend false false t) rfl ?_
    rw [mHaulatoSend_sends run loaded ready first may]
    exact ⟨congrArg (· ++ _) (s.m.adv_out _), rfl⟩

end Sys2Proof.Machine
end

section
/-!
PROOFS. The key commands (R446, R448, R449, R452, R456 to R458).
-/

namespace Sys2Proof.Machine
open Sys2Proof.Claims

/-! ### Slots and the command in progress -/

theorem Module.isOn_of_zero {m : Module} {f : Fld} (clear : m.rd f = 0) : m.isOn f = false := by
  rw [Module.isOn, clear]; rfl

theorem Module.slot_settle (m : Module) (k : Nat) : m.settle.slot k = m.slot k := SMap.getD_tidy ..

theorem Module.slot_setSlot_same (m : Module) (k : Nat) (x : KeySlot) : (m.setSlot k x).slot k = x := SMap.getD_set_same ..

theorem Module.slot_of_keys {m n : Module} (same : n.keys = m.keys) (k : Nat) : n.slot k = m.slot k :=
  congrArg (fun x : Keys => x.slots.getD k KeySlot.init) same

theorem Module.keys_keyEvent (m : Module) (num cause data : Nat) : (m.keyEvent num cause data).keys = m.keys := by
  have event : m.ExceptEvents (m.keyEvent num cause data) := Module.events_raiseIf ..
  obtain ⟨_, _, e⟩ := event
  rw [e]

theorem Module.persist_keyEvent (m : Module) (num cause data : Nat) : (m.keyEvent num cause data).persist = m.persist := by
  have event : m.ExceptEvents (m.keyEvent num cause data) := Module.events_raiseIf ..
  obtain ⟨_, _, e⟩ := event
  rw [e]

theorem Module.keeps_keyEvent (m : Module) {f : Fld} (above : 0xc00000 ≤ f.addr) (place : f.lsb < 32) (num cause data : Nat) :
    m.Keeps f (m.keyEvent num cause data) :=
  Module.keeps_raiseIf_above above place ..

/-- The slots as the end of a command leaves them: its own slot is no longer BUSY (R460). -/
theorem Module.slot_keyEnd {m : Module} {c : KeyCmd} (running : m.keys.cmd = some c) (result : Nat) :
    (m.keyEnd result).slot c.slot =
      { m.slot c.slot with state := if (m.slot c.slot).state = .busy then c.before else (m.slot c.slot).state } := by
  rw [Module.keyEnd, running]
  dsimp only
  split
  · exact m.slot_setSlot_same ..
  · rfl

theorem Module.persist_keyEnd (m : Module) (result : Nat) : (m.keyEnd result).persist = m.persist := by
  unfold Module.keyEnd
  split
  · rfl
  · dsimp only
    split <;> rfl

theorem Module.tns_keyEnd (m : Module) (result : Nat) : (m.keyEnd result).tns = m.tns := by
  unfold Module.keyEnd
  split
  · rfl
  · dsimp only
    split <;> rfl

/-! ### The end of a command (R458) -/

/-- No command is in progress, and the last one ended with success. -/
def Module.KeyDone (m : Module) : Prop :=
  m.keys.cmd = none ∧ m.rd R.KEY_CMD_STAT_BUSY = 0 ∧ m.rd R.KEY_CMD_STAT_RESULT = 1 ∧ m.rd R.KEY_CMD_STAT_DONE_FLG = 1

theorem Module.keyDone_keyEnd {m : Module} {c : KeyCmd} (running : m.keys.cmd = some c) (rising : SMap.rising m.regs = true) :
    (m.keyEnd 1).KeyDone := by
  have start : SMap.rising (if (m.slot c.slot).state = .busy then m.setSlot c.slot { m.slot c.slot with state := c.before }
      else m).regs = true := by
    split <;> exact rising
  rw [Module.keyEnd, running]
  dsimp only
  refine ⟨rfl, ?_, ?_, Module.rd_wr_listed _ _ (by decide)⟩
  · exact ((Module.rd_wr_other _ _ (by decide)).trans (Module.rd_wr_other _ _ (by decide))).trans
      (Module.rd_wr_same _ (by exact start) _ _)
  · exact (Module.rd_wr_other _ _ (by decide)).trans (Module.rd_wr_listed _ _ (by decide))

/-- What leaves the command and its status alone leaves it done. -/
theorem Module.KeyDone.of_keeps {m n : Module} (h : m.KeyDone) (cmd : n.keys.cmd = m.keys.cmd)
    (keeps : ∀ f : Fld, f.addr = 0xe0001c → f.lsb < 32 → m.Keeps f n) : n.KeyDone := by
  obtain ⟨ended, idle, result, flag⟩ := h
  exact ⟨cmd.trans ended, (keeps _ rfl (by decide)).2.trans idle, (keeps _ rfl (by decide)).2.trans result,
    (keeps _ rfl (by decide)).2.trans flag⟩

theorem Module.KeyDone.setSlot {m : Module} (h : m.KeyDone) (k : Nat) (x : KeySlot) : (m.setSlot k x).KeyDone :=
  h.of_keeps rfl fun _ _ _ => .same rfl

theorem Module.KeyDone.keyCnt {m : Module} (h : m.KeyDone) (k : Nat) : (m.keyCnt k).KeyDone :=
  h.of_keeps rfl fun f at_ place => m.keeps_wr _ (Fld.key_ne place (by simp [R.KEY_CNT_CNT])
    (.inl (by simp only [R.KEY_CNT_CNT]; omega)))

theorem Module.KeyDone.switchHalf {m : Module} (h : m.KeyDone) (k half : Nat) : (m.switchHalf k half).KeyDone := h.setSlot ..

theorem Module.KeyDone.newNonce {m : Module} (h : m.KeyDone) : m.newNonce.KeyDone := by
  rw [Module.newNonce_eq]
  split
  · exact h
  · refine h.of_keeps ?_ fun f at_ place => ?_
    · exact foldl_keeps (fun n => n.keys.cmd) (f := fun n w => n.wr (R.KEY_OTP_NONCE_NONCE w) (leAt (Module.freshBytes 8 m).1 (4 * w) 4))
        (l := List.range 8) (fun _ _ _ => rfl) { m with freeIdx := m.freeIdx + 8 }
    · have drawn : m.Keeps f { m with freeIdx := m.freeIdx + 8 } := .same rfl
      exact drawn.trans (.foldl (fun n w _ => n.keeps_wr _ (Fld.key_ne place (by simp [R.KEY_OTP_NONCE_NONCE])
        (.inl (by simp only [R.KEY_OTP_NONCE_NONCE]; omega)))) _)

theorem Module.KeyDone.settle {m : Module} (h : m.KeyDone) : m.settle.KeyDone := by
  obtain ⟨ended, idle, result, flag⟩ := h
  exact ⟨ended, (m.rd_settle _).trans idle, (m.rd_settle _).trans result, (m.rd_settle _).trans flag⟩

/-! ### The start of a command (R458) -/

/-- The module in which a command starts: its slot BUSY where the command is of one. -/
def Module.keyStarted (m : Module) (c : KeyCmd) : Module :=
  let n := if c.op ≤ 4 then m.setSlot c.slot { m.slot c.slot with state := .busy } else m
  { n with keys := { n.keys with cmd := some c } }.flag R.KEY_CMD_STAT_BUSY

theorem Module.keyStart_starts {m : Module} {inst : Nat} (run : m.mode ≠ .reset) (ready : m.ready 12 = true)
    (idle : m.rd R.KEY_CMD_STAT_BUSY = 0) (own : m.hostOwned (inst % 4096) = true) (joined : m.isolated (inst % 4096) = false)
    (reach : m.reachable (inst % 4096) (m.rd64 R.KEY_CMD_ADDR_LO_ADDR R.KEY_CMD_ADDR_HI_ADDR) 256 false = true)
    (op k : Nat) (dev : Bool) (b : Option Bytes) :
    m.keyStart op k dev inst b =
      m.keyStarted ⟨op, k % 1024, dev, inst % 4096, m.gen (inst % 4096), b, (m.slot (k % 1024)).state⟩ := by
  have goes : ¬ (m.mode = .reset ∨ (!m.ready 12) = true ∨ m.isOn R.KEY_CMD_STAT_BUSY = true) := by
    simp [run, ready, Module.isOn_of_zero idle]
  rw [Module.keyStart, if_neg goes]
  simp [own, joined, reach, Module.keyStarted]

theorem Module.busy_keyStarted (m : Module) (c : KeyCmd) : (m.keyStarted c).rd R.KEY_CMD_STAT_BUSY = 1 :=
  Module.rd_wr_listed _ _ (by decide)

theorem Module.slot_keyStarted_own {m : Module} {c : KeyCmd} (own : c.op ≤ 4) :
    (m.keyStarted c).slot c.slot = { m.slot c.slot with state := .busy } := by
  rw [Module.keyStarted, if_pos own]
  exact m.slot_setSlot_same ..

theorem Module.slot_keyStarted_none {m : Module} {c : KeyCmd} (other : ¬ c.op ≤ 4) (k : Nat) : (m.keyStarted c).slot k = m.slot k := by
  rw [Module.keyStarted, if_neg other]
  rfl

/-- A command of one slot, and one of none. -/
theorem completes_keyStarted {i : Instr} {s : State} {c : KeyCmd} {f : Module → Module} (runs : exec i s = s.upd f)
    (eq : f s.m = s.m.keyStarted c) (own : c.op ≤ 4) :
    completes i s fun m => m.slot c.slot = { s.m.slot c.slot with state := .busy } ∧ m.rd R.KEY_CMD_STAT_BUSY = 1 ∧
      m.keys.cmd = some c := by
  refine completes_of_upd runs ?_
  rw [eq, Module.slot_settle, Module.rd_settle]
  exact ⟨Module.slot_keyStarted_own own, Module.busy_keyStarted .., rfl⟩

theorem completes_keyStarted_none {i : Instr} {s : State} {c : KeyCmd} {f : Module → Module} (runs : exec i s = s.upd f)
    (eq : f s.m = s.m.keyStarted c) (other : ¬ c.op ≤ 4) :
    completes i s fun m => m.rd R.KEY_CMD_STAT_BUSY = 1 ∧ (∀ k, m.slot k = s.m.slot k) ∧ m.keys.cmd = some c := by
  refine completes_of_upd runs ?_
  rw [eq, Module.rd_settle]
  exact ⟨Module.busy_keyStarted .., fun k => (Module.slot_settle ..).trans (Module.slot_keyStarted_none other k), rfl⟩

/-! ### The commands at their completion -/

/-- An instant that is past changes nothing. -/
theorem Module.reach_past {m : Module} {t : Nat} (past : t * nsUnit ≤ m.clk) : m.reach t = m := by
  rw [Module.reach, Nat.sub_eq_zero_of_le past]
  unfold Module.adv
  simp

/-- R458: a command whose block is at hand, of the generation that it started in, with its reserved bytes 0. -/
theorem mKeyCommandDone_block {m : Module} {t : Nat} {c : KeyCmd} {b : Bytes} (running : m.keys.cmd = some c) (block : c.block = some b)
    (past : t * nsUnit ≤ m.clk) (gen : m.gen c.inst = c.gen) (joined : m.isolated c.inst = false)
    (reserved : ((keyReserved c.op).any fun (o, n) => leAt b o n != 0) = false) :
    mKeyCommandDone t m =
      if c.op = 1 then m.keyDerive c b
      else if c.op = 2 then m.keyImport c b
      else if c.op = 3 then m.keyClear c
      else if c.op = 4 then m.keySwitch c b
      else if c.op = 5 then m.keyAttest c b
      else m.keyOwner c b := by
  have goes : ¬ (m.gen c.inst ≠ c.gen ∨ m.isolated c.inst = true) := by simp [gen, joined]
  have clean : ¬ ((keyReserved c.op).any fun (o, n) => leAt b o n != 0) = true := by simp [reserved]
  rw [mKeyCommandDone, running]
  simp only [Module.reach_past past, block, if_neg goes, if_neg clean]

/-- R446, R448: a derivation into an empty slot, under the root or a slot that can be a parent. -/
theorem Module.keyDerive_fresh {m : Module} {c : KeyCmd} {b : Bytes} (attr : leAt b 2 1 ≤ 6)
    (label : labelOk (slice b 8 (leAt b 3 1)) = true) (foreign : labelOwn (slice b 8 (leAt b 3 1)) = false) (half : leAt b 73 1 ≤ 1)
    (alg : leAt b 72 1 ≤ 4) (algOk : leAt b 2 1 = 1 ∨ leAt b 72 1 = 0) (free : (m.slot c.slot).section_ = false)
    (empty : c.before = .empty) (halfOk : m.halfOk c.slot (leAt b 2 1) (leAt b 73 1) = true)
    (sound : m.deriveCause (leAt b 0 2) = none) :
    m.keyDerive c b = ((m.keyEnd 1).setSlot c.slot
      (m.derived KeySlot.init (leAt b 0 2) (leAt b 2 1) (leAt b 73 1) (leAt b 4 4) (leAt b 72 1) (slice b 8 (leAt b 3 1)))).keyCnt 0 := by
  have formed : ¬ (6 < leAt b 2 1 ∨ (!labelOk (slice b 8 (leAt b 3 1))) = true ∨ 1 < leAt b 73 1 ∨ 4 < leAt b 72 1 ∨
      (leAt b 2 1 ≠ 1 ∧ leAt b 72 1 ≠ 0)) := by
    rw [label]; simp only [Bool.not_true, Bool.false_eq_true, false_or]; omega
  rw [Module.keyDerive]
  dsimp only
  rw [if_neg formed]
  simp [foreign, empty, free, halfOk, sound]

theorem Module.derived_init (m : Module) (parent attr half keyId alg : Nat) (label : Bytes) :
    m.derived KeySlot.init parent attr half keyId alg label = { KeySlot.init with
      state := .ready, attr := attr, parent := parent, label := label, alg := alg, keyIds := [(half, keyId)]
      keys := [(half, keyOf (if parent = 0xFFFF then m.root.getD [] else (m.slot parent).keys.getD 0 []) label attr)]
      depth := (if parent = 0xFFFF then 0 else (m.slot parent).depth) + 1 } := by
  unfold Module.derived
  by_cases root : parent = 0xFFFF
  · simp only [if_pos root]; rfl
  · simp only [if_neg root]; rfl

theorem Module.keySwitch_goes {m : Module} {c : KeyCmd} {b : Bytes} (ready : c.before = .ready) (attr : (m.slot c.slot).attr = 1)
    (held : ((m.slot c.slot).keys.get? (1 - m.sendHalf c.slot)).isSome = true) :
    m.keySwitch c b =
      if tsLater (leAt b 0 4) m.ts32 then (m.keyEnd 1).setSlot c.slot { (m.keyEnd 1).slot c.slot with
        sendHalf := 1 - (1 - m.sendHalf c.slot), pending := some (leAt b 0 4, 1 - m.sendHalf c.slot) }
      else (m.keyEnd 1).switchHalf c.slot (1 - m.sendHalf c.slot) := by
  have goes : ¬ (c.before ≠ .ready ∨ (m.slot c.slot).attr ≠ 1 ∨
      ((m.slot c.slot).keys.get? (1 - m.sendHalf c.slot)).isNone = true) := by
    simp [ready, attr, Option.isSome_iff_ne_none.mp held]
  rw [Module.keySwitch]
  dsimp only
  rw [if_neg goes, show (m.keyEnd 1).ts32 = m.ts32 from congrArg (· % 2 ^ 32) (m.tns_keyEnd 1)]

/-- R456: the first owner slot needs no signature. -/
theorem Module.ownerResult_first {m : Module} {b : Bytes} (slot : leAt b 0 1 ≤ 3) (signer : leAt b 1 1 ≤ 3 ∨ leAt b 1 1 = 0xFF)
    (first : ∀ k < 4, (m.ownerSlot k).programmed = false) (blank : (m.ownerSlot (leAt b 0 1)).code = 0) :
    m.ownerResult 6 b = 1 := by
  have formed : ¬ (3 < leAt b 0 1 ∨ (3 < leAt b 1 1 ∧ leAt b 1 1 ≠ 0xFF)) := by omega
  have unprogrammed : ((List.range 4).map m.ownerSlot).any (·.programmed) = false := by
    simpa using first
  rw [Module.ownerResult, if_neg formed]
  simp [blank, unprogrammed]

theorem Module.keyOwner_first {m : Module} {c : KeyCmd} {b : Bytes} (op : c.op = 6) (rng : m.rd R.KEY_STATUS_RNG_FAIL = 0)
    (granted : m.ownerResult 6 b = 1) :
    m.keyOwner c b = ((({ m with persist := { m.persist with
      owners := m.persist.owners.set (leAt b 0 1) ⟨slice b 8 32, true, false⟩ } } : Module).keyEvent 6 6 (leAt b 0 1)).keyEnd 1).newNonce := by
  have goes : ¬ m.rngFailed = true := by rw [Module.rngFailed, Module.isOn_of_zero rng]; exact Bool.false_ne_true
  rw [Module.keyOwner, if_neg goes, op, granted]
  simp only [ne_eq, not_true_eq_false, if_false, if_true]

/-! ### The obligation -/

/-- R458: the starts. -/
theorem keyCommands_start (s : State) (sl inst : Nat) (b : Option Bytes) (dev : Bool) (run : s.m.mode ≠ .reset)
    (ready : s.m.ready 12 = true) (idle : s.m.rd R.KEY_CMD_STAT_BUSY = 0) (own : s.m.hostOwned (inst % 4096) = true)
    (joined : s.m.isolated (inst % 4096) = false)
    (reach : s.m.reachable (inst % 4096) (s.m.rd64 R.KEY_CMD_ADDR_LO_ADDR R.KEY_CMD_ADDR_HI_ADDR) 256 false = true) :
    (∀ x ∈ [(Instr.derive sl inst b, 1), (.importKey sl inst b, 2), (.clear sl inst b, 3), (.keySwitch sl inst b, 4)],
      completes x.1 s fun m => m.slot (sl % 1024) = { s.m.slot (sl % 1024) with state := .busy } ∧ m.rd R.KEY_CMD_STAT_BUSY = 1 ∧
        m.keys.cmd = some ⟨x.2, sl % 1024, false, inst % 4096, s.m.gen (inst % 4096), b, (s.m.slot (sl % 1024)).state⟩) ∧
    (∀ x ∈ [(Instr.attest sl dev inst b, 5, sl % 1024, dev), (.program inst b, 6, 0, false), (.revoke inst b, 7, 0, false)],
      completes x.1 s fun m => m.rd R.KEY_CMD_STAT_BUSY = 1 ∧ (∀ k, m.slot k = s.m.slot k) ∧
        m.keys.cmd = some ⟨x.2.1, x.2.2.1, x.2.2.2, inst % 4096, s.m.gen (inst % 4096), b, (s.m.slot x.2.2.1).state⟩) := by
  have starts := Module.keyStart_starts run ready idle own joined reach
  simp only [List.forall_mem_cons, List.not_mem_nil, false_imp_iff, implies_true, and_true]
  refine ⟨⟨?_, ?_, ?_, ?_⟩, ?_, ?_, ?_⟩
  · exact completes_keyStarted (f := mDerive sl inst b) rfl (starts 1 sl false b) (show 1 ≤ 4 by decide)
  · exact completes_keyStarted (f := mImportKey sl inst b) rfl (starts 2 sl false b) (show 2 ≤ 4 by decide)
  · exact completes_keyStarted (f := mClear sl inst b) rfl (starts 3 sl false b) (show 3 ≤ 4 by decide)
  · exact completes_keyStarted (f := mKeySwitch sl inst b) rfl (starts 4 sl false b) (show 4 ≤ 4 by decide)
  · exact completes_keyStarted_none (f := mAttest sl dev inst b) rfl (starts 5 sl dev b) (show ¬ 5 ≤ 4 by decide)
  · exact completes_keyStarted_none (f := mProgram inst b) rfl (starts 6 0 false b) (show ¬ 6 ≤ 4 by decide)
  · exact completes_keyStarted_none (f := mRevoke inst b) rfl (starts 7 0 false b) (show ¬ 7 ≤ 4 by decide)

/-- Settles O35: each command's own branch; assumptions 97 (the derivation function), 99 (the corners of DERIVE, CLEAR and PROGRAM), 63
(the order of AT) and 8 (the block as an operand) stand behind it. -/
theorem keyCommands : Obligations.KeyCommands := by
  refine ⟨fun s sl inst b dev run ready idle own joined reach => keyCommands_start s sl inst b dev run ready idle own joined reach,
    fun s t c b running block past gen joined wf => ?_, fun s sl t h waits => ?_, fun s sound => ?_⟩
  · have rising := Module.rising_regs_of_wf wf
    have ended := Module.keyDone_keyEnd running rising
    have acts := mKeyCommandDone_block running block past gen joined
    refine ⟨fun op reserved attr label foreign half alg algOk free empty halfOk sound => ?_, fun op reserved unused free => ?_,
      fun op reserved ready attr held => ?_, fun op low high rng slot signer first blank => ?_⟩
    · refine completes_of_upd (f := mKeyCommandDone t) rfl ?_
      rw [acts (by rw [op]; simp [keyReserved, reserved]), if_pos op,
        Module.keyDerive_fresh attr label foreign half alg algOk free empty halfOk sound]
      exact ⟨((ended.setSlot _ _).keyCnt 0).settle, (Module.slot_settle ..).trans ((Module.slot_setSlot_same ..).trans (Module.derived_init ..))⟩
    · refine completes_of_upd (f := mKeyCommandDone t) rfl ?_
      rw [acts (by rw [op]; simp [keyReserved, reserved]), op]
      simp only [Nat.reduceEqDiff, if_false, if_true]
      rw [Module.keyClear]
      dsimp only
      rw [unused, free]
      exact ⟨(ended.setSlot _ _).settle, (Module.slot_settle ..).trans (Module.slot_setSlot_same ..)⟩
    · refine completes_of_upd (f := mKeyCommandDone t) rfl ?_
      rw [acts (by rw [op]; simp [keyReserved, reserved]), op]
      simp only [Nat.reduceEqDiff, if_false, if_true]
      rw [Module.keySwitch_goes ready attr held, Module.slot_settle]
      have keys := congrArg KeySlot.keys (Module.slot_keyEnd running 1)
      by_cases later : tsLater (leAt b 0 4) s.m.ts32 = true
      · rw [if_pos later, if_pos later, Module.slot_setSlot_same]
        exact ⟨(ended.setSlot _ _).settle, keys, rfl, rfl⟩
      · rw [if_neg later, if_neg later, Module.switchHalf, Module.slot_setSlot_same]
        exact ⟨(ended.setSlot _ _).settle, keys, rfl, rfl⟩
    · refine completes_of_upd (f := mKeyCommandDone t) rfl ?_
      rw [acts (by rw [op]; simp [keyReserved, low, high]), op]
      simp only [Nat.reduceEqDiff, if_false]
      rw [Module.keyOwner_first op rng (Module.ownerResult_first slot signer first blank)]
      generalize marked : ({ s.m with persist := _ } : Module) = k
      have event := k.keeps_keyEvent (f := R.KEY_CMD_STAT_BUSY) (by decide) (by decide) 6 6 (leAt b 0 1)
      have same : (k.keyEvent 6 6 (leAt b 0 1)).keys.cmd = some c := by
        rw [Module.keys_keyEvent, ← marked]; exact running
      refine ⟨(Module.keyDone_keyEnd same (event.1 (by rw [← marked]; exact rising))).newNonce.settle, ?_⟩
      have kept := congrArg (fun x : Mode × Nat × Persist => x.2.2) (Module.modeClkPersist_newNonce ((k.keyEvent 6 6 (leAt b 0 1)).keyEnd 1))
      exact (Eq.trans kept ((Module.persist_keyEnd ..).trans (Module.persist_keyEvent ..))).trans (congrArg Module.persist marked.symm)
  · refine completes_of_upd (f := mSendHalfSwitch sl) rfl ?_
    have same : ((s.m.reach (s.m.nsOfTs t)).slot sl).keys = (s.m.slot sl).keys :=
      congrArg KeySlot.keys (Module.slot_of_keys (s.m.adv_keys _) sl)
    rw [mSendHalfSwitch, waits, Module.slot_settle]
    dsimp only
    rw [Module.switchHalf, Module.slot_setSlot_same]
    exact ⟨rfl, rfl, same⟩
  · refine completes_of_upd (f := mRngFail) rfl ?_
    have goes : ¬ s.m.rngFailed = true := by rw [Module.rngFailed, Module.isOn_of_zero sound]; exact Bool.false_ne_true
    rw [mRngFail, if_neg goes, Module.rd_settle]
    refine ⟨(Module.keeps_keyEvent _ (by decide) (by decide) ..).2.trans (Module.rd_wr_listed _ _ (by decide)), ?_⟩
    exact congrArg (fun x : Keys => { x with slots := SMap.tidy x.slots }) (Module.keys_keyEvent ..)

end Sys2Proof.Machine
end

section
/-!
PROOFS. Safe connections: repetitions, the watchdog, the commands and the frames they take (R417, R420 to R426).
-/

namespace Sys2Proof.Machine
open Sys2Proof.Claims

/-! ### What the sending of a frame leaves of the LST engine -/

/-- The LST engine and the primary clock. -/
def Module.lstClk (m : Module) : Lst × Nat := (m.lst, m.clk)

theorem Module.lst_of_lstClk {m n : Module} (h : n.lstClk = m.lstClk) : n.lst = m.lst := congrArg Prod.fst h
theorem Module.tns_of_lstClk {m n : Module} (h : n.lstClk = m.lstClk) : n.tns = m.tns := Module.tns_of_clk (congrArg Prod.snd h)

theorem Module.lstClk_of_events {m n : Module} (h : m.ExceptEvents n) : n.lstClk = m.lstClk := by
  obtain ⟨_, _, rfl⟩ := h
  rfl

theorem Module.lstClk_swCnt (m : Module) (p k : Nat) : (m.swCnt p k).lstClk = m.lstClk := rfl

theorem Module.lstClk_setQueue (m : Module) (j : QId) (l : List Copy) : (m.setQueue j l).lstClk = m.lstClk := by
  cases j <;> rfl

theorem Module.lstClk_syncCredits (m : Module) (p : Nat) : (m.syncCredits p).lstClk = m.lstClk := by
  obtain ⟨_, eq⟩ := m.syncCredits_eq p
  rw [eq]
  rfl

/-- Offering a copy changes a queue, the credits and counters (R164). -/
theorem Module.lstClk_offer (m : Module) (j : QId) (c : Copy) (mirror : Bool) : (m.offer j c mirror).1.lstClk = m.lstClk := by
  unfold Module.offer
  dsimp only
  split
  case isTrue down => cases mirror <;> rfl
  case isFalse up =>
    split
    case isTrue admitted =>
      split
      · exact m.lstClk_syncCredits _
      · exact (Module.lstClk_swCnt ..).trans ((Module.lstClk_setQueue ..).trans (m.lstClk_syncCredits _))
    case isFalse refused =>
      split
      · rfl
      · cases j <;> rfl

theorem Module.lstClk_mirrors (m : Module) (p : Nat) (raw : Bytes) (ts hits : Nat) (out : List (Nat × Bytes)) :
    (m.mirrors p raw ts hits out).lstClk = m.lstClk := by
  refine foldl_fixed_of Module.lstClk (fun k s => ?_) _ m
  dsimp only
  split
  · rfl
  · split
    · rfl
    · exact k.lstClk_offer ..

theorem Module.lstClk_offerAll (m : Module) (p : Nat) (ds : List (Nat ⊕ Nat)) (cls ts : Nat) (stamp : Option (Nat × Nat)) (vid : Nat)
    (tagged : Bool) (f : Nat → Bytes) : (m.offerAll p ds cls ts stamp vid tagged f).1.lstClk = m.lstClk :=
  foldl_fixed_of (fun acc : Module × List (Nat × Bytes) => acc.1.lstClk) (fun acc _ => acc.1.lstClk_offer ..) ds (m, [])

theorem Module.lstClk_lookup (m : Module) (p dst vid : Nat) (v : VlanEntry) : (m.lookup p dst vid v).2.lstClk = m.lstClk := by
  obtain eq | ⟨_, _, eq⟩ := m.lookup_snd p dst vid v <;> rw [eq]
  rfl

theorem Module.lstClk_originate (m : Module) (b : Bytes) (cls : Nat) : (m.originate b cls).lstClk = m.lstClk := by
  unfold Module.originate
  dsimp only
  split
  · exact Module.lstClk_mirrors ..
  · rw [Module.lstClk_mirrors, Module.lstClk_offerAll]
    split
    · exact Module.lstClk_lookup ..
    · exact Module.lstClk_lookup ..

theorem Module.lstClk_withhold (m : Module) (p : Nat) : (m.withhold p).lstClk = m.lstClk := by
  unfold Module.withhold
  dsimp only
  split
  · rfl
  · exact (Module.lstClk_of_events (Module.events_raiseIf ..)).trans rfl

/-- Authenticating a frame takes free values and nothing else. -/
theorem Module.lstClk_authExt {m n : Module} {k : Nat} {b ext : Bytes} (made : m.authExt k b = some (ext, n)) : n.lstClk = m.lstClk := by
  unfold Module.authExt at made
  dsimp only at made
  split at made
  · cases made
  · cases made
    rw [Module.freshBytes_module]
    rfl

theorem Module.lstClk_sendLst (m : Module) (c : Nat) (x : Conn) (pdu : Bytes) (anew : Bool) :
    (m.sendLst c x pdu anew).lstClk = m.lstClk := by
  unfold Module.sendLst
  dsimp only
  split
  case isTrue carried =>
    split
    case h_1 => rfl
    case h_2 r _ =>
      split
      case isTrue silent => cases anew <;> rfl
      case isFalse may =>
        split
        case isTrue auth =>
          split
          case h_1 => exact (Module.lstClk_withhold ..).trans (by cases anew <;> rfl)
          case h_2 ext n made =>
            exact (Module.lstClk_originate ..).trans ((Module.lstClk_authExt made).trans (by cases anew <;> rfl))
        case isFalse plain => exact (Module.lstClk_originate ..).trans (by cases anew <;> rfl)
  case isFalse raw =>
    split
    · exact Module.lstClk_originate ..
    · rfl

/-! ### Registers of a connection -/

/-- The registers of a connection (Table 17.3) stand apart from the engine's counters and from the event recorder's block. -/
structure Fld.OfConn (f : Fld) : Prop where
  above : 0xd10000 ≤ f.addr
  below : f.addr < 0xd40000
  place : f.lsb < 32

theorem Fld.ofConn {f : Fld} {c : Nat} (k : Nat) (few : c < 1024) (at_ : f.addr = 0xd10000 + k + 0x40 * c) (small : k < 0x40)
    (place : f.lsb < 32) : f.OfConn :=
  ⟨by omega, by omega, place⟩

theorem Module.keeps_lstCnt (m : Module) {f : Fld} (conn : f.OfConn) {k : Nat} (few : k < 16) : m.Keeps f (m.bump (R.LST_CNT_CNT k)) :=
  m.keeps_wr _ (Fld.key_ne conn.place (by simp [R.LST_CNT_CNT]) (.inl (by have := conn.above; simp only [R.LST_CNT_CNT]; omega)))

theorem Module.keeps_connCnt (m : Module) {f : Fld} (conn : f.OfConn) (c k : Nat) : m.Keeps f (m.connCnt c k) :=
  m.keeps_wr _ (Fld.key_ne conn.place (by simp [R.LST_CONN_CNT_CNT])
    (.inl (by have := conn.below; simp only [R.LST_CONN_CNT_CNT]; omega)))

theorem Module.keeps_setConn (m : Module) (f : Fld) (c : Nat) (x : Conn) : m.Keeps f (m.setConn c x) := .same rfl

theorem Module.keeps_raiseConn (m : Module) {f : Fld} (conn : f.OfConn) (en : Fld) (s n c i t d : Nat) :
    m.Keeps f (m.raiseIf en s n c i t d) :=
  m.keeps_raiseIf_above (by have := conn.above; omega) conn.place ..

theorem Module.connState_settle (m : Module) (c : Nat) : m.settle.connState c = m.connState c := m.rd_settle _

theorem Module.conn_setConn (m : Module) (c : Nat) (x : Conn) : (m.setConn c x).lst.conns.get? c = some x := SMap.get?_set_same ..

theorem Module.lst_connCnt (m : Module) (c k : Nat) : (m.connCnt c k).lst = m.lst := rfl

/-- A change of STATE is a write of it with an update of the operands. -/
theorem Module.toConnState_state {m : Module} (rising : SMap.rising m.regs = true) (c : Nat) {v : Nat} (small : v < 4) (instant : Nat) :
    (m.toConnState c v instant).connState c = v := by
  unfold Module.toConnState
  split
  · assumption
  · exact (m.rd_wr_same rising _ _).trans (Nat.mod_eq_of_lt small)

theorem Module.lst_toConnState (m : Module) (c v instant : Nat) : (m.toConnState c v instant).lst = m.lst := by
  unfold Module.toConnState
  split <;> rfl

/-- A change of STATE leaves every other field. -/
theorem Module.keeps_toConnState (m : Module) {f : Fld} {c : Nat} (apart : f.key ≠ (R.LST_CONN8_STATE c).key) (v instant : Nat) :
    m.Keeps f (m.toConnState c v instant) := by
  unfold Module.toConnState
  exact .ite (.refl f m) ((m.keeps_wr v apart).trans (.same rfl))

/-! ### Repetitions and the watchdog (R417, R424) -/

/-- R415, R417: what building a frame leaves of its connection; the sending behind it leaves the engine and the clock. -/
theorem Module.buildLst_sends {m : Module} {c : Nat} {x : Conn} (known : m.lst.conns.get? c = some x) (en : x.en = true)
    (send : m.isSend c = true) (ready : m.ready 11 = true) (running : m.mode ≠ .flush) (refresh : Bool) :
    (m.buildLst c refresh).tns = m.tns ∧ (m.buildLst c refresh).lst.conns.get? c = some { x with
      seq := some (match x.seq with | some n => (n + 1) % 2 ^ 32 | none => 0), built := true, lastBuild := m.tns } := by
  have goes : ¬ ((!x.en) = true ∨ (!m.isSend c) = true ∨ (!m.ready 11) = true ∨ m.mode = .flush) := by
    simp [en, send, ready, running]
  rw [Module.buildLst, known]
  dsimp only
  rw [if_neg goes]
  refine ⟨(Module.tns_of_lstClk (Module.lstClk_sendLst ..)).trans ?_, ?_⟩
  · cases refresh <;> rfl
  · rw [Module.lst_of_lstClk (Module.lstClk_sendLst ..)]
    cases refresh <;> exact SMap.get?_set_same ..

theorem mLstRefresh_builds {m : Module} {c : Nat} {x : Conn} (known : m.lst.conns.get? c = some x) (built : x.built = true)
    (en : x.en = true) (send : m.isSend c = true) (ready : m.ready 11 = true) (running : m.mode ≠ .flush) :
    mLstRefresh c m = (m.reach (x.lastBuild + m.rd (R.LST_CONN7_REFRESH_US c) * 1000)).buildLst c true := by
  have goes : ¬ ((!x.built) = true ∨ (!x.en) = true ∨ (!m.isSend c) = true ∨ (!m.ready 11) = true ∨ m.mode = .flush) := by
    simp [built, en, send, ready, running]
  rw [mLstRefresh, known]
  exact if_neg goes

/-- What a violation writes before it moves the connection (R424). -/
def Module.violated (m : Module) (c code : Nat) : Module :=
  let n := ((m.bump (R.LST_CNT_CNT code)).connCnt c 4).flag (R.LST_CONN8_VIOL_STK c)
  ((n.wr (R.LST_CONN8_REACTION c) code).wr (R.LST_CONN8_RECOVER_CNT c) 0).wr (R.LST_CONN8_RECOVERING c) 0

/-- A connection that a violation takes to FAIL_SAFE, with its next watchdog window. -/
def Conn.failed (x : Conn) (from_ ns : Nat) : Conn := { x with seq := none, ack := false, wdogFrom := from_, wdogNs := ns }

theorem Module.violate_fails {m : Module} {c code : Nat} (x : Conn) (safe : (m.violated c code).connState c ≠ 2) (instant from_ : Nat) :
    m.violate c x code instant from_ =
      ((((m.violated c code).setConn c (x.failed from_ ((m.violated c code).rd (R.LST_CONN4_WDOG_US c) * 1000))).connCnt c
        5).toConnState c 2 instant).raiseIf R.LST_CTRL_LOG_EN 12 1 code 0xFFFF 0xFFFF c :=
  if_neg safe

/-- A violation writes the lower status of its connection, and the counters. -/
theorem Module.keeps_violated (m : Module) {f : Fld} (conn : f.OfConn) {c code : Nat} (few : code < 16)
    (apart : f.addr ≠ 0xd10020 + 0x40 * c ∨ f.lsb = 0) : m.Keeps f (m.violated c code) := by
  have other {g : Fld} (n : Module) (v : Nat) (at_ : g.addr = 0xd10020 + 0x40 * c) (low : 0 < g.lsb) (place : g.lsb < 32) :
      n.Keeps f (n.wr g v) :=
    n.keeps_wr v (Fld.key_ne conn.place place (by omega))
  unfold Module.violated Module.flag
  have counted := (m.keeps_lstCnt conn few).trans (Module.keeps_connCnt _ conn c 4)
  have flagged := counted.trans (other _ 1 (g := R.LST_CONN8_VIOL_STK c) rfl (by simp [R.LST_CONN8_VIOL_STK]) (by simp [R.LST_CONN8_VIOL_STK]))
  have coded := flagged.trans (other _ code (g := R.LST_CONN8_REACTION c) rfl (by simp [R.LST_CONN8_REACTION]) (by simp [R.LST_CONN8_REACTION]))
  have zeroed := coded.trans (other _ 0 (g := R.LST_CONN8_RECOVER_CNT c) rfl (by simp [R.LST_CONN8_RECOVER_CNT]) (by simp [R.LST_CONN8_RECOVER_CNT]))
  exact zeroed.trans (other _ 0 (g := R.LST_CONN8_RECOVERING c) rfl (by simp [R.LST_CONN8_RECOVERING]) (by simp [R.LST_CONN8_RECOVERING]))

/-- The violation of a closed watchdog window. -/
theorem Module.violated_shows {m : Module} (c : Nat) :
    (m.violated c 9).rd (R.LST_CONN8_REACTION c) = 9 ∧ (m.violated c 9).rd (R.LST_CONN8_VIOL_STK c) = 1 := by
  constructor
  · refine (Module.rd_wr_other _ _ ?_).trans ((Module.rd_wr_other _ _ ?_).trans (Module.rd_wr_listed _ _ ?_))
    · simp [Fld.key, R.LST_CONN8_REACTION, R.LST_CONN8_RECOVERING]
    · simp [Fld.key, R.LST_CONN8_REACTION, R.LST_CONN8_RECOVER_CNT]
    · simp [R.LST_CONN8_REACTION]
  · refine (Module.rd_wr_other _ _ ?_).trans ((Module.rd_wr_other _ _ ?_).trans ((Module.rd_wr_other _ _ ?_).trans
      (Module.rd_wr_listed _ _ ?_)))
    · simp [Fld.key, R.LST_CONN8_VIOL_STK, R.LST_CONN8_RECOVERING]
    · simp [Fld.key, R.LST_CONN8_VIOL_STK, R.LST_CONN8_RECOVER_CNT]
    · simp [Fld.key, R.LST_CONN8_VIOL_STK, R.LST_CONN8_REACTION]
    · simp [R.LST_CONN8_VIOL_STK]

/-- R424 to R426: the watchdog window of a connection in WAIT or VALID closes. -/
theorem Module.lstWdog_fails {m : Module} {c : Nat} {x : Conn} (few : c < 1024) (rising : SMap.rising m.regs = true)
    (live : m.connState c < 2) :
    (m.lstWdog c x).connState c = 2 ∧ (m.lstWdog c x).rd (R.LST_CONN8_REACTION c) = 9 ∧ (m.lstWdog c x).rd (R.LST_CONN8_VIOL_STK c) = 1 ∧
      (m.lstWdog c x).lst.conns.get? c =
        some (x.failed (x.wdogFrom + x.wdogNs) (m.rd (R.LST_CONN4_WDOG_US c) * 1000)) := by
  have stateConn : (R.LST_CONN8_STATE c).OfConn := Fld.ofConn 0x20 few rfl (by decide) (by simp [R.LST_CONN8_STATE])
  have codeConn : (R.LST_CONN8_REACTION c).OfConn := Fld.ofConn 0x20 few rfl (by decide) (by simp [R.LST_CONN8_REACTION])
  have stickyConn : (R.LST_CONN8_VIOL_STK c).OfConn := Fld.ofConn 0x20 few rfl (by decide) (by simp [R.LST_CONN8_VIOL_STK])
  have state := m.keeps_violated stateConn (c := c) (code := 9) (by decide) (.inr rfl)
  have window := m.keeps_violated (f := R.LST_CONN4_WDOG_US c) (Fld.ofConn 0x10 few rfl (by decide)
    (by simp [R.LST_CONN4_WDOG_US])) (c := c) (code := 9) (by decide) (.inl (by simp only [R.LST_CONN4_WDOG_US]; omega))
  have safe : (m.violated c 9).connState c ≠ 2 := by
    rw [Module.connState, state.2]; exact Nat.ne_of_lt live
  rw [Module.lstWdog, Module.violate_fails x safe, window.2]
  generalize (x.wdogFrom + x.wdogNs) = close
  generalize hn : ((m.violated c 9).setConn c (x.failed close (m.rd (R.LST_CONN4_WDOG_US c) * 1000))).connCnt c 5 = n
  have counted {f : Fld} (conn : f.OfConn) : (m.violated c 9).Keeps f n := by
    rw [← hn]; exact ((m.violated c 9).keeps_setConn f c _).trans (Module.keeps_connCnt _ conn c 5)
  have moved {f : Fld} (conn : f.OfConn) (apart : f.key ≠ (R.LST_CONN8_STATE c).key) :
      ((n.toConnState c 2 close).raiseIf R.LST_CTRL_LOG_EN 12 1 9 0xFFFF 0xFFFF c).rd f = (m.violated c 9).rd f :=
    (((counted conn).trans (n.keeps_toConnState apart 2 close)).trans (Module.keeps_raiseConn _ conn ..)).2
  refine ⟨?_, ?_, ?_, ?_⟩
  · refine (Module.keeps_raiseConn _ stateConn ..).2.trans ?_
    exact Module.toConnState_state ((counted stateConn).1 (state.1 rising)) c (by decide) close
  · exact (moved codeConn (by simp [Fld.key, R.LST_CONN8_STATE, R.LST_CONN8_REACTION])).trans (m.violated_shows c).1
  · exact (moved stickyConn (by simp [Fld.key, R.LST_CONN8_VIOL_STK, R.LST_CONN8_STATE])).trans (m.violated_shows c).2
  · rw [Module.lst_of_lstClk (Module.lstClk_of_events (Module.events_raiseIf ..)), Module.lst_toConnState, ← hn, Module.lst_connCnt]
    exact Module.conn_setConn ..

theorem mLstWatchdog_closes {m : Module} {c : Nat} {x : Conn} (known : m.lst.conns.get? c = some x) (ready : m.ready 11 = true)
    (receive : m.isSend c = false) (live : m.connState c < 2) :
    mLstWatchdog c m = (m.reach (x.wdogFrom + x.wdogNs)).lstWdog c x := by
  have goes : ¬ (m.isSend c = true ∨ m.connState c = 3 ∨ (!m.ready 11) = true) := by
    simp [receive, ready]; omega
  rw [mLstWatchdog, known]
  exact if_neg goes

/-! ### Commands (R425) -/

theorem Module.connCmd_acts {m : Module} {c : Nat} {x : Conn} (known : m.lst.conns.get? c = some x) (run : m.mode ≠ .reset)
    (ready : m.ready 11 = true) (receive : m.isSend c = false) (f : Conn → Module) : m.connCmd c f = f x := by
  have goes : ¬ (m.isSend c = true ∨ (!m.ready 11) = true) := by simp [receive, ready]
  rw [Module.connCmd, if_neg run, known]
  exact if_neg goes

theorem Module.result_connResult (m : Module) {r : Nat} (listed : r % 8 ≠ 0) :
    (m.connResult r).rd R.LST_CONN_CMD_STAT_RESULT = r % 8 :=
  (Module.rd_wr_other _ _ (by decide)).trans (Module.rd_wr_listed _ _ listed)

theorem Module.keeps_connResult (m : Module) {f : Fld} (conn : f.OfConn) (r : Nat) : m.Keeps f (m.connResult r) := by
  have away (n : Module) {g : Fld} (v : Nat) (at_ : g.addr = 0xd00014) (place : g.lsb < 32) : n.Keeps f (n.wr g v) :=
    n.keeps_wr v (Fld.key_ne conn.place place (.inl (by have := conn.above; omega)))
  exact (away m r rfl (by decide)).trans (away _ 1 rfl (by decide))

theorem Module.connState_connResult (m : Module) {c : Nat} (few : c < 1024) (r : Nat) : (m.connResult r).connState c = m.connState c :=
  (m.keeps_connResult (Fld.ofConn 0x20 few rfl (by decide) (by simp [R.LST_CONN8_STATE])) r).2

theorem Module.lst_connResult (m : Module) (r : Nat) : (m.connResult r).lst = m.lst := rfl

/-- R425: WAIT, with no sequence number and a watchdog window from now. -/
theorem Module.connWait_waits {m : Module} (rising : SMap.rising m.regs = true) (c : Nat) (x : Conn) :
    (m.connWait c x).connState c = 0 ∧ (m.connWait c x).lst.conns.get? c =
      some { x with seq := none, wdogFrom := m.tns, wdogNs := m.rd (R.LST_CONN4_WDOG_US c) * 1000, ack := false } := by
  unfold Module.connWait Module.clearLstClaim
  dsimp only
  constructor
  · refine Module.toConnState_state ?_ c (by decide) _
    exact Module.rising_wr (Module.rising_wr (Module.rising_wr (Module.rising_wr (by exact rising) _ _) _ _) _ _) _ _
  · rw [Module.lst_toConnState]
    exact Module.conn_setConn ..

/-! ### Frames (R420 to R425) -/

theorem Module.isSend_of_lstMatches {m : Module} {dst vid c : Nat} (one : m.lstMatches dst vid = [c]) :
    m.isSend c = false ∧ m.isGooseCarried c = false := by
  have mem : c ∈ m.lstMatches dst vid := by rw [one]; exact List.mem_singleton_self c
  obtain ⟨⟨k, x⟩, held, rfl⟩ := List.mem_map.mp mem
  have passes := (List.mem_filter.mp held).2
  simp only [Bool.and_eq_true, Bool.not_eq_true'] at passes
  obtain ⟨⟨⟨⟨send, goose⟩, _⟩, _⟩, _⟩ := passes
  exact ⟨send, goose⟩

/-- The frame that is judged: what it shows of itself, and that the connection takes it (Table 17.2). -/
structure Module.Takes (m : Module) (c : Nat) (x : Conn) (pdu : Bytes) (n ingress : Nat) : Prop where
  known : m.lst.conns.get? c = some x
  receive : m.isSend c = false
  raw : m.isGooseCarried c = false
  waits : m.connState c = 0
  ready : m.ready 11 = true
  stands : m.gone 7 c = false
  inWindow : ingress < x.wdogFrom + x.wdogNs
  new : x.seq = none
  full : 24 + n ≤ pdu.length
  version : beAt pdu 0 1 = 1
  dlen : beAt pdu 2 2 = m.lstDlen c
  size : beAt pdu 2 2 = n
  flags : beAt pdu 1 1 < 8
  real : bitOf (beAt pdu 1 1) 0 = false
  sound : rind (pdu.take (20 + n)) = beAt pdu (20 + n) 4
  window : m.rd (R.LST_CONN5_SEQ_WIN c) ≠ 0
  late : -(m.rd (R.LST_CONN6_AGE_LEAD_NS c) : Int) ≤ tsDiff (ingress % 2 ^ 32) (beAt pdu 16 4)
  early : tsDiff (ingress % 2 ^ 32) (beAt pdu 16 4) < ((m.rd (R.LST_CONN3_MAX_AGE_US c) * 1000 : Nat) : Int)

theorem Module.judgeLst_takes {m : Module} {c : Nat} {x : Conn} {pdu : Bytes} {n ingress : Nat} (h : m.Takes c x pdu n ingress) :
    m.judgeLst c pdu none ingress =
      ((m.bumpBy (R.LST_CONN_CNT_CNT c 3) 0).lstAccept c x (beAt pdu 1 1) (beAt pdu 12 4) (beAt pdu 16 4) ingress ((pdu.drop 20).take n),
        true) := by
  obtain ⟨known, receive, raw, waits, ready, stands, inWindow, new, full, version, dlen, size, flags, real, sound, window, late, early⟩ := h
  have goes : ¬ (m.isSend c = true ∨ m.connState c = 3 ∨ (!m.ready 11) = true ∨ m.gone 7 c = true) := by
    simp [receive, waits, ready, stands]
  have formed : ¬ (pdu.length < 24 + n ∨ beAt pdu 0 1 ≠ 1 ∨ n ≠ m.lstDlen c ∨ 8 ≤ beAt pdu 1 1) := by
    rw [← dlen, size, version]; omega
  have timely : ¬ (tsDiff (ingress % 2 ^ 32) (beAt pdu 16 4) < -(m.rd (R.LST_CONN6_AGE_LEAD_NS c) : Int) ∨
      ((m.rd (R.LST_CONN3_MAX_AGE_US c) * 1000 : Nat) : Int) ≤ tsDiff (ingress % 2 ^ 32) (beAt pdu 16 4)) :=
    not_or.mpr ⟨not_lt.mpr late, not_le.mpr early⟩
  have inOrder : ¬ m.rd (R.LST_CONN5_SEQ_WIN c) < 1 := by omega
  have same : m.lst.conns.getD c x = x := by rw [SMap.getD, known]; rfl
  rw [Module.judgeLst, known]
  dsimp only
  rw [if_neg goes, if_neg (Nat.not_le.mpr inWindow), same]
  simp only [claimRule, size, if_neg formed, sound, ne_eq, not_true_eq_false, if_false, raw, Bool.false_eq_true, false_and, real,
    if_neg timely, new, if_neg inOrder, if_neg (show ¬ (1 = 0 ∨ 2 ^ 31 ≤ 1) by omega)]

/-- A frame accepted in WAIT: the connection holds its data and moves to VALID. -/
theorem Module.lstAccept_waits {m : Module} {c : Nat} (few : c < 1024) (waits : m.connState c = 0) (x : Conn) (flags seq ts ingress : Nat)
    (data : Bytes) : ∃ y : Conn, y.data = data ∧ y.seq = some seq ∧ m.lstAccept c x flags seq ts ingress data =
      ((((((m.bump (R.LST_CNT_CNT 0)).connCnt c 0).setConn c y).wr (R.LST_CONN9_SEQ c) seq).wr (R.LST_CONN10_ARRIVAL c)
        (ingress % 2 ^ 32)).wr (R.LST_CONN8_SENDER_SAFE c) (bitsOf flags 1 1)).toConnState c 1 ingress := by
  have conn : (R.LST_CONN8_STATE c).OfConn := Fld.ofConn 0x20 few rfl (by decide) (by simp [R.LST_CONN8_STATE])
  have first : ((m.bump (R.LST_CNT_CNT 0)).connCnt c 0).connState c = 0 :=
    ((m.keeps_lstCnt conn (k := 0) (by decide)).trans (Module.keeps_connCnt _ conn c 0)).2.trans waits
  rw [Module.lstAccept]
  simp only [first, if_true]
  exact ⟨_, rfl, rfl, rfl⟩

/-- R425: an accepted frame takes a connection from WAIT to VALID and shows its data. -/
theorem Module.lstAccept_shows {m : Module} {c : Nat} (few : c < 1024) (rising : SMap.rising m.regs = true) (waits : m.connState c = 0)
    (x : Conn) (flags seq ts ingress : Nat) (data : Bytes) :
    (m.lstAccept c x flags seq ts ingress data).connState c = 1 ∧ (m.lstAccept c x flags seq ts ingress data).lstShown c = data ∧
      ((m.lstAccept c x flags seq ts ingress data).lst.conns.get? c).bind (·.seq) = some seq := by
  obtain ⟨y, data', seq', eq⟩ := Module.lstAccept_waits few waits x flags seq ts ingress data
  have counted : SMap.rising (((m.bump (R.LST_CNT_CNT 0)).connCnt c 0).setConn c y).regs = true :=
    Module.rising_wr (Module.rising_wr rising _ _) _ _
  rw [eq]
  have valid := Module.toConnState_state (Module.rising_wr (Module.rising_wr (Module.rising_wr counted (R.LST_CONN9_SEQ c) seq)
    (R.LST_CONN10_ARRIVAL c) (ingress % 2 ^ 32)) (R.LST_CONN8_SENDER_SAFE c) (bitsOf flags 1 1)) c (v := 1) (by decide) ingress
  generalize hn : Module.wr _ _ _ = n at valid ⊢
  have held : n.lst.conns.get? c = some y := by rw [← hn]; exact Module.conn_setConn _ c y
  refine ⟨valid, ?_, ?_⟩
  · rw [Module.lstShown, Module.lst_toConnState, held]
    dsimp only
    rw [if_pos valid, data']
  · rw [Module.lst_toConnState, held]
    exact seq'

/-- A frame at EP finds the module as it stood: time has run on, and a copy has left EP. -/
theorem Module.reachEp_eq (m : Module) (t : Nat) (wanted : Copy → Bool) :
    ∃ clk mono sw, (m.reach t).takeEp wanted = { m with clk := clk, mono := mono, sw := sw } := by
  obtain ⟨sw, took⟩ := (m.reach t).takeEp_eq wanted
  rw [took]
  unfold Module.reach Module.adv
  split
  · exact ⟨_, _, sw, rfl⟩
  · exact ⟨_, _, sw, rfl⟩

theorem Module.rawLst_one {m : Module} {b : Bytes} {p ingress c : Nat} (one : m.lstMatches (ethOf b).dst (m.vidPcp p (ethOf b)).1 = [c])
    (own : m.connId c = beAt (lstPayload b) 4 8) {n : Module}
    (takes : m.judgeLst c ((lstPayload b).take (24 + beAt (lstPayload b) 2 2))
      (trailerAt (lstPayload b) (24 + beAt (lstPayload b) 2 2)) ingress = (n, true)) :
    m.rawLst b p ingress = (n, some c) := by
  have found : [c].find? (fun c => m.connId c == beAt (lstPayload b) 4 8) = some c := by simp [own]
  rw [Module.rawLst]
  simp only [one, found, takes, if_true]

theorem Module.acq_setConn (m : Module) (c : Nat) (x : Conn) : (m.setConn c x).acq = m.acq := rfl
theorem Module.acq_connCnt (m : Module) (c k : Nat) : (m.connCnt c k).acq = m.acq := rfl

theorem Module.acq_toConnState (m : Module) (c v instant : Nat) : (m.toConnState c v instant).acq = m.acq := by
  unfold Module.toConnState
  split <;> rfl

theorem Module.acq_lstAccept_waits {m : Module} {c : Nat} (few : c < 1024) (waits : m.connState c = 0) (x : Conn) (flags seq ts ingress : Nat)
    (data : Bytes) : (m.lstAccept c x flags seq ts ingress data).acq = m.acq := by
  obtain ⟨y, _, _, eq⟩ := Module.lstAccept_waits few waits x flags seq ts ingress data
  rw [eq, Module.acq_toConnState, Module.wr_acq, Module.wr_acq, Module.wr_acq, Module.acq_setConn, Module.acq_connCnt]
  exact Module.wr_acq ..

theorem Module.lstShown_settle (m : Module) (c : Nat) : m.settle.lstShown c = m.lstShown c := by
  rw [Module.lstShown, Module.lstShown, Module.connState_settle, Module.settle_lst]
  simp only [Module.lstSafe, Module.lstDlen, Module.rd_settle, Module.settle_lst]

/-- R417, R424 to R426. -/
theorem safeTransportClaim : SafeTransportClaim := by
  intro s c x known ready few wf
  have rising := Module.rising_regs_of_wf wf
  refine ⟨fun send en built running => ?_, fun receive live => ?_, fun run receive off => ?_, fun run receive on => ?_,
    fun run receive failed restore => ?_⟩
  · refine completes_of_upd (f := mLstRefresh c) rfl ?_
    rw [mLstRefresh_builds known built en send ready running]
    generalize hn : s.m.reach _ = n
    have regs : n.regs = s.m.regs := by rw [← hn]; exact Module.reach_regs ..
    obtain ⟨tns, conn⟩ := Module.buildLst_sends (m := n) (c := c) (x := x)
      (by rw [← hn]; exact (congrArg (·.conns.get? c) (s.m.adv_lst _)).trans known) en
      ((congrArg (· == 1) (Module.rd_congr regs _)).trans send) ((congrArg (bitOf · 11) (Module.rd_congr regs _)).trans ready)
      (by rw [← hn]; exact (s.m.adv_mode _).symm ▸ running) true
    refine Eq.trans conn ?_
    rw [Module.settle_tns, tns, built] <;> rfl
  · refine completes_of_upd (f := mLstWatchdog c) rfl ?_
    rw [mLstWatchdog_closes known ready receive live, Module.connState_settle, Module.rd_settle, Module.rd_settle, Module.settle_lst]
    generalize hn : s.m.reach _ = n
    have regs : n.regs = s.m.regs := by rw [← hn]; exact Module.reach_regs ..
    obtain ⟨state, code, sticky, conn⟩ := Module.lstWdog_fails (m := n) (x := x) few (by rw [regs]; exact rising)
      ((Module.rd_congr regs _).trans_lt live)
    refine ⟨state, code, sticky, ?_⟩
    rw [Module.rd_congr regs] at conn
    exact conn
  · refine completes_of_upd (f := mConnEnable c) rfl ?_
    have acts : mConnEnable c s.m = (s.m.connWait c x).connResult 1 := by
      rw [mConnEnable, Module.connCmd_acts known run ready receive]
      exact if_pos off
    obtain ⟨state, conn⟩ := Module.connWait_waits rising c x
    rw [acts, Module.connState_settle, Module.rd_settle, Module.connState_connResult _ few]
    exact ⟨state, Module.result_connResult _ (by decide), conn⟩
  · refine completes_of_upd (f := mConnDisable c) rfl ?_
    have acts : mConnDisable c s.m = ((s.m.setConn c { x with ack := false }).toConnState c 3 s.m.tns).connResult 1 := by
      rw [mConnDisable, Module.connCmd_acts known run ready receive]
      exact if_neg on
    rw [acts, Module.connState_settle, Module.rd_settle, Module.connState_connResult _ few]
    refine ⟨Module.toConnState_state (by exact rising) c (by decide) _, Module.result_connResult _ (by decide), ?_⟩
    exact (congrArg (·.conns.get? c) (Module.lst_toConnState ..)).trans (Module.conn_setConn ..)
  · refine completes_of_upd (f := mAck c) rfl ?_
    have goes : ¬ (s.m.connState c ≠ 2 ∨ (!s.m.isOn (R.LST_CONN0_RESTORE c)) = true) := by simp [failed, Module.isOn, restore]
    rw [mAck, Module.connCmd_acts known run ready receive, if_neg goes, Module.rd_settle]
    refine ⟨Module.conn_setConn .., ?_⟩
    by_cases latched : s.m.rd (R.LST_CONN8_RECOVER_CNT c) < s.m.rd (R.LST_CONN5_RECOVER_N c)
    · rw [if_pos latched]; exact Module.result_connResult _ (by decide)
    · rw [if_neg latched]; exact Module.result_connResult _ (by decide)

/-- R420 to R425. -/
theorem safeFramesClaim : SafeFramesClaim := by
  intro s b p ingress t c x pay n pdu ready mode noSession few wf one own known waits stands inWindow noTrailer new full version dlen size
    flags real sound window late early
  have rising := Module.rising_regs_of_wf wf
  obtain ⟨receive, raw⟩ := Module.isSend_of_lstMatches one
  have takes : s.m.Takes c x pdu n ingress :=
    ⟨known, receive, raw, waits, ready, stands, inWindow, new, full, version, dlen, size, flags, real, sound, window, late, early⟩
  obtain ⟨clk, mono, sw, ep⟩ := s.m.reachEp_eq t fun c => (ethOf c.bytes).etype == 0x88B5
  generalize hk : ({ s.m with clk := clk, mono := mono, sw := sw } : Module) = k at ep
  have takes' : k.Takes c x pdu n ingress := by
    rw [← hk]
    obtain ⟨known, receive, raw, waits, ready, stands, inWindow, new, full, version, dlen, size, flags, real, sound, window, late, early⟩ := takes
    exact ⟨known, receive, raw, waits, ready, stands, inWindow, new, full, version, dlen, size, flags, real, sound, window, late, early⟩
  have counted (f : Fld) (conn : f.OfConn) : k.Keeps f (k.bumpBy (R.LST_CONN_CNT_CNT c 3) 0) :=
    k.keeps_wr _ (Fld.key_ne conn.place (by simp [R.LST_CONN_CNT_CNT]) (.inl (by have := conn.below; simp only [R.LST_CONN_CNT_CNT]; omega)))
  have stateConn : (R.LST_CONN8_STATE c).OfConn := Fld.ofConn 0x20 few rfl (by decide) (by simp [R.LST_CONN8_STATE])
  have judged := Module.judgeLst_takes takes'
  generalize hj : k.bumpBy (R.LST_CONN_CNT_CNT c 3) 0 = j at judged counted
  have waits' : j.connState c = 0 := (counted _ stateConn).2.trans takes'.waits
  have taken := Module.rawLst_one (m := k) (b := b) (p := p) (by rw [← hk]; exact one) (by rw [← hk]; exact own)
    (by rw [← noTrailer] at judged; exact judged)
  refine completes_of_upd (f := mLstFrame b p ingress t) rfl ?_
  have goes : ¬ ((!k.ready 11) = true ∨ k.mode = .reset ∨ k.mode = .load ∨ k.mode = .flush) := by
    have kept : k.mode = .active := by rw [← hk]; exact mode
    simp [takes'.ready, kept]
  rw [mLstFrame]
  simp only [ep, if_neg goes, taken]
  rw [Module.lstFields, Module.fieldTrig_of_no_session]
  · obtain ⟨state, shown, seq⟩ := Module.lstAccept_shows few ((counted _ stateConn).1 (by rw [← hk]; exact rising)) waits' x (beAt pdu 1 1)
      (beAt pdu 12 4) (beAt pdu 16 4) ingress ((pdu.drop 20).take n)
    exact ⟨(Module.connState_settle ..).trans state, (Module.lstShown_settle ..).trans shown, seq⟩
  · rw [Module.acq_lstAccept_waits few waits', ← hj, ← hk]
    exact noSession

/-- Settles O51: a frame comes without a copy at EP (assumption 52), and LST_WATCHDOG is the close as it is judged (assumption 122). -/
theorem safeConnections : Obligations.SafeConnections := ⟨safeTransportClaim, safeFramesClaim⟩

end Sys2Proof.Machine
end

section
/-!
PROOFS. Heartbeats and roles of a pair (R395 to R401, R404).
-/

namespace Sys2Proof.Machine
open Sys2Proof.Claims

/-! ### Naturals in a string of bytes -/

@[simp] theorem length_beBytes (k w : Nat) : (beBytes k w).length = k := by
  rw [beBytes, List.length_reverse, length_leBytes]

theorem ofBe_snoc (l : Bytes) (b : Byte) : ofBe (l ++ [b]) = ofBe l * 256 + b.toNat := by
  rw [ofBe, List.foldl_append]
  rfl

theorem ofBe_beBytes (k w : Nat) : ofBe (beBytes k w) = w % 256 ^ k := by
  induction k generalizing w with
  | zero => rw [Nat.pow_zero, Nat.mod_one]; rfl
  | succ k ih =>
    have split : beBytes (k + 1) w = beBytes k (w / 256) ++ [BitVec.ofNat 8 w] := List.reverse_cons
    rw [split, ofBe_snoc, ih, BitVec.toNat_ofNat, show 256 ^ (k + 1) = 256 * 256 ^ k from Nat.pow_succ', Nat.mod_mul]
    omega

/-- A field is found past the bytes before it, whatever follows it. -/
theorem beAt_skip {a : Bytes} {k : Nat} (len : a.length = k) (c : Bytes) (off n : Nat) : beAt (a ++ c) (k + off) n = beAt c off n := by
  rw [beAt, slice, ← List.drop_drop, ← len, List.drop_left]
  rfl

theorem beAt_first (n v : Nat) (c : Bytes) : beAt (beBytes n v ++ c) 0 n = v % 256 ^ n := by
  have taken : (beBytes n v ++ c).take n = beBytes n v := List.take_left' (length_beBytes n v)
  rw [beAt, slice, List.drop_zero]
  rw [taken, length_beBytes, Nat.sub_self, List.replicate_zero, List.append_nil, ofBe_beBytes]

/-- The fields of a heartbeat (Table 16.3). -/
theorem Module.heartbeat_fields (m : Module) (path : Nat) :
    (m.heartbeat path).length = 48 ∧ beAt (m.heartbeat path) 0 2 = 0x0101 ∧ beAt (m.heartbeat path) 2 2 = m.red.cfg.pairId % 2 ^ 16 ∧
      beAt (m.heartbeat path) 8 4 = m.claim % 2 ^ 32 ∧ beAt (m.heartbeat path) 12 4 = m.red.sendSeq.getD path 0 % 2 ^ 32 ∧
      beAt (m.heartbeat path) 16 4 = m.ts32 ∧ beAt (m.heartbeat path) 20 8 = m.red.bootId % 2 ^ 64 := by
  unfold Module.heartbeat
  dsimp only
  generalize (_ + 32 * b2n m.red.switchReq) = flags
  simp only [List.append_assoc]
  have past2 (c : Bytes) (off n : Nat) : beAt ([1, 1] ++ c) (2 + off) n = beAt c off n := beAt_skip rfl c off n
  have past (k v : Nat) (c : Bytes) (off n : Nat) : beAt (beBytes k v ++ c) (k + off) n = beAt c off n := beAt_skip (length_beBytes k v) c off n
  have past0 (c : Bytes) (off n : Nat) : beAt ([0, 0] ++ c) (2 + off) n = beAt c off n := beAt_skip rfl c off n
  have claim (v : Nat) (c : Bytes) : beAt ([1, 1] ++ (beBytes 2 m.red.cfg.pairId ++ (beBytes 1 flags ++ (beBytes 1 m.mode.code ++
      ([0, 0] ++ c))))) (8 + v) = beAt c v := by
    funext n
    rw [show 8 + v = 2 + (2 + (1 + (1 + (2 + v)))) by omega, past2, past, past, past, past0]
  refine ⟨by simp, rfl, ?_, ?_, ?_, ?_, ?_⟩
  · exact (past2 _ 0 2).trans (beAt_first ..)
  · exact (congrFun (claim 0 _) 4).trans (beAt_first ..)
  · exact (congrFun (claim 4 _) 4).trans ((past 4 _ _ 0 4).trans (beAt_first ..))
  · rw [show 16 = 8 + (4 + (4 + 0)) from rfl, claim, past, past, beAt_first]
    exact Nat.mod_mod _ _
  · rw [show 20 = 8 + (4 + (4 + (4 + 0))) from rfl, claim, past, past, past, beAt_first]
    rfl

/-! ### What the changes of a role leave alone -/

theorem Module.rising_raiseIf {m : Module} (h : SMap.rising m.regs = true) (en : Fld) (s n c i t d : Nat) :
    SMap.rising (m.raiseIf en s n c i t d).regs = true := (m.from_raiseIf ..).1 h

theorem Module.keeps_redEvent (m : Module) {f : Fld} (above : 0xc00000 ≤ f.addr) (place : f.lsb < 32) (num cause inst data : Nat) :
    m.Keeps f (m.redEvent num cause inst data) := Module.keeps_raiseIf_above above place ..

theorem Module.events_redEvent (m : Module) (num cause inst data : Nat) : m.ExceptEvents (m.redEvent num cause inst data) :=
  Module.events_raiseIf ..

/-- n has the mode, the times, the publications, the connections and the PEER_LOST flag of m, and its role, epoch, peer and paths. -/
structure Module.SameRole (m n : Module) : Prop where
  mode : n.mode = m.mode
  mono : n.mono = m.mono
  clk : n.clk = m.clk
  pubs : n.pubs = m.pubs
  lst : n.lst = m.lst
  role : n.red.role = m.red.role
  epoch : n.red.epoch = m.red.epoch
  peer : n.red.peer = m.red.peer
  tLast : n.red.tLast = m.red.tLast
  lost : m.Keeps R.RED_STATUS_PEER_LOST n

theorem Module.SameRole.refl (m : Module) : m.SameRole m := ⟨rfl, rfl, rfl, rfl, rfl, rfl, rfl, rfl, rfl, .refl _ m⟩

theorem Module.SameRole.trans {a b c : Module} (h : a.SameRole b) (k : b.SameRole c) : a.SameRole c :=
  ⟨k.mode.trans h.mode, k.mono.trans h.mono, k.clk.trans h.clk, k.pubs.trans h.pubs, k.lst.trans h.lst, k.role.trans h.role,
    k.epoch.trans h.epoch, k.peer.trans h.peer, k.tLast.trans h.tLast, h.lost.trans k.lost⟩

theorem Module.SameRole.ite {P : Prop} [Decidable P] {a b c : Module} (h : a.SameRole b) (k : a.SameRole c) :
    a.SameRole (if P then b else c) := by split <;> assumption

theorem Module.SameRole.foldl {α : Type} {g : Module → α → Module} {l : List α} (h : ∀ (m : Module), ∀ x ∈ l, m.SameRole (g m x))
    (m : Module) : m.SameRole (l.foldl g m) :=
  List.foldlRecOn l g (motive := m.SameRole) (.refl m) fun n hn x hx => hn.trans (h n x hx)

theorem Module.sameRole_wr (m : Module) {f : Fld} (v : Nat) (apart : R.RED_STATUS_PEER_LOST.key ≠ f.key) : m.SameRole (m.wr f v) :=
  ⟨rfl, rfl, rfl, rfl, rfl, rfl, rfl, rfl, rfl, m.keeps_wr v apart⟩

/-- The counters and the states of instances stand above the status register. -/
theorem peerLost_key_ne {f : Fld} (place : f.lsb < 32) (above : 0xc00004 < f.addr) : R.RED_STATUS_PEER_LOST.key ≠ f.key :=
  Fld.key_ne (by decide) place (.inl (Nat.ne_of_lt above))

theorem Module.sameRole_redCnt (m : Module) (k : Nat) : m.SameRole (m.redCnt k) :=
  m.sameRole_wr _ (peerLost_key_ne (by simp [R.RED_CNT_CNT]) (by simp only [R.RED_CNT_CNT]; omega))

theorem Module.sameRole_redEvent (m : Module) (num cause inst data : Nat) : m.SameRole (m.redEvent num cause inst data) := by
  have lost := m.keeps_redEvent (f := R.RED_STATUS_PEER_LOST) (by decide) (by decide) num cause inst data
  obtain ⟨_, _, eq⟩ := m.events_redEvent num cause inst data
  rw [eq] at lost ⊢
  exact ⟨rfl, rfl, rfl, rfl, rfl, rfl, rfl, rfl, rfl, lost⟩

theorem Module.sameRole_judgeWindows (m : Module) : m.SameRole m.judgeWindows :=
  ⟨rfl, rfl, rfl, rfl, rfl, rfl, rfl, rfl, rfl, .same rfl⟩

theorem Module.sameRole_mHealthUpdate (m : Module) : m.SameRole (mHealthUpdate m) := by
  unfold mHealthUpdate
  have shown (h : Nat) : m.SameRole ((m.wr R.RED_PENALTY_P m.penalty).wr R.RED_PENALTY_HEALTH h) :=
    (m.sameRole_wr _ (by decide)).trans (Module.sameRole_wr _ h (by decide))
  exact .ite (.refl m) ((shown _).trans (Module.sameRole_judgeWindows _))

theorem Module.sameRole_wrSync (m : Module) (i v : Nat) : m.SameRole (m.wr (R.RED_INST_SYNC_STATE i) v) :=
  m.sameRole_wr v (peerLost_key_ne (by simp [R.RED_INST_SYNC_STATE]) (by simp only [R.RED_INST_SYNC_STATE]; omega))

theorem Module.sameRole_setUnsynced (m : Module) (i : Nat) : m.SameRole (m.setUnsynced i) :=
  have erased : m.SameRole { m with red := { m.red with xfers := m.red.xfers.erase i } } :=
    ⟨rfl, rfl, rfl, rfl, rfl, rfl, rfl, rfl, rfl, .same rfl⟩
  erased.trans (Module.sameRole_wrSync _ i 1)

theorem Module.sameRole_endXfers (m : Module) : m.SameRole m.endXfers :=
  .trans (.foldl (fun n x _ => n.sameRole_wrSync x.1 1) m) ⟨rfl, rfl, rfl, rfl, rfl, rfl, rfl, rfl, rfl, .same rfl⟩

/-! ### A change of role (R399 to R401) -/

/-- m in a mode, with a role in an epoch. -/
def Module.inRole (m : Module) (md : Mode) (r : Role) (epoch : Nat) : Module :=
  { m with mode := md, red := { m.red with role := r, epoch := epoch } }

theorem Module.keeps_toMode_lost (m : Module) (md : Mode) : m.Keeps R.RED_STATUS_PEER_LOST (m.toMode md) := by
  have shown : m.Keeps R.RED_STATUS_PEER_LOST (if m.mode = .ripen then
      m.wr R.CFG_RIPEN_STAT_ELAPSED_MS ((m.mono - m.sys.upAt) / (1000000 * nsUnit)) else m) :=
    .ite (m.keeps_wr _ (by decide)) (.refl _ m)
  exact (shown.trans (Module.keeps_setMode _ md)).trans (Module.keeps_takeEvent_above _ (by decide) (by decide) ..)

theorem Module.sameRole_toMode (m : Module) (md : Mode) : Module.SameRole { m with mode := md } (m.toMode md) := by
  have lost := m.keeps_toMode_lost md
  obtain ⟨_, _, eq⟩ := m.events_toMode md
  rw [eq] at lost ⊢
  exact ⟨rfl, rfl, rfl, rfl, rfl, rfl, rfl, rfl, rfl, lost⟩

/-- Outside TEST, a module that takes a role is itself in the mode of the role. -/
theorem Module.toRole_takes {m : Module} (real : m.mode ≠ .test) (r : Role) (epoch : Nat) :
    (m.inRole (if r = .standby then .standby else .active) r (epoch % 2 ^ 16)).SameRole (m.toRole r epoch) := by
  have ended := m.sameRole_endXfers
  rw [Module.toRole]
  simp only [if_neg real]
  refine .trans (.trans (.trans ?_ (Module.sameRole_toMode _ _)) (Module.sameRole_mHealthUpdate _)) (Module.sameRole_redEvent ..)
  exact ⟨rfl, ended.mono, ended.clk, ended.pubs, ended.lst, rfl, rfl, ended.peer, ended.tLast, ended.lost⟩

/-- R399: a decision. -/
theorem Module.decide_takes {m : Module} (real : m.mode ≠ .test) (r : Role) (epoch : Nat) :
    (m.inRole (if r = .standby then .standby else .active) r (epoch % 2 ^ 16)).SameRole (m.decide_ r epoch) := by
  have ready := m.sameRole_wr (f := R.SYS_READY_READY) (m.rd R.SYS_READY_READY ||| 2 ^ 10) (by decide)
  have taken := Module.toRole_takes (m := m.wr R.SYS_READY_READY (m.rd R.SYS_READY_READY ||| 2 ^ 10)) (by exact real) r epoch
  have shown : (m.inRole (if r = .standby then .standby else .active) r (epoch % 2 ^ 16)).SameRole
      ((m.wr R.SYS_READY_READY (m.rd R.SYS_READY_READY ||| 2 ^ 10)).inRole (if r = .standby then .standby else .active) r (epoch % 2 ^ 16)) :=
    ⟨rfl, rfl, rfl, rfl, rfl, rfl, rfl, rfl, rfl, ready.lost⟩
  refine (shown.trans taken).trans ?_
  exact .ite (.foldl (fun n i _ => n.sameRole_setUnsynced i) _) (.refl _)

/-- R400: a takeover by a member without publications and connections. -/
theorem Module.takeOver_takes {m : Module} (real : m.mode ≠ .test) (pubs : m.pubs = []) (conns : m.lst.conns = []) (cause : Nat) :
    (m.inRole .active .active ((((m.red.peer.map (·.claim)).getD m.red.epoch) % 2 ^ 16 + 1) % 2 ^ 16)).SameRole (m.takeOver cause) := by
  have taken := Module.toRole_takes real .active (((m.red.peer.map (·.claim)).getD m.red.epoch) % 2 ^ 16 + 1)
  unfold Module.takeOver
  dsimp only
  generalize m.toRole .active _ = n at taken ⊢
  have told := (n.sameRole_redCnt 5).trans (Module.sameRole_redEvent (n.redCnt 5) 2 cause 0xFFFF (n.redCnt 5).claim)
  generalize Module.redEvent _ 2 cause 0xFFFF _ = k at told ⊢
  have noPub : k.pubs = [] := told.pubs.trans (taken.pubs.trans pubs)
  have noConn : k.lst.conns = [] := by rw [told.lst, taken.lst]; exact conns
  have silent : k.announce = k := by
    rw [Module.announce, noPub]
    dsimp only [List.foldl_nil]
    rw [noConn]
    rfl
  rw [silent]
  exact taken.trans told

theorem Module.yieldTo_takes {m : Module} (real : m.mode ≠ .test) (claim : Nat) :
    (m.inRole .standby .standby (claim % 2 ^ 16)).SameRole (m.yieldTo claim) :=
  ((Module.toRole_takes real .standby claim).trans (Module.sameRole_redCnt _ 6)).trans (Module.sameRole_redEvent ..)

/-! ### The reception of a heartbeat (R397, R401) -/

theorem Module.red_redEvent (m : Module) (num cause inst data : Nat) : (m.redEvent num cause inst data).red = m.red := by
  obtain ⟨_, _, eq⟩ := m.events_redEvent num cause inst data
  rw [eq]

/-- The peer as a heartbeat of it shows it. -/
def peerOf (b : Bytes) (at_ : Nat) : Peer := ⟨beAt b 4 1, beAt b 5 1, beAt b 8 4, beAt b 20 8, at_⟩

/-- The pair's state with a valid heartbeat of a path taken. -/
def Red.heartbeatTaken (x : Red) (path : Nat) (b : Bytes) (t at_ : Nat) : Red :=
  { x with heard := x.heard.set path (beAt b 20 8, beAt b 12 4), tLast := x.tLast.set path t, peer := some (peerOf b at_),
           pathUp := x.pathUp.set path true }

/-- The module with a valid heartbeat taken, before its events. -/
def Module.heartbeatTaken (m : Module) (path : Nat) (b : Bytes) (t : Nat) : Module :=
  let n := m.redCnt (if path = 0 then 1 else 3)
  ({ n with red := n.red.heartbeatTaken path b t n.mono } : Module).wr R.RED_STATUS_PEER_LOST 0

/-- What a taken heartbeat leaves: the times and the mode, and the fields apart from the pair's status and counters. -/
structure Module.Hears (m : Module) (path : Nat) (b : Bytes) (t : Nat) (n : Module) : Prop where
  red : n.red = m.red.heartbeatTaken path b t m.mono
  mode : n.mode = m.mode
  found : n.rd R.RED_STATUS_PEER_LOST = 0
  bank : n.rd R.SYS_SEAL_AT_RESET = m.rd R.SYS_SEAL_AT_RESET
  health : n.rd R.RED_PENALTY_HEALTH = m.rd R.RED_PENALTY_HEALTH

theorem Module.mode_redEvent (m : Module) (num cause inst data : Nat) : (m.redEvent num cause inst data).mode = m.mode :=
  Module.mode_of_events (m.events_redEvent ..)

/-- The events of RED change registers of the recorder only. -/
theorem Module.Hears.redEvent {m n : Module} {path t : Nat} {b : Bytes} (h : m.Hears path b t n) (num cause inst data : Nat) :
    m.Hears path b t (n.redEvent num cause inst data) where
  red := (n.red_redEvent ..).trans h.red
  mode := (n.mode_redEvent ..).trans h.mode
  found := (n.keeps_redEvent (by decide) (by decide) ..).2.trans h.found
  bank := ((n.from_raiseIf ..).keeps (by decide) (by decide)).2.trans h.bank
  health := (n.keeps_redEvent (by decide) (by decide) ..).2.trans h.health

theorem Module.Hears.wr {m n : Module} {path t : Nat} {b : Bytes} (h : m.Hears path b t n) {f : Fld} (v : Nat) (place : f.lsb < 32)
    (above : 0xc00000 ≤ f.addr) (lost : R.RED_STATUS_PEER_LOST.key ≠ f.key) (health : R.RED_PENALTY_HEALTH.key ≠ f.key) :
    m.Hears path b t (n.wr f v) where
  red := h.red
  mode := h.mode
  found := (n.rd_wr_other v lost).trans h.found
  bank := (n.rd_wr_other v (Fld.key_ne (by decide) place (.inl (Nat.ne_of_lt (Nat.lt_of_lt_of_le (by decide) above))))).trans h.bank
  health := (n.rd_wr_other v health).trans h.health

theorem Module.hears_heartbeatTaken {m : Module} (rising : SMap.rising m.regs = true) (path : Nat) (b : Bytes) (t : Nat) :
    m.Hears path b t (m.heartbeatTaken path b t) where
  red := rfl
  mode := rfl
  found := Module.rd_wr_same _ (by exact Module.rising_wr rising _ _) _ _
  bank := (Module.rd_wr_other _ _ (by decide)).trans (Module.rd_wr_other m _ (Fld.key_ne (by decide) (by simp [R.RED_CNT_CNT])
    (.inl (by simp only [R.RED_CNT_CNT, R.SYS_SEAL_AT_RESET]; omega))))
  health := (Module.rd_wr_other _ _ (by decide)).trans (Module.rd_wr_other m _ (Fld.key_ne (by decide) (by simp [R.RED_CNT_CNT])
    (.inl (by simp only [R.RED_CNT_CNT, R.RED_PENALTY_HEALTH]; omega))))

theorem Module.hears_hbTake {m : Module} (rising : SMap.rising m.regs = true) (path : Nat) (b : Bytes) (t : Nat) :
    m.Hears path b t (m.hbTake path b t) := by
  have back (n : Module) (hears : m.Hears path b t n) (again : Bool) :
      m.Hears path b t (if again then n.redEvent 8 (path + 1) 0xFFFF 0 else n) := by
    cases again
    · exact hears
    · exact hears.redEvent ..
  have conflict (n : Module) (hears : m.Hears path b t n) (p : Prop) [Decidable p] :
      m.Hears path b t (if p then ((n.flag R.RED_STATUS_POS_CONFLICT_STK).redCnt 14).redEvent 9 0 0xFFFF 0 else n) := by
    split
    · refine Module.Hears.redEvent (Module.Hears.wr (hears.wr 1 ?_ ?_ ?_ ?_) _ ?_ ?_ ?_ ?_) .. <;> decide
    · exact hears
  exact conflict _ (back _ (Module.hears_heartbeatTaken rising path b t) _) _

/-- The preferred member of a pair hangs on the position of the peer and on its identity (R397). -/
theorem Module.preferred_congr {m n : Module} (cfg : n.red.cfg = m.red.cfg) (boot : n.red.bootId = m.red.bootId)
    (bank : n.rd R.SYS_SEAL_AT_RESET = m.rd R.SYS_SEAL_AT_RESET)
    (peer : n.red.peer.map (fun p => (p.flags % 2, p.bootId)) = m.red.peer.map fun p => (p.flags % 2, p.bootId)) :
    n.preferred = m.preferred := by
  unfold Module.preferred Module.position
  rw [cfg, boot, bank]
  rcases hn : n.red.peer with _ | p <;> rcases hm : m.red.peer with _ | q
  case none.none => rfl
  case none.some => simp [hn, hm] at peer
  case some.none => simp [hn, hm] at peer
  case some.some =>
    rw [hn, hm] at peer
    simp only [Option.map_some, Option.some.injEq, Prod.mk.injEq] at peer
    simp only [peer.1, peer.2]

/-- A heartbeat of the same peer leaves the own claim. -/
theorem Module.Hears.claim {m n : Module} {path t : Nat} {b : Bytes} (h : m.Hears path b t n)
    (peer : m.red.peer.map (fun p => (p.flags % 2, p.bootId)) = some (beAt b 4 1 % 2, beAt b 20 8)) : n.claim = m.claim := by
  have preferred : n.preferred = m.preferred := Module.preferred_congr (by rw [h.red]; rfl) (by rw [h.red]; rfl) h.bank
    (by rw [h.red, peer]; rfl)
  unfold Module.claim
  rw [preferred, h.mode, h.health, h.red]
  rfl

/-- A valid heartbeat on PL that an active hears. -/
theorem mHeartbeat_hears {m : Module} {b : Bytes} {t : Nat} (past : t * nsUnit ≤ m.clk) (pair : m.red.cfg.pairMode = true)
    (active : m.mode = .active) (valid : m.hbValid 0 b = true) (rising : SMap.rising m.regs = true) :
    mHeartbeat 0 b t m =
      (m.hbTake 0 b t).hbReact (peerOf b m.mono) (m.red.peer.any fun p => bitOf p.claim 30) := by
  have goes : ¬ ((!m.red.cfg.pairMode) = true ∨ 1 < 0 ∨ (0 = 1 ∧ (!m.red.cfg.stEn) = true) ∨ m.mode = .reset ∨ m.mode = .load ∨
      m.mode = .flush) := by simp [pair, active]
  have hears := Module.hears_hbTake rising 0 b t
  rw [mHeartbeat, Module.reach_past past]
  simp only [if_neg (show ¬ 0 = 1 by decide), if_neg goes, valid, Bool.not_true, Bool.false_eq_true, if_false]
  rw [show (m.hbTake 0 b t).red.peer = some (peerOf b m.mono) by rw [hears.red]; rfl]

/-- R395 to R398, R401, R404. -/
theorem heartbeatsClaim : HeartbeatsClaim := by
  refine ⟨fun s pair ready run running up => ?_, fun s b t past pair active role valid peer wf => ?_, fun s path t heard alive => ?_,
    fun s serv wf => ?_⟩
  · refine completes_of_upd (f := mHeartbeatSend 0) rfl ?_
    have goes : ¬ ((!s.m.red.cfg.pairMode) = true ∨ (!(s.m.rd R.SYS_READY_READY ||| 2 ^ 10 == 0xFFFF)) = true ∨ s.m.mode = .reset ∨
        s.m.mode = .flush ∨ 1 < 0) := by
      rw [ready]; simp [pair, run, running]
    have acts : mHeartbeatSend 0 s.m = (({ s.m with red := { s.m.red with
        sendSeq := s.m.red.sendSeq.set 0 ((s.m.red.sendSeq.getD 0 0 + 1) % 2 ^ 32) } } : Module).emit
          (.pair (.heartbeat (s.m.heartbeat 0)))).redCnt 0 := by
      rw [mHeartbeatSend]
      simp only [if_neg goes, up, Bool.not_true, Bool.false_eq_true, and_false, if_false, if_true, Nat.zero_ne_one, false_and]
    rw [acts]
    exact ⟨SMap.getD_set_same .., _, rfl, s.m.heartbeat_fields 0⟩
  · refine completes_of_upd (f := mHeartbeat 0 b t) rfl ?_
    have rising := Module.rising_regs_of_wf wf
    have hears := Module.hears_hbTake rising 0 b t
    have claim := hears.claim peer
    rw [mHeartbeat_hears past pair active valid rising, Module.rd_settle, Module.settle_red, Module.settle_mode]
    generalize s.m.hbTake 0 b t = n at hears claim
    have stays : n.red.role = .active ∧ n.mode = .active ∧ n.red.epoch = s.m.red.epoch := by
      rw [hears.red, hears.mode]; exact ⟨role, active, rfl⟩
    have works : n.workingActive = true := by simp [Module.workingActive, stays.1, stays.2.1]
    have told : n.red.peer = some (peerOf b s.m.mono) ∧ n.red.tLast.get? 0 = some t := by
      rw [hears.red]; exact ⟨rfl, SMap.get?_set_same ..⟩
    rw [Module.hbReact, if_pos works, claim]
    by_cases wins : claimWins (beAt b 8 4) s.m.claim = true
    · have real : n.mode ≠ .test := by rw [stays.2.1]; decide
      have taken := Module.yieldTo_takes real (beAt b 8 4)
      rw [if_pos wins, if_pos (show claimWins (peerOf b s.m.mono).claim s.m.claim = true from wins),
        show (peerOf b s.m.mono).claim = beAt b 8 4 from rfl, taken.peer, taken.tLast,
        taken.lost.2, taken.role, taken.mode, taken.epoch]
      exact ⟨told.1, hears.found, told.2, rfl, rfl, rfl⟩
    · rw [if_neg wins, if_neg (show ¬ claimWins (peerOf b s.m.mono).claim s.m.claim = true from wins)]
      exact ⟨told.1, hears.found, told.2, stays⟩
  · refine completes_of_upd (f := mHeartbeatPathLost path) rfl ?_
    rw [mHeartbeatPathLost, heard, alive, Module.settle_red]
    dsimp only
    rw [Module.red_redEvent]
    have red : (s.m.reach (t + if path = 0 then 100000 else 400000)).red.role = s.m.red.role := congrArg Red.role (s.m.adv_red _)
    exact ⟨SMap.get?_set_same .., red⟩
  · refine completes_of_upd (f := mHealthUpdate) rfl ?_
    have rising := Module.rising_regs_of_wf wf
    have acts : mHealthUpdate s.m = ((s.m.wr R.RED_PENALTY_P s.m.penalty).wr R.RED_PENALTY_HEALTH
        (if s.m.mode = .safeHold then 0 else max 1 (255 - s.m.penalty))).judgeWindows := by
      rw [mHealthUpdate, serv]
      rfl
    rw [acts, Module.rd_settle, Module.rd_settle]
    refine ⟨(Module.rd_wr_other _ _ (by decide)).trans (Module.rd_wr_same _ rising _ _), ?_⟩
    refine (Module.rd_wr_same _ (Module.rising_wr rising _ _) _ _).trans (Nat.mod_eq_of_lt ?_)
    split
    · decide
    · exact Nat.lt_of_le_of_lt (Nat.max_le.mpr ⟨by decide, Nat.sub_le _ _⟩) (by decide)

/-! ### The role (R398 to R400) -/

theorem Module.deciding_of {m : Module} {f : Nat} (ripens : m.mode = .ripen) (pair : m.red.cfg.pairMode = true)
    (from_ : m.red.decideFrom = some f) (role : m.red.role = .undecided) : m.deciding = true := by
  simp [Module.deciding, ripens, pair, from_, role]

/-- The conditions of a health window do not hang on the time (Table 16.4). -/
theorem Module.healthCause_times (m : Module) (clk mono cause : Nat) :
    ({ m with clk := clk, mono := mono } : Module).healthCause cause = m.healthCause cause := rfl

theorem Module.healthCause_reachMono (m : Module) (t cause : Nat) : (m.reachMono t).healthCause cause = m.healthCause cause := by
  unfold Module.reachMono Module.adv
  split
  · rfl
  · exact m.healthCause_times ..

/-- R398 to R400. -/
theorem rolesClaim : RolesClaim := by
  refine ⟨fun s p f peer from_ late ripens pair role => ?_, fun s f silent from_ ripens pair role still => ?_,
    fun s e ends role standby found pubs conns still => ?_, fun s t from_ standby healthy pubs conns still => ?_⟩
  · refine completes_of_upd (f := mRoleDecision) rfl ?_
    have goes : ¬ ((!s.m.deciding) = true ∨ p.at_ < f) := by
      rw [Module.deciding_of ripens pair from_ role]; simp [late]
    have real : s.m.mode ≠ .test := by rw [ripens]; decide
    rw [mRoleDecision, peer, from_, Module.settle_red, Module.settle_mode]
    dsimp only
    rw [if_neg goes]
    have actives := fun e => Module.decide_takes real .active e
    have standbys := fun e => Module.decide_takes real .standby e
    by_cases claims : bitOf p.claim 31 = true
    · by_cases yields : bitOf p.claim 30 = false ∧ s.m.preferred = true
      · obtain ⟨idle, prefers⟩ := yields
        have taken := actives (p.claim % 2 ^ 16 + 1)
        simp only [claims, idle, prefers, if_true, Bool.not_false, Bool.true_and, not_true_eq_false, and_self, and_false, if_false]
        exact ⟨taken.role, taken.mode, taken.epoch⟩
      · have taken := standbys p.claim
        have gives : ¬ (!bitOf p.claim 30 && s.m.preferred) = true := by simpa using yields
        rw [if_pos claims, if_neg gives, if_pos ⟨claims, yields⟩]
        exact ⟨taken.role, taken.mode, taken.epoch⟩
    · rw [if_neg claims, if_neg (fun h => claims h.1)]
      by_cases prefers : s.m.preferred = true
      · have taken := actives s.m.taiEpoch
        rw [if_pos prefers, if_pos prefers, if_neg claims]
        exact ⟨taken.role, taken.mode, taken.epoch.trans (Nat.mod_mod _ _)⟩
      · have taken := standbys p.claim
        rw [if_neg prefers, if_neg prefers]
        exact ⟨taken.role, taken.mode⟩
  · refine completes_of_upd (f := mPeerWaitEnd) rfl ?_
    have goes : ¬ ((!s.m.deciding) = true ∨ (s.m.red.peer.any fun p => decide (f ≤ p.at_)) = true) := by
      rw [Module.deciding_of ripens pair from_ role, silent]; simp
    rw [mPeerWaitEnd, from_, Module.rd_settle, Module.settle_red, Module.settle_mode, Module.settle_mono]
    dsimp only
    rw [if_neg goes]
    generalize hn : (s.m.reachMono (f + s.m.red.cfg.peerWaitMs * 1000000 * nsUnit)) = n
    have mode : n.mode = .ripen := by rw [← hn]; exact (s.m.adv_mode _).trans ripens
    have taken := Module.decide_takes (m := n.flag R.RED_STATUS_PEER_LOST) (by rw [show (n.flag _).mode = n.mode from rfl, mode]; decide)
      .active (n.flag R.RED_STATUS_PEER_LOST).taiEpoch
    refine ⟨taken.role, taken.mode, taken.lost.2.trans (Module.rd_wr_listed n R.RED_STATUS_PEER_LOST (v := 1) (by decide)), taken.mono.trans ?_⟩
    exact (congrArg Module.mono hn.symm).trans (Module.mono_reachMono still _)
  · refine completes_of_upd (f := mPeerLost) rfl ?_
    have goes : ¬ (s.m.isOn R.RED_STATUS_PEER_LOST = true ∨ s.m.red.role = .undecided ∨ s.m.mode = .reset ∨ s.m.mode = .flush) := by
      rw [Module.isOn_of_zero found, role, standby]; decide
    have run : s.m.mode ≠ .reset := by rw [standby]; decide
    rw [mPeerLost, ends, Module.rd_settle, Module.settle_red, Module.settle_mode, Module.settle_tns]
    dsimp only
    rw [if_neg goes]
    generalize hn : (s.m.reach e).flag R.RED_STATUS_PEER_LOST = n
    have mode : n.mode = .standby := by rw [← hn]; exact (s.m.adv_mode _).trans standby
    have red : n.red = s.m.red := by rw [← hn]; exact s.m.adv_red _
    have stands : n.standingBy = true := by simp [Module.standingBy, mode, red, role]
    have taken := Module.takeOver_takes (m := n) (by rw [mode]; decide) (by rw [← hn]; exact (s.m.adv_pubs _).trans pubs)
      (by rw [← hn]; exact (congrArg Lst.conns (s.m.adv_lst _)).trans conns) 1
    rw [if_pos stands]
    refine ⟨taken.role, taken.mode, taken.lost.2.trans ?_, ?_, ?_⟩
    · rw [← hn]; exact Module.rd_wr_listed _ R.RED_STATUS_PEER_LOST (v := 1) (by decide)
    · refine (Module.tns_of_clk taken.clk).trans ?_
      rw [← hn]; exact Module.tns_reach run still e
    · rw [← red]; exact taken.epoch
  · refine completes_of_upd (f := mHealthWindowEnd 3) rfl ?_
    have acts : mHealthWindowEnd 3 s.m = (s.m.reachMono (t + s.m.red.cfg.yieldMs * 1000000 * nsUnit)).takeOver 3 := by
      have holds : (s.m.reachMono (t + s.m.red.cfg.yieldMs * 1000000 * nsUnit)).healthCause 3 = true :=
        (s.m.healthCause_reachMono ..).trans healthy
      rw [mHealthWindowEnd]
      simp only [if_true, from_, holds, true_or, and_self]
    rw [acts, Module.settle_red, Module.settle_mode, Module.settle_mono]
    generalize hn : (s.m.reachMono (t + s.m.red.cfg.yieldMs * 1000000 * nsUnit)) = n
    have mode : n.mode = .standby := by rw [← hn]; exact (s.m.adv_mode _).trans standby
    have taken := Module.takeOver_takes (m := n) (by rw [mode]; decide)
      (by rw [← hn]; exact (s.m.adv_pubs _).trans pubs) (by rw [← hn]; exact (congrArg Lst.conns (s.m.adv_lst _)).trans conns) 3
    refine ⟨taken.role, taken.mode, taken.mono.trans ?_⟩
    exact (congrArg Module.mono hn.symm).trans (Module.mono_reachMono still _)

/-- Settles O58: roles change at once, on the heartbeat of the peer that stands (assumption 93); time runs on to the ends of windows
(assumption 6). -/
theorem pairRoles : Obligations.PairRoles := ⟨heartbeatsClaim, rolesClaim⟩

end Sys2Proof.Machine
end

section
/-!
PROOFS. Digests and transfers between the members of a pair (R406 to R408, R410).
-/

namespace Sys2Proof.Machine
open Sys2Proof.Claims

/-! ### The state of an instance in the pair -/

theorem Module.instSync_settle (m : Module) (i : Nat) : m.settle.instSync i = m.instSync i := m.rd_settle _

/-- What leaves the states of instances alone: the counters, the events and the command register of RED. -/
theorem Module.keeps_redCnt_sync (m : Module) (i : Nat) {k : Nat} (few : k < 16) : m.Keeps (R.RED_INST_SYNC_STATE i) (m.redCnt k) :=
  m.keeps_wr _ (Fld.key_ne (by simp [R.RED_INST_SYNC_STATE]) (by simp [R.RED_CNT_CNT])
    (.inl (by simp only [R.RED_INST_SYNC_STATE, R.RED_CNT_CNT]; omega)))

theorem Module.keeps_redEvent_sync (m : Module) (i num cause inst data : Nat) :
    m.Keeps (R.RED_INST_SYNC_STATE i) (m.redEvent num cause inst data) :=
  m.keeps_redEvent (by simp only [R.RED_INST_SYNC_STATE]; omega) (by simp [R.RED_INST_SYNC_STATE]) ..

theorem Module.instSync_setUnsynced (m : Module) (i : Nat) : (m.setUnsynced i).instSync i = 1 :=
  Module.rd_wr_listed _ _ (by simp [R.RED_INST_SYNC_STATE])

theorem Module.instSync_setUnsynced_of_unsynced {m : Module} {j : Nat} (out : m.instSync j = 1) (i : Nat) :
    (m.setUnsynced i).instSync j = 1 := by
  by_cases own : i = j
  · rw [own]; exact m.instSync_setUnsynced j
  · refine (Module.rd_wr_other _ _ ?_).trans out
    simp only [Fld.key, R.RED_INST_SYNC_STATE]; omega

/-- Every instance that is set out of sync is so at the end. -/
theorem Module.instSync_foldl_setUnsynced (l : List Nat) (m : Module) {i : Nat} (mem : i ∈ l ∨ m.instSync i = 1) :
    (l.foldl Module.setUnsynced m).instSync i = 1 := by
  induction l generalizing m with
  | nil => exact mem.resolve_left (List.not_mem_nil)
  | cons j r ih =>
    refine ih (m.setUnsynced j) ?_
    rcases mem with mem | out
    · rcases List.mem_cons.mp mem with rfl | later
      · exact .inr (m.instSync_setUnsynced i)
      · exact .inl later
    · exact .inr (Module.instSync_setUnsynced_of_unsynced out j)

/-- R407: a standby marks an admitted instance out of sync. -/
theorem Module.markUnsynced_marks {m : Module} {i : Nat} (role : m.red.role = .standby) (admitted : m.instAdmitted i = true) (cause : Nat) :
    m.markUnsynced i cause = (m.setUnsynced i).redEvent 4 cause i i := by
  have goes : ¬ (m.red.role ≠ .standby ∨ (!m.instAdmitted i) = true) := by simp [role, admitted]
  exact if_neg goes

theorem Module.instSync_markUnsynced {m : Module} {i : Nat} (role : m.red.role = .standby) (admitted : m.instAdmitted i = true)
    (cause : Nat) : (m.markUnsynced i cause).instSync i = 1 := by
  rw [Module.markUnsynced_marks role admitted]
  exact (Module.keeps_redEvent_sync ..).2.trans (m.instSync_setUnsynced i)

/-- The digests as they wait for their counterparts. -/
def Red.digestView (x : Red) : List (DigEntry × Nat) × List DigEntry := (x.own, x.theirs)

theorem Module.digests_markUnsynced (m : Module) (i cause : Nat) : (m.markUnsynced i cause).red.digestView = m.red.digestView := by
  unfold Module.markUnsynced
  split
  · rfl
  · rw [Module.red_redEvent]; rfl

theorem Module.digests_digMet (m : Module) (a b : DigEntry) : (m.digMet a b).red.digestView = m.red.digestView := by
  unfold Module.digMet
  split
  · rfl
  · exact (Module.digests_markUnsynced ..).trans rfl

/-- An admitted instance stays so while a counter of RED counts. -/
theorem Module.instAdmitted_redCnt (m : Module) {k : Nat} (few : k < 16) (i : Nat) : (m.redCnt k).instAdmitted i = m.instAdmitted i := by
  have kept : (m.redCnt k).rd (R.INS_INST_STAT_STATE i) = m.rd (R.INS_INST_STAT_STATE i) :=
    Module.rd_wr_other _ _ (Fld.key_ne (by simp [R.INS_INST_STAT_STATE]) (by simp [R.RED_CNT_CNT])
      (.inl (by simp only [R.INS_INST_STAT_STATE, R.RED_CNT_CNT]; omega)))
  rw [Module.instAdmitted, kept]
  rfl

/-- R406, R407. -/
theorem digestsClaim : DigestsClaim := by
  refine ⟨fun s t due up running => ?_, fun s d paired => ⟨fun unmatched room => ?_, fun x met => ?_⟩, fun s d e own role admitted => ?_⟩
  · refine completes_of_upd (f := mDigestSend) rfl ?_
    have goes : ¬ ((!s.m.linkUp 10) = true ∨ s.m.mode = .flush) := by simp [up, running]
    rw [mDigestSend, due]
    dsimp only
    rw [if_neg goes]
    generalize hn : (if s.m.red.digQ.length < 90 then s.m.reachMono (t + 10000 * nsUnit) else s.m) = n
    have same : n.red = s.m.red ∧ n.out = s.m.out := by
      rw [← hn]
      split
      · exact ⟨s.m.adv_red _, s.m.adv_out _⟩
      · exact ⟨rfl, rfl⟩
    obtain ⟨red, out⟩ := same
    rw [← red, ← out]
    exact ⟨rfl, rfl⟩
  · refine completes_of_upd (f := mDigestMessage [d]) rfl ?_
    rw [mDigestMessage, if_pos paired, List.foldl_cons, List.foldl_nil, Module.digTake, unmatched]
    have short : (s.m.red.theirs ++ [d]).length - 32768 = 0 := by
      rw [List.length_append, List.length_singleton]; omega
    dsimp only
    rw [short, List.drop_zero]
    exact ⟨rfl, rfl⟩
  · refine completes_of_upd (f := mDigestMessage [d]) rfl ?_
    rw [mDigestMessage, if_pos paired, List.foldl_cons, List.foldl_nil, Module.digTake, met]
    dsimp only
    generalize hn : ({ s.m with red := { s.m.red with own := s.m.red.own.filter fun y => !y.1.sameKey d } } : Module) = n
    have kept := n.digests_digMet x.1 d
    refine ⟨?_, ?_, fun same => ?_, fun differ role admitted => ?_⟩
    · exact (congrArg Prod.fst kept).trans (by rw [← hn]; rfl)
    · exact (congrArg Prod.snd kept).trans (by rw [← hn]; rfl)
    · rw [Module.digMet, if_pos same, ← hn]; rfl
    · rw [Module.rd_settle, Module.digMet, if_neg differ]
      refine Module.instSync_markUnsynced (by rw [← hn]; exact role) ?_ 1
      rw [Module.instAdmitted_redCnt n (by decide), ← hn]; exact admitted
  · refine completes_of_upd (f := mDigestUnmatched) rfl ?_
    rw [mDigestUnmatched, own]
    simp only [List.foldl_cons, List.foldl_nil]
    generalize hn : s.m.reach e = n
    have red : n.red = s.m.red := by rw [← hn]; exact s.m.adv_red _
    have regs : n.regs = s.m.regs := by rw [← hn]; exact s.m.adv_regs _
    have none_left : n.red.own.erase (d, e) = [] := by rw [red, own, List.erase_cons_head]
    rw [none_left, Module.rd_settle]
    generalize hk : ({ n with red := { n.red with own := [] } } : Module) = k
    refine ⟨?_, ?_⟩
    · exact (congrArg Prod.fst (Module.digests_markUnsynced (k.redCnt 10) d.inst 2)).trans (by rw [← hk]; rfl)
    · refine Module.instSync_markUnsynced (m := k.redCnt 10) (by rw [← hk]; exact (congrArg Red.role red).trans role) ?_ 2
      rw [Module.instAdmitted_redCnt k (by decide), ← hk]
      exact (congrArg (· != 0) (Module.rd_congr regs _)).trans admitted

/-! ### Transfers (R408) -/

/-- The pieces of an instance's state on their way to the standby. -/
def Module.sendParts (m : Module) (i j : Nat) (l : List XPart) : Module :=
  l.foldl (fun m p => m.emit (.pair (.state i (j % 2 ^ 32) (some p)))) m

theorem Module.out_sendParts (m : Module) (i j : Nat) (l : List XPart) :
    (m.sendParts i j l).out = m.out ++ l.map fun p => .pair (.state i (j % 2 ^ 32) (some p)) := by
  induction l generalizing m with
  | nil => exact (List.append_nil _).symm
  | cons p r ih => exact (ih _).trans (List.append_cons m.out _ _).symm

theorem Module.red_sendParts (m : Module) (i j : Nat) (l : List XPart) : (m.sendParts i j l).red = m.red :=
  foldl_keeps Module.red (f := fun m p => m.emit (.pair (.state i (j % 2 ^ 32) (some p)))) (fun _ _ _ => rfl) m

/-- The pieces of state do not hang on the pair. -/
theorem Module.stateParts_setRed (m : Module) (x : Red) (i : Nat) : ({ m with red := x } : Module).stateParts i = m.stateParts i := rfl

/-- R408: the active sends the state of an instance that the standby may have. -/
theorem mRequestMessage_sends {m : Module} {i : Nat} (works : m.workingActive = true) (admitted : m.instAdmitted i = true)
    (up : m.linkUp 10 = true) {j : Nat} (join : m.tns + m.red.cfg.joinLeadUs * 1000 = j) :
    mRequestMessage i m = (({ m with red := { m.red with forward := m.red.forward.set i j } } : Module).sendParts i j
      (m.stateParts i)).emit (.pair (.state i (j % 2 ^ 32) none)) := by
  have goes : ¬ ((!m.workingActive) = true ∨ (!m.instAdmitted i) = true ∨ (!m.linkUp 10) = true) := by simp [works, admitted, up]
  rw [mRequestMessage, if_neg goes, join]
  dsimp only
  rw [Module.stateParts_setRed]
  rfl

theorem Module.result_redResult (m : Module) : (m.redResult 1).rd R.RED_CMD_STAT_RESULT = 1 :=
  (Module.rd_wr_other _ _ (by decide)).trans (Module.rd_wr_listed _ _ (by decide))

/-- R408, R410. -/
theorem transfersClaim : TransfersClaim := by
  refine ⟨fun s i stands up room wants => ?_, fun s i works admitted up => ?_, fun s i tj x p held stands fresh => ?_,
    fun s i r stands joins => ?_, fun s i ct t stands joins own first => ?_, fun s i x held rising still => ?_, fun s run pair => ⟨?_, ?_⟩⟩
  · refine completes_of_upd (f := mXferStart) rfl ?_
    have goes : ¬ ((!s.m.standingBy) = true ∨ (!s.m.linkUp 10) = true ∨ s.m.red.cfg.xferMax ≤ s.m.red.xfers.length) := by
      simp [stands, up, room]
    rw [mXferStart, if_neg goes, wants, Module.instSync_settle]
    dsimp only
    refine ⟨SMap.get?_set_same .., ?_, rfl⟩
    exact Module.rd_wr_listed _ (R.RED_INST_SYNC_STATE i) (v := 2) (by simp [R.RED_INST_SYNC_STATE])
  · refine completes_of_upd (f := mRequestMessage i) rfl ?_
    rw [mRequestMessage_sends works admitted up rfl, Module.settle_red, Module.settle_out]
    dsimp only
    rw [Module.emit_red, Module.emit_out, Module.red_sendParts, Module.out_sendParts]
    exact ⟨SMap.get?_set_same .., rfl⟩
  · refine completes_of_upd (f := mStateMessage i tj (some p)) rfl ?_
    have goes : ¬ ((!s.m.standingBy) = true ∨ x.applied = true) := by simp [stands, fresh]
    rw [mStateMessage, held]
    dsimp only
    rw [if_neg goes]
    exact SMap.get?_set_same ..
  · refine completes_of_upd (f := mRecordMessage i r) rfl ?_
    have goes : ¬ ((!s.m.standingBy) = true ∨ s.m.instSync i ≠ 3) := by simp [stands, joins]
    rw [mRecordMessage, if_neg goes]
    exact ⟨rfl, rfl⟩
  · refine completes_of_upd (f := mMarkerMessage i ct t) rfl ?_
    have goes : ¬ ((!s.m.standingBy) = true ∨ s.m.instSync i ≠ 3 ∨ s.m.taskInst t ≠ i) := by simp [stands, joins, own]
    rw [mMarkerMessage, if_neg goes, Module.task_settle, Module.endForwarded, Module.modTask, Module.task_setTask_same, first]
  · refine completes_of_upd (f := mXferTimeout i) rfl ?_
    rw [mXferTimeout, held, Module.instSync_settle, Module.settle_red, Module.settle_mono]
    dsimp only
    rw [Module.red_redEvent]
    generalize hn : s.m.reachMono (x.start + s.m.red.cfg.xferTmoMs * 1000000 * nsUnit) = n
    have red : n.red = s.m.red := by rw [← hn]; exact s.m.adv_red _
    refine ⟨?_, ?_, ?_⟩
    · refine (show _ = (n.red.xfers.erase i).get? i from rfl).trans ?_
      rw [red]; exact SMap.get?_erase_same rising i
    · exact ((Module.keeps_redCnt_sync _ i (by decide)).trans (Module.keeps_redEvent_sync ..)).2.trans (n.instSync_setUnsynced i)
    · refine ((Module.sameRole_setUnsynced n i).trans ((Module.sameRole_redCnt _ 12).trans (Module.sameRole_redEvent ..))).mono.trans ?_
      rw [← hn]; exact Module.mono_reachMono still _
  · intro works known
    refine completes_of_upd (f := mRedSwitch) rfl ?_
    rw [mRedSwitch, if_neg run, pair, works, known, Module.rd_settle]
    exact ⟨rfl, Module.result_redResult _⟩
  · refine completes_of_upd (f := mResync) rfl ?_
    have goes : ¬ (!s.m.red.cfg.pairMode) = true := by simp [pair]
    rw [mResync, if_neg run, if_neg goes, Module.rd_settle]
    refine ⟨Module.result_redResult _, fun i mem => ?_⟩
    rw [Module.instSync_settle]
    have away (m : Module) {f : Fld} (v : Nat) (at_ : f.addr = 0xc00024) (place : f.lsb < 32) : (m.wr f v).instSync i = m.instSync i :=
      m.rd_wr_other v (Fld.key_ne (by simp [R.RED_INST_SYNC_STATE]) place (.inl (by simp only [R.RED_INST_SYNC_STATE]; omega)))
    exact ((away _ 1 rfl (by decide)).trans (away _ 1 rfl (by decide))).trans
      (Module.instSync_foldl_setUnsynced s.m.instances s.m (.inl mem))

/-- Settles O59: the pieces of state, the 32,768 unmatched digests and what a forwarded record does are those of assumption 95; time
runs on to the time-out (assumption 6). -/
theorem pairTransfers : Obligations.PairTransfers := ⟨digestsClaim, transfersClaim⟩

end Sys2Proof.Machine
end
